-- ==== Sys2Proof/Word.lean ====
section
/-! DEFINITION. The byte and the three fixed-index collections of the part: by port, by chip select S1–S4 and by slot. -/
namespace Sys2Proof

/-- One byte of a frame, of staging or of a memory device. -/
abbrev Byte := BitVec 8

/-- A host port (00_scope 4.1). -/
inductive Port where
  | a
  | b
  deriving DecidableEq, Repr

/-- "The other port" of A is B and of B is A (00_scope 4.1). -/
def Port.other : Port → Port
  | .a => .b
  | .b => .a

/-- A static chip select, S1 to S4 (00_scope 4.1). -/
inductive Chip where
  | s1
  | s2
  | s3
  | s4
  deriving DecidableEq, Repr

/-- A slot: a chip select S1–S4, or the SDRAM slot SD (00_scope 4.1). -/
inductive Slot where
  | chip (c : Chip)
  | sd
  deriving DecidableEq, Repr

/-- One value for each port. -/
structure ByPort (α : Type) where
  a : α
  b : α
  deriving DecidableEq, Repr

def ByPort.get {α : Type} (x : ByPort α) : Port → α
  | .a => x.a
  | .b => x.b

def ByPort.set {α : Type} (x : ByPort α) (p : Port) (v : α) : ByPort α :=
  match p with
  | .a => { x with a := v }
  | .b => { x with b := v }

/-- One value for each of S1 to S4. -/
structure ByChip (α : Type) where
  s1 : α
  s2 : α
  s3 : α
  s4 : α
  deriving DecidableEq, Repr

def ByChip.get {α : Type} (x : ByChip α) : Chip → α
  | .s1 => x.s1
  | .s2 => x.s2
  | .s3 => x.s3
  | .s4 => x.s4

def ByChip.set {α : Type} (x : ByChip α) (c : Chip) (v : α) : ByChip α :=
  match c with
  | .s1 => { x with s1 := v }
  | .s2 => { x with s2 := v }
  | .s3 => { x with s3 := v }
  | .s4 => { x with s4 := v }

/-- The same value for each of S1 to S4. -/
def ByChip.all {α : Type} (v : α) : ByChip α := ⟨v, v, v, v⟩

/-- One value for each of the five slots. -/
structure BySlot (α : Type) where
  chips : ByChip α
  sd : α
  deriving DecidableEq, Repr

def BySlot.get {α : Type} (x : BySlot α) : Slot → α
  | .chip c => x.chips.get c
  | .sd => x.sd

def BySlot.set {α : Type} (x : BySlot α) (k : Slot) (v : α) : BySlot α :=
  match k with
  | .chip c => { x with chips := x.chips.set c v }
  | .sd => { x with sd := v }

end Sys2Proof
end

