-- ==== Sys2Proof/Syntax.lean ====
section
/-! DEFINITION. The commands of the block: one constructor of `Instr` for each row of spec/opcode_table.json, and the plain data its operands are made of. -/
namespace Sys2Proof

/-- The levels of the input pins that the model holds (R164, R172, R177, R179, R131; pin list 10.12).
A `true` is a high level. `ready` holds MRB1#–MRB4#. -/
structure Pins where
  boot : BitVec 2
  baud : BitVec 2
  mclksel : Bool
  rxd : ByPort Bool
  hold : ByPort Bool
  ready : ByChip Bool
  deriving DecidableEq, Repr

/-- What one beat meets on the memory bus: the word on MD at its sample point (lane i is bits 8i+7 to 8i),
and the MCLK periods for which MWAIT# stretched it (R78, R80, R107). -/
structure Sample where
  md : BitVec 32
  stretch : Nat
  deriving DecidableEq, Repr

/-- The commands and events that reach the part, one constructor per row of the operation table.
A frame row carries the port, the SEQ and the payload of the frame that is taken. A tenure-end row carries
what the memory devices answered in that tenure: the samples, the bytes read, the status byte, or the level of
the slot's ready line at the end. Timer rows and the setup walk's rows carry nothing but the place concerned. -/
inductive Instr where
  -- pins and lines
  | powerOn (pins : Pins)
  | resetPin (pins : Pins)
  | characterReceived (p : Port) (c : Byte) (stop : Bool)
  | frameGapTimeout (p : Port)
  | linkBreak (p : Port)
  | rxdRise (p : Port)
  | holdChange (p : Port) (level : Bool)
  | frameSent (p : Port)
  -- request frames
  | read (p : Port) (seq : Byte) (payload : List Byte)
  | write (p : Port) (seq : Byte) (payload : List Byte)
  | cset (p : Port) (seq : Byte) (payload : List Byte)
  | swap (p : Port) (seq : Byte) (payload : List Byte)
  | fadd (p : Port) (seq : Byte) (payload : List Byte)
  | pgRead (p : Port) (seq : Byte) (payload : List Byte)
  | pgProg (p : Port) (seq : Byte) (payload : List Byte)
  | blkErase (p : Port) (seq : Byte) (payload : List Byte)
  | nandId (p : Port) (seq : Byte) (payload : List Byte)
  -- control messages
  | hello (p : Port) (seq : Byte) (payload : List Byte)
  | info (p : Port) (seq : Byte) (payload : List Byte)
  | status (p : Port) (seq : Byte) (payload : List Byte)
  | winSet (p : Port) (seq : Byte) (payload : List Byte)
  | winGet (p : Port) (seq : Byte) (payload : List Byte)
  | slotSet (p : Port) (seq : Byte) (payload : List Byte)
  | slotGet (p : Port) (seq : Byte) (payload : List Byte)
  | slotClear (p : Port) (seq : Byte) (payload : List Byte)
  | sdrSet (p : Port) (seq : Byte) (payload : List Byte)
  | sdrGet (p : Port) (seq : Byte) (payload : List Byte)
  | sdrSleep (p : Port) (seq : Byte) (payload : List Byte)
  | retireAdd (p : Port) (seq : Byte) (payload : List Byte)
  | retireDrop (p : Port) (seq : Byte) (payload : List Byte)
  | retireList (p : Port) (seq : Byte) (payload : List Byte)
  | cancel (p : Port) (seq : Byte) (payload : List Byte)
  | portReset (p : Port) (seq : Byte) (payload : List Byte)
  | bridgeReset (p : Port) (seq : Byte) (payload : List Byte)
  -- tenure ends
  | chunkEnd (samples : List Sample)
  | atomicEnd (samples : List Sample)
  | waitLimitReached (completed : Nat) (samples : List Sample)
  | nandCommandEnd (ready : Bool)
  | loadingTenureEnd (ready : Bool)
  | unloadingTenureEnd (bytes : List Byte)
  | statusTenureEnd (statusByte : Byte)
  | idTenureEnd (bytes : List Byte)
  | resetTenureEnd (ready : Bool)
  -- NAND ready lines and busy timers
  | nandReadyRise (c : Chip)
  | nandTimeout (c : Chip)
  | recoveryResetExpiry (c : Chip)
  | clearResetExpiry (c : Chip)
  | loadBusyTimeout
  -- SDRAM engine
  | refreshExpiry
  | refreshRoundEnd
  | powerdownEntry
  | selfRefreshTimer
  | selfRefreshEntryEnd
  | selfRefreshExitEnd
  | stabilisationWaitEnd
  | prechargeStepEnd
  | refreshStepEnd
  | modeStepEnd
  -- the start-up controller's walk
  | setupPortsEntry
  | setupSlotEntry
  | setupSdramEntry
  | setupWindowEntry
  | setupRetireEntry
  | setupUnknownEntry
  deriving DecidableEq, Repr

end Sys2Proof
end

