-- ==== Sys2Proof/Decode.lean ====
section
/-! DEFINITION. The command that a word spells by the operation table's bits. No row of spec/opcode_table.json gives bits. -/
namespace Sys2Proof

/-- No row of the operation table carries bits (98_reader counts 64 rows unread and 0 with fixed bits), so no word
spells a command. The frames that carry the message rows are decoded byte by byte by the receiver
(Machine/Line.lean) and the payload readers (Machine/Operands.lean). -/
def decodeTableWord (_nbits _w : Nat) : Option Instr := none

end Sys2Proof
end

