-- ==== Sys2Proof/Machine/Memory.lean ====
section
/-! DEFINITION. The staging memory as a list of cells in one canonical form: addresses strictly rising, no cell holding 0, which is what an unlisted address reads as (log entry 4). -/
namespace Sys2Proof.Machine

/-- The byte at an address; an unlisted address reads 0. -/
def Memory.read : List Host.Cell → Nat → Byte
  | [], _ => 0
  | (k, b) :: m, a => if a = k then b else Memory.read m a

/-- Writing one byte keeps the canonical form: writing 0 removes the cell. -/
def Memory.write : List Host.Cell → Nat → Byte → List Host.Cell
  | [], a, v => if v = 0 then [] else [(a, v)]
  | (k, b) :: m, a, v =>
    if a < k then (if v = 0 then (k, b) :: m else (a, v) :: (k, b) :: m)
    else if a = k then (if v = 0 then m else (a, v) :: m)
    else (k, b) :: Memory.write m a v

/-- The canonical form above a bound: addresses from `lo` on, strictly rising, no cell holding 0. -/
def Memory.wfFrom : Nat → List Host.Cell → Bool
  | _, [] => true
  | lo, (k, b) :: m => decide (lo ≤ k) && b != 0 && Memory.wfFrom (k + 1) m

/-- The canonical form. -/
def Memory.wf (m : List Host.Cell) : Bool := Memory.wfFrom 0 m

/-- Where staging byte `j` of an entry's segments lies: byte j mod 256 of the segment at position j div 256 (R47). -/
def stagingCell (segments : List Nat) (j : Nat) : Option Nat :=
  (segments[j / 256]?).map (fun n => n * 256 + j % 256)

/-- Staging byte `j` of the staging area formed by `segments` (R47). -/
def stagingRead (m : List Host.Cell) (segments : List Nat) (j : Nat) : Byte :=
  match stagingCell segments j with
  | some a => Memory.read m a
  | none => 0

/-- Staging bytes `j` onward take the bytes given, in order (R47, R49). -/
def stagingWrite (m : List Host.Cell) (segments : List Nat) : Nat → List Byte → List Host.Cell
  | _, [] => m
  | j, b :: bs =>
    match stagingCell segments j with
    | some a => stagingWrite (Memory.write m a b) segments (j + 1) bs
    | none => stagingWrite m segments (j + 1) bs

/-- Staging bytes `j` to `j + n − 1`, in order. -/
def stagingRange (m : List Host.Cell) (segments : List Nat) (j n : Nat) : List Byte :=
  (List.range n).map (fun i => stagingRead m segments (j + i))

/-- Insertion into an ascending list of numbers; a number already present is not doubled. -/
def insertAsc (n : Nat) : List Nat → List Nat
  | [] => [n]
  | m :: ms => if n < m then n :: m :: ms else if n = m then m :: ms else m :: insertAsc n ms

end Sys2Proof.Machine
end

