-- ==== Sys2Proof/Machine/State.lean ====
section
/-! DEFINITION. Every piece of state of the part (R5, R29, R43, R56, R70, R91–R106, R122, R139, R148, R156, chapter 10, R184–R196), the reasons a command can stop, and the state after a full reset. -/
namespace Sys2Proof.Machine

/-- No command of this block stops with a fault: every event has the effect the manual gives it, or none. -/
inductive Fault : Type where
  deriving DecidableEq, Repr

/-- Raised by `exec` alone, for a row that has no meaning yet. Safe: the model stops. No arm raises it. -/
inductive Refusal where
  | notModelled (mnemonic : String)
  deriving DecidableEq, Repr

/-! ### Names and codes -/

/-- The nine request kinds (R1–R3). -/
inductive ReqKind where
  | read | write | cset | swap | fadd | pgRead | pgProg | blkErase | nandId
  deriving DecidableEq, Repr

/-- The seventeen control messages (00_scope 5.2). -/
inductive CtrlKind where
  | hello | info | status | winSet | winGet | slotSet | slotGet | slotClear | sdrSet | sdrGet | sdrSleep
  | retireAdd | retireDrop | retireList | cancel | portReset | bridgeReset
  deriving DecidableEq, Repr

/-- The status codes (00_scope 5.4). -/
inductive Status where
  | ok | cmpMiss | correctedHigh
  | notUp | starting | noCredit | tagInUse | badArg | badKind | noWindow | bounds | denied | slotStall | retired | noBuffer
  | cancelled | flushed | busTimeout | nandTimeout | nandFail | eccFail
  | busy | conflict | notReady | notFound | tooLate | full | stillBusy
  deriving DecidableEq, Repr

/-- Access rights of a window or of a NAND profile (R29, R70). -/
inductive Rights where
  | none | read | readWrite
  deriving DecidableEq, Repr

/-- The type of a slot profile (R70). -/
inductive SlotType where
  | off | sram | nor | nand
  deriving DecidableEq, Repr

/-- Slot health (R70, R122). -/
inductive Health where
  | ok | stalled | clearing
  deriving DecidableEq, Repr

/-- ECC modes (R146). -/
inductive EccMode where
  | none | h1 | b8
  deriving DecidableEq, Repr

/-- SDRAM states (R94). -/
inductive SdState where
  | uninit | initialising | ready | powerdown | selfRefresh
  deriving DecidableEq, Repr

/-- The two reset causes of a port reset and the full reset, as the port start field holds them (R171, R180, R182). -/
inductive PortStart where
  | full | message | brk
  deriving DecidableEq, Repr

/-- The causes of a full reset (R183). -/
inductive Cause where
  | power | pin | message (p : Port)
  deriving DecidableEq, Repr

/-- Result of one NAND sector (R148). -/
inductive SectorResult where
  | clean | corrected (k : Nat) | erased | failed
  deriving DecidableEq, Repr

/-- Reasons of FRAME-DROP (R166, R167). -/
inductive DropReason where
  | crc | length | timeout | kind
  deriving DecidableEq, Repr

/-- Causes of SLOT-STALL (R85, R135). -/
inductive StallCause where
  | wait | nandReset
  deriving DecidableEq, Repr

/-- What a NAND device is doing for a context (R122). -/
inductive NandOp where
  | read | program | erase | id | reset
  deriving DecidableEq, Repr

/-! ### The Request Table -/

/-- Entry states (R15–R26). -/
inductive EntryState where
  | held | queued | active | replying | orphaned
  deriving DecidableEq, Repr

/-- The name of a live entry: its port and its tag, unique by R6. -/
structure Ref where
  port : Port
  tag : Byte
  deriving DecidableEq, Repr

/-- One record of the Request Table (section 1.2). The fields of kinds that do not use them hold 0, and
`progress`, `bypass` and `status` are `none` until the point at which the table says the field comes into being. -/
structure Entry where
  tag : Byte
  port : Port
  kind : ReqKind
  ordered : Bool
  raw : Bool
  slot : Slot
  offset : Nat
  length : Nat
  page : Nat
  block : Nat
  firstSector : Nat
  sectorCount : Nat
  ecc : EccMode
  compare : Nat
  operand : Nat
  segments : List Nat
  progress : Option Nat
  bypass : Option Nat
  state : EntryState
  status : Option Status
  sectors : List SectorResult
  deriving DecidableEq, Repr

/-! ### Windows and the Segment Pool -/

/-- One window record (R29). A disabled window holds 0 in its other fields: no target and rights NONE (R30, R36). -/
structure Window where
  enabled : Bool
  base : Nat
  size : Nat
  target : Option Slot
  offset : Nat
  rights : ByPort Rights
  deriving DecidableEq, Repr

/-- The disabled window: all seven fields 0 (R30). -/
def Window.off : Window :=
  { enabled := false, base := 0, size := 0, target := none, offset := 0, rights := ⟨.none, .none⟩ }

/-- The Segment Pool (R43): the free segment numbers in ascending order, each port's holding, and the 16 KiB of
staging bytes, cell address 256 × segment + byte. -/
structure Pool where
  free : List Nat
  holding : ByPort Nat
  bytes : List Host.Cell
  deriving DecidableEq, Repr

/-! ### The memory bus -/

/-- A slot profile (R70, R75, R117). Fields that the type does not use hold 0. -/
structure Profile where
  type : SlotType
  width : Nat
  recovery : Nat
  rights : ByPort Rights
  capacity : Nat
  setup : Nat
  strobe : Nat
  hold : Nat
  waitLimit : Nat
  burstBeats : Nat
  burstPitch : Nat
  pageSize : Nat
  pagesPerBlock : Nat
  blockCount : Nat
  ecc : EccMode
  threshold : Nat
  readLimit : Nat
  programLimit : Nat
  eraseLimit : Nat
  resetLimit : Nat
  deriving DecidableEq, Repr

/-- What one tenure is for (R55). The count of a refresh round or of a self-refresh entry is the debt taken at its
grant (R102, R114). `loadChunk` is a chunk of the NOR setup load (R187). -/
inductive Purpose where
  | chunk | atomic
  | nandCommand | nandLoad | nandUnload | nandStatus | nandId | nandReset
  | refreshRound (debt : Nat)
  | initPrecharge | initRefresh | initMode
  | selfRefreshEntry (debt : Nat)
  | selfRefreshExit
  | loadChunk
  deriving DecidableEq, Repr

/-- The tenure in progress (R56), with its recovery gap (R69) and the MCLK count at which its work begins. -/
structure Tenure where
  slot : Slot
  purpose : Purpose
  entry : Option Ref
  gap : Nat
  start : Nat
  deriving DecidableEq, Repr

/-- One command of the SDRAM engine (R93). A READ's data are the lanes sampled CAS latency later; a WRITE's stand lane by
lane. `SdCommand.lines` gives the line levels. -/
inductive SdCommand where
  | activate (bank row : Nat)
  | read (bank column : Nat) (data : BitVec 32)
  | write (bank column : Nat) (lanes : List Bool) (data : List Byte)
  | precharge (bank : Nat)
  | prechargeAll
  | autoRefresh
  | enterSelfRefresh
  | modeSet (word : Nat)
  deriving DecidableEq, Repr

/-- One NAND cycle (R119). The bytes of a data cycle stand lane by lane: MD[7:0] first and, at width 16, MD[15:8] second. -/
inductive NandCycle where
  | command (c : Byte)
  | address (a : Byte)
  | dataIn (bytes : List Byte)
  | dataOut (bytes : List Byte)
  deriving DecidableEq, Repr

/-- What the part drove and sampled on the memory bus, cycle by cycle. `beat` is a static beat (R77–R81): MA, the
enabled lanes (MBE# low), the lanes of MD, and its setup, strobe (with stretch) and hold in MCLK; `completed` is
false for the beat that reached the WAIT limit (R85). -/
inductive BusCycle where
  | beat (write : Bool) (address : Nat) (lanes : List Bool) (data : List Byte) (setup strobe hold : Nat) (completed : Bool)
  | sd (c : SdCommand)
  | nand (c : NandCycle)
  | idle (mclk : Nat)
  deriving DecidableEq, Repr

/-- The tenure that a full reset cut off (R57), the model's own record: of a chunk or an atomic, the cycles completed
before the reset and the one in progress at it, if one had begun. R57 says of no other tenure what it leaves, and both are
then empty. -/
structure CutTenure where
  tenure : Tenure
  done : List BusCycle
  current : Option BusCycle
  deriving DecidableEq, Repr

/-- The Bus Arbiter (R56). `lastWrite` is the last direction; `cycles` is the model's own record of the bus cycles of
the last tenure that ended, and `cut` its record of the tenure that the last full reset cut off. -/
structure Arbiter where
  queues : BySlot (List Ref)
  profiles : ByChip Profile
  lastGranted : Slot
  tenure : Option Tenure
  lastUsed : Option Slot
  lastWrite : Bool
  endTime : Option Nat
  cycles : List BusCycle
  cut : Option CutTenure
  deriving DecidableEq, Repr

/-! ### The SDRAM engine -/

/-- Page policy (R91). -/
inductive PagePolicy where
  | opened | closed
  deriving DecidableEq, Repr

/-- The SDRAM settings record (R91). -/
structure Settings where
  width : Nat
  banks : Nat
  rowBits : Nat
  columnBits : Nat
  cas : Nat
  tRCD : Nat
  tRP : Nat
  tRAS : Nat
  tWR : Nat
  tRFC : Nat
  policy : PagePolicy
  refreshInterval : Nat
  powerDownIdle : Nat
  selfRefreshIdle : Nat
  deriving DecidableEq, Repr

/-- An open row of the row table (R106). -/
structure OpenRow where
  row : Nat
  activatedAt : Nat
  lastWriteAt : Option Nat
  deriving DecidableEq, Repr

/-- Where initialisation stands (R96). -/
inductive InitStep where
  | none | waiting | precharge | refresh | mode
  deriving DecidableEq, Repr

/-- A deferred reply: the port whose control reply slot it holds and the token it echoes (R175). -/
structure Deferred where
  port : Port
  token : Byte
  deriving DecidableEq, Repr

/-- The SDRAM engine (R91–R116). A timer that is stopped is `none`; counts are MCLK for the refresh timer and µs for
the idle timers and the stabilisation wait. `srReached` is set when the self-refresh timer reaches its threshold and
cleared when the timer restarts or stops. `mckeRoseAt` is the MCLK count at which MCKE last rose (R100). -/
structure Sdram where
  settings : Settings
  state : SdState
  init : InitStep
  initWait : Nat
  rows : List (Option OpenRow)
  debt : Nat
  refreshTimer : Option Nat
  powerDownTimer : Option Nat
  selfRefreshTimer : Option Nat
  srReached : Bool
  overruns : Nat
  sleepPending : Bool
  sleepReply : Option Deferred
  setReply : Option Deferred
  mckeRoseAt : Nat
  deriving DecidableEq, Repr

/-! ### The NAND engine and the ECC unit -/

/-- Phases of a NAND context (R122). -/
inductive CtxState where
  | idle | loading | busy | unloading | checking | recovering | clearing
  deriving DecidableEq, Repr

/-- An armed busy timer: its limit and the µs since arming (R122, R130). -/
structure BusyTimer where
  limit : Nat
  elapsed : Nat
  deriving DecidableEq, Repr

/-- The operation context of a NAND slot (R122), with the deferred SLOT-CLEAR reply it owes (R137, R175). -/
structure Context where
  state : CtxState
  entry : Option Ref
  op : Option NandOp
  left : Nat
  timer : Option BusyTimer
  readySeen : Bool
  resetIssued : Bool
  clearReply : Option Deferred
  deriving DecidableEq, Repr

/-- The IDLE context with no entry and its timer stopped (R118, R122). The other fields are the model's choice, after a full
reset (log entry 24) and wherever a context becomes IDLE (log entry 35). -/
def Context.idle : Context :=
  { state := .idle, entry := none, op := none, left := 0, timer := none, readySeen := false, resetIssued := false,
    clearReply := none }

/-- What the ECC unit does for the sector in flight (R148). -/
inductive EccWork where
  | none | encode | decode
  deriving DecidableEq, Repr

/-- The ECC unit (R148). An unloading tenure fills `check`, `zeroBits` and `result` at its end, as `work` returns to NONE;
they stand until the next tenure's end or the next sector (log entry 28). -/
structure EccUnit where
  work : EccWork
  slot : Option Chip
  mode : EccMode
  check : List Byte
  zeroBits : Nat
  result : Option SectorResult
  deriving DecidableEq, Repr

/-- The unit with no sector (R148). -/
def EccUnit.off : EccUnit :=
  { work := .none, slot := none, mode := .none, check := [], zeroBits := 0, result := none }

/-! ### Notices and port units -/

/-- The notice kinds with their fields (section 9.6). -/
inductive Notice where
  | seqGap (expected received : Byte)
  | frameDrop (r : DropReason)
  | ctrlOverrun (count : Nat)
  | peerReset (p : Port) (cause : PortStart)
  | slotStall (c : Chip) (cause : StallCause)
  | refreshOverrun (debt : Nat)
  | nandTimeout (c : Chip) (tag : Byte) (phase : NandOp)
  | blockRetired (c : Chip) (block : Nat)
  | retireFull (c : Chip) (block : Nat)
  | noticesLost (count : Nat)
  deriving DecidableEq, Repr

/-- The Notice Unit's state for one port (R156). -/
structure NoticeState where
  queue : List (BitVec 16 × Notice)
  lost : Nat
  lastLost : BitVec 16
  next : BitVec 16
  onList : Nat
  deriving DecidableEq, Repr

/-- One item of a ready list (R176). The REPLY of an entry is named by its tag; the other items hold their contents. -/
inductive Item where
  | entryReply (tag : Byte)
  | refusal (tag : Byte) (st : Status)
  | ctrl (token : Byte) (kind : CtrlKind) (st : Status) (body : List Byte)
  | notice (number : BitVec 16) (n : Notice)
  deriving DecidableEq, Repr

/-- The transmitter while SENDING (R177): the transmit sequence taken, the whole frame, and the MCLK since it began,
from which the bytes sent so far follow. -/
structure Sending where
  seq : Byte
  frame : List Byte
  elapsed : Nat
  deriving DecidableEq, Repr

/-- Receiver states (R166). `inFrame` holds the bytes since 0xC3. -/
inductive Receiver where
  | hunting
  | inFrame (bytes : List Byte)
  | inBreak
  deriving DecidableEq, Repr

/-- A frame with a good CRC and a known KIND, whole, between its last character and its taking (R167). -/
structure Frame where
  kind : Byte
  seq : Byte
  payload : List Byte
  deriving DecidableEq, Repr

/-- Port states (R170). -/
inductive PortState where
  | down | up
  deriving DecidableEq, Repr

/-- One port unit (chapter 10). `held` counts its control reply slots that are held; `arrived` are the complete frames
of the line not yet taken; `gapTime` is the MCLK since the last character of the frame in reception. -/
structure PortUnit where
  state : PortState
  expected : Option Byte
  txSeq : Byte
  receiver : Receiver
  gapTime : Nat
  arrived : List Frame
  config : Bool
  held : Nat
  overruns : Nat
  ready : List Item
  tx : Option Sending
  start : PortStart
  deriving DecidableEq, Repr

/-! ### The start-up controller -/

/-- Steps of STARTING (R184). -/
inductive StartStep where
  | load | apply | settle
  deriving DecidableEq, Repr

/-- The top state (R184). -/
inductive Top where
  | starting (step : StartStep)
  | running
  deriving DecidableEq, Repr

/-- Source used (R190). -/
inductive Source where
  | none | primary | fallback | defaults
  deriving DecidableEq, Repr

/-- The outcome of a copy (R189, R196). -/
inductive CopyReason where
  | notTried | valid | timeout | ecc | erased | marker | version | length | crc
  deriving DecidableEq, Repr

/-- The setup result (R196). -/
structure SetupResult where
  source : Source
  primary : CopyReason
  fallback : CopyReason
  applied : Nat
  skipped : Nat
  firstSkipped : Option Nat
  deriving DecidableEq, Repr

/-- The result at the start of every full reset (R196). -/
def SetupResult.initial : SetupResult :=
  { source := .none, primary := .notTried, fallback := .notTried, applied := 0, skipped := 0, firstSkipped := none }

/-- The place in the load (R187, R188): reading NOR chunks, in the first reset, at a read command or its busy period
and unloading, or in the reset after a timeout. -/
inductive LoadPhase where
  | norChunks
  | firstReset
  | reading
  | timeoutReset
  deriving DecidableEq, Repr

/-- The load in progress: which copy (false the primary, true the fallback), where in it, and how many of the 8 chunks of
a NOR copy have been read (R187). -/
structure Load where
  second : Bool
  phase : LoadPhase
  chunk : Nat
  deriving DecidableEq, Repr

/-- The walk of R191: the byte position and the index of the next entry. -/
structure Walk where
  pos : Nat
  index : Nat
  deriving DecidableEq, Repr

/-- An SD window of the deferred list (R193): its entry index, its window index, and its window block. -/
structure DeferredWindow where
  entry : Nat
  index : Nat
  block : List Byte
  deriving DecidableEq, Repr

/-- The start-up controller (chapter 11). -/
structure Startup where
  top : Top
  cause : Cause
  result : SetupResult
  load : Option Load
  buffer : List Byte
  walk : Option Walk
  deferred : List DeferredWindow
  deriving DecidableEq, Repr

/-- The straps sampled at the last full reset (R164, R172, R183). -/
structure Straps where
  boot : BitVec 2
  baud : BitVec 2
  mclksel : Bool
  deriving DecidableEq, Repr

/-! ### The part -/

/-- The whole part. `pins` are the input levels, `now` is the MCLK count, `fresh` is the model's own counter of free
choices made, and `pending` is the queue of commands that wait. -/
structure State where
  pins : Pins
  straps : Straps
  now : Nat
  ports : ByPort PortUnit
  table : ByPort (List Entry)
  windows : List Window
  pool : Pool
  arbiter : Arbiter
  health : ByChip Health
  nand : ByChip Context
  retired : ByChip (List Nat)
  sdram : Sdram
  ecc : EccUnit
  notices : ByPort NoticeState
  startup : Startup
  bridgeReset : Option Port
  fresh : Nat
  pending : List Instr
  deriving DecidableEq, Repr

/-! ### Full-reset values -/

/-- S2 to S4 after a full reset, and S1 under BOOT 00 (R76). -/
def Profile.off : Profile :=
  { type := .off, width := 8, recovery := 0, rights := ⟨.none, .none⟩, capacity := 0, setup := 0, strobe := 0, hold := 0,
    waitLimit := 0, burstBeats := 0, burstPitch := 0, pageSize := 0, pagesPerBlock := 0, blockCount := 0, ecc := .none,
    threshold := 0, readLimit := 0, programLimit := 0, eraseLimit := 0, resetLimit := 0 }

/-- S1 under BOOT 01 (R76). -/
def Profile.bootNor : Profile :=
  { Profile.off with
    type := .nor, width := 16, capacity := 64 * 1024 * 1024, setup := 7, strobe := 63, hold := 7, recovery := 15,
    waitLimit := 0, burstBeats := 1, burstPitch := 15 }

/-- S1 under BOOT 10 and 11 (R118). -/
def Profile.bootNand (pageSize pagesPerBlock blockCount : Nat) : Profile :=
  { Profile.off with
    type := .nand, width := 8, pageSize := pageSize, pagesPerBlock := pagesPerBlock, blockCount := blockCount, ecc := .h1,
    threshold := 1, readLimit := 1000, programLimit := 1000, eraseLimit := 1000, resetLimit := 1000, recovery := 15 }

/-- S1's profile after a full reset, by the BOOT strap (R76, R118). -/
def Profile.boot (boot : BitVec 2) : Profile :=
  match boot.toNat with
  | 0 => Profile.off
  | 1 => Profile.bootNor
  | 2 => Profile.bootNand 512 32 4096
  | _ => Profile.bootNand 2048 64 2048

/-- The settings record after a full reset: every field 0 (R91). -/
def Settings.zero : Settings :=
  { width := 0, banks := 0, rowBits := 0, columnBits := 0, cas := 0, tRCD := 0, tRP := 0, tRAS := 0, tWR := 0, tRFC := 0,
    policy := .opened, refreshInterval := 0, powerDownIdle := 0, selfRefreshIdle := 0 }

/-- The SDRAM engine after a full reset (R116). -/
def Sdram.afterReset : Sdram :=
  { settings := Settings.zero, state := .uninit, init := .none, initWait := 0, rows := [], debt := 0, refreshTimer := none,
    powerDownTimer := none, selfRefreshTimer := none, srReached := false, overruns := 0, sleepPending := false,
    sleepReply := none, setReply := none, mckeRoseAt := 0 }

/-- The notice state of a port after a full reset (R156). The last lost number is 0, a value the manual does not give. -/
def NoticeState.afterReset : NoticeState := { queue := [], lost := 0, lastLost := 0, next := 0, onList := 0 }

/-- A port unit after a full reset (R173, R179, R182). -/
def PortUnit.afterReset (rxdHigh config : Bool) : PortUnit :=
  { state := .down, expected := none, txSeq := 0, receiver := if rxdHigh then .hunting else .inBreak, gapTime := 0,
    arrived := [], config := config, held := 0, overruns := 0, ready := [], tx := none, start := .full }

/-- The Bus Arbiter after a full reset (R56, R76, R118). -/
def Arbiter.afterReset (boot : BitVec 2) : Arbiter :=
  { queues := ⟨ByChip.all [], []⟩, profiles := ⟨Profile.boot boot, Profile.off, Profile.off, Profile.off⟩,
    lastGranted := .chip .s4, tenure := none, lastUsed := none, lastWrite := false, endTime := none, cycles := [],
    cut := none }

/-- All 64 segments free (R27, R43). The bytes of the segments are kept by a PIN or MESSAGE reset (R54). -/
def Pool.afterReset (bytes : List Host.Cell) : Pool := { free := List.range 64, holding := ⟨0, 0⟩, bytes := bytes }

/-- S1's context at the start of start-up: in the load's reset under BOOT 10 and 11 (R188), IDLE otherwise (R118). -/
def Context.boot (boot : BitVec 2) : Context :=
  if 2 ≤ boot.toNat then { Context.idle with state := .recovering, op := some .reset } else Context.idle

/-- The start-up controller at the end of a full reset (R184, R195): RUNNING at once under BOOT 00, else LOAD. -/
def Startup.afterReset (boot : BitVec 2) (cause : Cause) : Startup :=
  { top := if boot.toNat = 0 then .running else .starting .load
    cause := cause
    result := SetupResult.initial
    load :=
      match boot.toNat with
      | 0 => none
      | 1 => some ⟨false, .norChunks, 0⟩
      | _ => some ⟨false, .firstReset, 0⟩
    buffer := [], walk := none, deferred := [] }

/-- Every block at its full-reset values (R27, R30, R43, R56, R76, R116, R118, R139, R148, R156, R182–R186, R196).
The staging bytes, the queue of commands and the count of free choices are passed in: no reset rule changes them
except that power-on leaves the staging bytes unknown (R54). -/
def State.afterReset (cause : Cause) (pins : Pins) (bytes : List Host.Cell) (fresh : Nat) (pending : List Instr) : State :=
  { pins := pins
    straps := ⟨pins.boot, pins.baud, pins.mclksel⟩
    now := 0
    ports := ⟨PortUnit.afterReset pins.rxd.a true, PortUnit.afterReset pins.rxd.b false⟩
    table := ⟨[], []⟩
    windows := List.replicate 8 Window.off
    pool := Pool.afterReset bytes
    arbiter := Arbiter.afterReset pins.boot
    health := ByChip.all .ok
    nand := ⟨Context.boot pins.boot, Context.idle, Context.idle, Context.idle⟩
    retired := ByChip.all []
    sdram := Sdram.afterReset
    ecc := EccUnit.off
    notices := ⟨NoticeState.afterReset, NoticeState.afterReset⟩
    startup := Startup.afterReset pins.boot cause
    bridgeReset := none
    fresh := fresh
    pending := pending }

/-- The input levels of `State.reset`: BOOT 00, BAUD 00, MCLKSEL low, both receive lines at rest, HOLD# high on both
ports, every NAND ready line high. The straps are the board's choice; this is one of them (log entry 2). -/
def Pins.default : Pins :=
  { boot := 0, baud := 0, mclksel := false, rxd := ⟨true, true⟩, hold := ⟨true, true⟩, ready := ByChip.all true }

/-- The part right after power-on with BOOT 00. -/
def State.reset : State := State.afterReset .power Pins.default [] 0 []

end Sys2Proof.Machine
end

