-- ==== Sys2Proof/Machine/Ops.lean ====
section
/-! DEFINITION. The named operations over the part's state: entries, queues, segments, ready lists, control reply slots and notices (R13, R43, R45, R51, R157, R159, R174, R176). -/
namespace Sys2Proof.Machine

/-! ### Places in the state -/

def State.port (s : State) (p : Port) : PortUnit := s.ports.get p

def State.setPort (s : State) (p : Port) (u : PortUnit) : State := { s with ports := s.ports.set p u }

def State.entries (s : State) (p : Port) : List Entry := s.table.get p

def State.setEntries (s : State) (p : Port) (es : List Entry) : State := { s with table := s.table.set p es }

/-- The live entry of a port with a tag (R6: lookups are made among the entries of the one port). -/
def State.find (s : State) (r : Ref) : Option Entry := (s.entries r.port).find? (fun e => e.tag == r.tag)

/-- Changes the named entry in place; its place in the admission list stays. -/
def State.updateEntry (s : State) (r : Ref) (f : Entry → Entry) : State :=
  s.setEntries r.port ((s.entries r.port).map (fun e => if e.tag = r.tag then f e else e))

/-- Takes the named entry out of its port's admission list. -/
def State.dropEntry (s : State) (r : Ref) : State :=
  s.setEntries r.port ((s.entries r.port).filter (fun e => e.tag != r.tag))

def State.queue (s : State) (k : Slot) : List Ref := s.arbiter.queues.get k

def State.setQueue (s : State) (k : Slot) (q : List Ref) : State :=
  { s with arbiter := { s.arbiter with queues := s.arbiter.queues.set k q } }

/-- The named entry leaves the queue; the others keep their order (R58). -/
def State.dequeue (s : State) (k : Slot) (r : Ref) : State := s.setQueue k ((s.queue k).filter (fun x => x != r))

def State.profile (s : State) (c : Chip) : Profile := s.arbiter.profiles.get c

def State.setProfile (s : State) (c : Chip) (f : Profile) : State :=
  { s with arbiter := { s.arbiter with profiles := s.arbiter.profiles.set c f } }

def State.setHealth (s : State) (c : Chip) (h : Health) : State := { s with health := s.health.set c h }

def State.context (s : State) (c : Chip) : Context := s.nand.get c

def State.setContext (s : State) (c : Chip) (x : Context) : State := { s with nand := s.nand.set c x }

def State.setRetired (s : State) (c : Chip) (l : List Nat) : State := { s with retired := s.retired.set c l }

def State.setSdram (s : State) (d : Sdram) : State := { s with sdram := d }

def State.setStartup (s : State) (u : Startup) : State := { s with startup := u }

/-- Whether a slot can take new work: the health of SD is always OK (R12). -/
def State.healthy (s : State) : Slot → Bool
  | .chip c => s.health.get c == .ok
  | .sd => true

/-! ### Segments -/

/-- A port's unused reserve: 8 minus its holding, or 0 (R43). -/
def unusedReserve (holding : Nat) : Nat := 8 - holding

/-- Whether the claim of `n` segments by port `p` is met (R45). -/
def Pool.canClaim (x : Pool) (p : Port) (n : Nat) : Bool :=
  n == 0 || (decide (n ≤ x.free.length) &&
    decide (unusedReserve (x.holding.get p.other) + unusedReserve (x.holding.get p + n) ≤ x.free.length - n))

/-- The pool after a met claim: the `n` lowest free segments are held by port `p` (R45). -/
def Pool.claim (x : Pool) (p : Port) (n : Nat) : List Nat × Pool :=
  (x.free.take n, { x with free := x.free.drop n, holding := x.holding.set p (x.holding.get p + n) })

/-- The pool after `segments` of port `p` are released (R51). The bytes are not cleared. -/
def Pool.release (x : Pool) (p : Port) (segments : List Nat) : Pool :=
  { x with
    free := segments.foldl (fun l n => insertAsc n l) x.free
    holding := x.holding.set p (x.holding.get p - segments.length) }

/-- An entry's segments all go back to the pool and its list becomes empty (R51). -/
def State.releaseSegments (s : State) (r : Ref) : State :=
  match s.find r with
  | some e => { s with pool := s.pool.release r.port e.segments }.updateEntry r (fun e => { e with segments := [] })
  | none => s

/-- Writes staging bytes of an entry. -/
def State.stage (s : State) (segments : List Nat) (j : Nat) (bytes : List Byte) : State :=
  { s with pool := { s.pool with bytes := stagingWrite s.pool.bytes segments j bytes } }

/-- An entry is freed: its segments are released and it leaves its port's admission list (R19, R26). -/
def State.freeEntry (s : State) (r : Ref) : State := (s.releaseSegments r).dropEntry r

/-! ### Notices -/

/-- Moves the oldest queued notice to the tail of the port's ready list when the port is UP and has no NOTICE there,
behind a NOTICES-LOST when the lost count is above 0 (R159). -/
def State.moveNotice (s : State) (p : Port) : State :=
  let n := s.notices.get p
  match (s.port p).state, n.onList, n.queue with
  | .up, 0, (number, x) :: rest =>
    let lost : List Item := if n.lost = 0 then [] else [.notice n.lastLost (.noticesLost n.lost)]
    let items := lost ++ [.notice number x]
    { (s.setPort p { s.port p with ready := (s.port p).ready ++ items }) with
      notices := s.notices.set p { n with queue := rest, lost := 0, onList := items.length } }
  | _, _, _ => s

/-- A counter that stays at 65535 once there (R113, R157, R174). -/
def countUp (n : Nat) : Nat := if n < 65535 then n + 1 else n

/-- Hands one notice to the Notice Unit for one port (R157), and examines delivery when it entered the queue (R159). -/
def State.post (s : State) (p : Port) (x : Notice) : State :=
  let n := s.notices.get p
  match (s.port p).state with
  | .down => s
  | .up =>
    if n.queue.length < 8 then
      { s with notices := s.notices.set p { n with queue := n.queue ++ [(n.next, x)], next := n.next + 1 } }.moveNotice p
    else
      { s with notices := s.notices.set p { n with next := n.next + 1, lost := countUp n.lost, lastLost := n.next } }

/-- A notice to both ports is one post to each (R158). -/
def State.postBoth (s : State) (x : Notice) : State := (s.post .a x).post .b x

/-! ### Ready lists and control reply slots -/

/-- An item joins the tail of a port's ready list (R176). -/
def State.pushReady (s : State) (p : Port) (i : Item) : State :=
  s.setPort p { s.port p with ready := (s.port p).ready ++ [i] }

/-- A control reply slot of the port becomes held (R174). -/
def State.holdSlot (s : State) (p : Port) : State := s.setPort p { s.port p with held := (s.port p).held + 1 }

/-- An answer made in a control reply slot (R174, R176). -/
def State.answer (s : State) (p : Port) (i : Item) : State := (s.holdSlot p).pushReady p i

/-- Whether a control reply slot is free (R174). -/
def State.slotFree (s : State) (p : Port) : Bool := decide ((s.port p).held < 8)

/-- A frame that needs a slot when none is free: the control-overrun count rises and CTRL-OVERRUN is posted (R174). -/
def State.overrun (s : State) (p : Port) : State :=
  let n := countUp (s.port p).overruns
  (s.setPort p { s.port p with overruns := n }).post p (.ctrlOverrun n)

/-- An answer that asks for a control reply slot, and is an overrun when none is free (R13, R174). -/
def State.slotAnswer (s : State) (p : Port) (i : Item) : State :=
  if s.slotFree p then s.answer p i else s.overrun p

/-- A CTRL-REPLY (R174, R202). -/
def State.reply (s : State) (p : Port) (token : Byte) (k : CtrlKind) (st : Status) (body : List Byte) : State :=
  s.answer p (.ctrl token k st body)

/-- The deferred answer of an operation that has ended, made in the slot it holds; a dropped reply makes none (R175). -/
def State.deferredReply (s : State) (d : Option Deferred) (k : CtrlKind) (st : Status) (body : List Byte) : State :=
  match d with
  | some x => s.pushReady x.port (.ctrl x.token k st body)
  | none => s

end Sys2Proof.Machine
end

