-- ==== Sys2Proof/Machine/Clock.lean ====
section
/-! DEFINITION. What one MCLK period does when no command waits: counts move, and nothing fires (log entry 1). The expiry of a timer is a command of the table. With the counts goes the level of TXD (R164). -/
namespace Sys2Proof.Machine

/-- MCLK periods in 1 µs: MCLK is 50 MHz with MCLKSEL low and 100 MHz with it high (R164). -/
def Straps.mclkPerMicrosecond (x : Straps) : Nat := if x.mclksel then 100 else 50

/-- The bit rate of both ports in bits per millisecond (R164). -/
def Straps.bitRate (x : Straps) : Nat :=
  match x.baud.toNat with
  | 0 => 500 | 1 => 2000 | 2 => 6000 | _ => 12000

/-- The bit times that have passed since a frame began, with no idle time between its characters (R164, R177). -/
def Sending.bitsSent (x : Straps) (t : Sending) : Nat := t.elapsed * x.bitRate / (x.mclkPerMicrosecond * 1000)

/-- The bytes of a frame that have been sent, in characters of 10 bits (R164, R177). -/
def Sending.bytesSent (x : Straps) (t : Sending) : Nat := min t.frame.length (t.bitsSent x / 10)

/-! ### The line (R164) -/

/-- The levels of a character on a line, in the order sent: the start bit low, 8 data bits, least significant first, and
the stop bit high (R164). -/
def characterBits (c : Byte) : List Bool := false :: (List.range 8).map c.getLsbD ++ [true]

/-- What a receiver takes from the 10 levels of a character: the data bits, least significant first, and the level found at
the stop bit (R164). They are the operands of CHARACTER_RECEIVED. -/
def characterOf (levels : List Bool) : Byte × Bool :=
  (BitVec.ofNat 8 (((List.range 8).map (fun i => if levels.getD (i + 1) false then 2 ^ i else 0)).sum), levels.getD 9 true)

/-- TXD while a frame is sent: the level of the bit in progress, and high after the last stop bit (R164). The frame's first
start bit begins with the MCLK in which the frame begins (log entry 33). -/
def Sending.level (x : Straps) (t : Sending) : Bool := ((t.frame.flatMap characterBits)[t.bitsSent x]?).getD true

/-- The level of a port's TXD: at rest, with the transmitter IDLE, it is high (R164, R177, R180, R182). -/
def State.txd (s : State) (p : Port) : Bool :=
  match (s.port p).tx with
  | some t => t.level s.straps
  | none => true

/-! ### Counts -/

/-- Counts up to a limit and stays there. -/
def countTo (limit n : Nat) : Nat := if n < limit then n + 1 else n

/-- One MCLK of the transmitter and of the receiver's gap count (R166, R177). -/
def PortUnit.tick (u : PortUnit) : PortUnit :=
  { u with gapTime := u.gapTime + 1, tx := u.tx.map (fun x => { x with elapsed := x.elapsed + 1 }) }

/-- One MCLK of the refresh timer, which stays at the interval until its expiry is taken (R112). -/
def Sdram.tick (d : Sdram) : Sdram :=
  { d with refreshTimer := d.refreshTimer.map (countTo d.settings.refreshInterval) }

/-- One tick of the 1 µs timebase for the SDRAM engine: the idle timers and the stabilisation wait (R96, R98). -/
def Sdram.microsecond (d : Sdram) : Sdram :=
  { d with
    powerDownTimer := d.powerDownTimer.map (· + 1), selfRefreshTimer := d.selfRefreshTimer.map (· + 1)
    initWait := if d.init = .waiting then countTo 200 d.initWait else d.initWait }

/-- One tick of the 1 µs timebase for a busy timer (R130). -/
def Context.microsecond (x : Context) : Context :=
  { x with timer := x.timer.map (fun t => { t with elapsed := countTo t.limit t.elapsed }) }

/-- One tick of the 1 µs timebase. -/
def State.microsecond (s : State) : State :=
  { s with
    sdram := s.sdram.microsecond
    nand := ⟨s.nand.s1.microsecond, s.nand.s2.microsecond, s.nand.s3.microsecond, s.nand.s4.microsecond⟩ }

/-- One MCLK period. -/
def State.tick (s : State) : State :=
  let s := { s with now := s.now + 1, ports := ⟨s.ports.a.tick, s.ports.b.tick⟩, sdram := s.sdram.tick }
  if s.now % s.straps.mclkPerMicrosecond = 0 then s.microsecond else s

end Sys2Proof.Machine
end

