-- ==== Sys2Proof/Machine/Formats.lean ====
section
/-! DEFINITION. Byte layouts and code values (chapter 12), the frame CRC-16 (R165) and the record CRC-32 (R189). -/
namespace Sys2Proof.Machine

/-! ### Bytes and numbers (R197) -/

def byte (n : Nat) : Byte := BitVec.ofNat 8 n

/-- The low `k` bytes of a number, least significant first. -/
def leBytes : Nat → Nat → List Byte
  | 0, _ => []
  | k + 1, n => byte n :: leBytes k (n / 256)

/-- The number held least significant byte first. -/
def leValue : List Byte → Nat
  | [] => 0
  | b :: bs => b.toNat + 256 * leValue bs

/-- The byte at an offset of a structure. -/
def at8 (d : List Byte) (i : Nat) : Byte := d.getD i 0

/-- The k-byte field at an offset of a structure. -/
def field (d : List Byte) (i k : Nat) : Nat := leValue ((d.drop i).take k)

/-! ### Codes (R198, R199, R202) -/

def ReqKind.code : ReqKind → Byte
  | .read => 0x10 | .write => 0x11 | .cset => 0x12 | .swap => 0x13 | .fadd => 0x14
  | .pgRead => 0x18 | .pgProg => 0x19 | .blkErase => 0x1A | .nandId => 0x1B

def CtrlKind.code : CtrlKind → Byte
  | .hello => 0x20 | .info => 0x21 | .status => 0x22
  | .winSet => 0x28 | .winGet => 0x29 | .slotSet => 0x2A | .slotGet => 0x2B | .slotClear => 0x2C
  | .sdrSet => 0x30 | .sdrGet => 0x31 | .sdrSleep => 0x32
  | .retireAdd => 0x34 | .retireDrop => 0x35 | .retireList => 0x36
  | .cancel => 0x38 | .portReset => 0x3C | .bridgeReset => 0x3D

/-- The KIND values that a frame from a host may carry (R167, R198). -/
def knownKinds : List Byte :=
  [0x10, 0x11, 0x12, 0x13, 0x14, 0x18, 0x19, 0x1A, 0x1B, 0x20, 0x21, 0x22, 0x28, 0x29, 0x2A, 0x2B, 0x2C,
   0x30, 0x31, 0x32, 0x34, 0x35, 0x36, 0x38, 0x3C, 0x3D]

def Status.code : Status → Byte
  | .ok => 0x00 | .cmpMiss => 0x01 | .correctedHigh => 0x02
  | .notUp => 0x10 | .starting => 0x11 | .noCredit => 0x12 | .tagInUse => 0x13 | .badArg => 0x14 | .badKind => 0x15
  | .noWindow => 0x16 | .bounds => 0x17 | .denied => 0x18 | .slotStall => 0x19 | .retired => 0x1A | .noBuffer => 0x1B
  | .cancelled => 0x20 | .flushed => 0x21 | .busTimeout => 0x22 | .nandTimeout => 0x23 | .nandFail => 0x24 | .eccFail => 0x25
  | .busy => 0x30 | .conflict => 0x31 | .notReady => 0x32 | .notFound => 0x33 | .tooLate => 0x34 | .full => 0x35
  | .stillBusy => 0x36

def chipCode : Chip → Byte
  | .s1 => 1 | .s2 => 2 | .s3 => 3 | .s4 => 4

def slotCode : Slot → Byte
  | .chip c => chipCode c
  | .sd => 5

def chipOfCode (b : Byte) : Option Chip :=
  match b.toNat with
  | 1 => some .s1 | 2 => some .s2 | 3 => some .s3 | 4 => some .s4 | _ => none

def slotOfCode (b : Byte) : Option Slot :=
  if b.toNat = 5 then some .sd else (chipOfCode b).map Slot.chip

def Rights.code : Rights → Byte
  | .none => 0 | .read => 1 | .readWrite => 2

def rightsOfCode (b : Byte) : Option Rights :=
  match b.toNat with
  | 0 => some .none | 1 => some .read | 2 => some .readWrite | _ => none

def SlotType.code : SlotType → Byte
  | .off => 0 | .sram => 1 | .nor => 2 | .nand => 3

def typeOfCode (b : Byte) : Option SlotType :=
  match b.toNat with
  | 0 => some .off | 1 => some .sram | 2 => some .nor | 3 => some .nand | _ => none

def Health.code : Health → Byte
  | .ok => 0 | .stalled => 1 | .clearing => 2

def SdState.code : SdState → Byte
  | .uninit => 0 | .initialising => 1 | .ready => 2 | .powerdown => 3 | .selfRefresh => 4

def EccMode.code : EccMode → Byte
  | .none => 0 | .h1 => 1 | .b8 => 2

def eccOfCode (b : Byte) : Option EccMode :=
  match b.toNat with
  | 0 => some .none | 1 => some .h1 | 2 => some .b8 | _ => none

def PagePolicy.code : PagePolicy → Byte
  | .opened => 0 | .closed => 1

def policyOfCode (b : Byte) : Option PagePolicy :=
  match b.toNat with
  | 0 => some .opened | 1 => some .closed | _ => none

def SectorResult.code : SectorResult → Byte
  | .clean => 0x00 | .corrected k => byte k | .erased => 0x10 | .failed => 0x20

def Cause.code : Cause → Byte
  | .power => 0 | .pin => 1 | .message .a => 2 | .message .b => 3

def PortStart.code : PortStart → Byte
  | .full => 0 | .message => 1 | .brk => 2

def Source.code : Source → Byte
  | .none => 0 | .primary => 1 | .fallback => 2 | .defaults => 3

def CopyReason.code : CopyReason → Byte
  | .notTried => 0 | .valid => 1 | .timeout => 2 | .ecc => 3 | .erased => 4 | .marker => 5 | .version => 6 | .length => 7
  | .crc => 8

def portCode : Port → Byte
  | .a => 1 | .b => 2

def DropReason.code : DropReason → Byte
  | .crc => 1 | .length => 2 | .timeout => 3 | .kind => 4

def StallCause.code : StallCause → Byte
  | .wait => 1 | .nandReset => 2

/-- The phase field of NAND-TIMEOUT: READ, PROGRAM or ERASE (R133, R203). -/
def NandOp.phaseCode : NandOp → Byte
  | .read => 1 | .program => 2 | .erase => 3 | .id => 0 | .reset => 0

/-! ### CRCs -/

/-- One bit of the CRC-16 register, polynomial x^16 + x^12 + x^5 + 1, most significant bit first (R165). -/
def crc16Bit (r : BitVec 16) : BitVec 16 := if r.msb then (r <<< 1) ^^^ 0x1021 else r <<< 1

def crc16Byte (r : BitVec 16) (b : Byte) : BitVec 16 :=
  Nat.iterate crc16Bit 8 (r ^^^ ((b.setWidth 16) <<< 8))

/-- The CRC of a frame over the bytes from LEN to the last payload byte: all ones at the start, no final inversion (R165). -/
def crc16 (d : List Byte) : BitVec 16 := d.foldl crc16Byte 0xFFFF

/-- One bit of the CRC-32 register, least significant bit first (R189). -/
def crc32Bit (r : BitVec 32) : BitVec 32 := if r.getLsbD 0 then (r >>> 1) ^^^ 0xEDB88320 else r >>> 1

def crc32Byte (r : BitVec 32) (b : Byte) : BitVec 32 := Nat.iterate crc32Bit 8 (r ^^^ b.setWidth 32)

/-- The CRC-32 of the setup record: all ones at the start, inverted at the end (R189). -/
def crc32 (d : List Byte) : BitVec 32 := ~~~ d.foldl crc32Byte 0xFFFFFFFF

/-! ### Frames (R198) -/

/-- The bytes from LEN to the last payload byte. -/
def frameBody (seq kind : Byte) (payload : List Byte) : List Byte := leBytes 2 payload.length ++ [seq, kind] ++ payload

/-- A whole frame: SYNC, LEN, SEQ, KIND, payload and CRC, LEN + 7 bytes in all (R198). -/
def frameBytes (seq kind : Byte) (payload : List Byte) : List Byte :=
  let body := frameBody seq kind payload
  0xC3 :: (body ++ leBytes 2 (crc16 body).toNat)

/-! ### Notices (R203) -/

def Notice.code : Notice → Byte
  | .seqGap _ _ => 0x01 | .frameDrop _ => 0x02 | .ctrlOverrun _ => 0x03 | .peerReset _ _ => 0x04 | .slotStall _ _ => 0x05
  | .refreshOverrun _ => 0x06 | .nandTimeout _ _ _ => 0x07 | .blockRetired _ _ => 0x08 | .retireFull _ _ => 0x09
  | .noticesLost _ => 0x0A

def Notice.fields : Notice → List Byte
  | .seqGap e r => [e, r]
  | .frameDrop r => [r.code]
  | .ctrlOverrun n => leBytes 2 n
  | .peerReset p c => [portCode p, c.code]
  | .slotStall c k => [chipCode c, k.code]
  | .refreshOverrun d => [byte d]
  | .nandTimeout c tag ph => [chipCode c, tag, ph.phaseCode]
  | .blockRetired c b => chipCode c :: leBytes 2 b
  | .retireFull c b => chipCode c :: leBytes 2 b
  | .noticesLost n => leBytes 2 n

def noticePayload (number : BitVec 16) (n : Notice) : List Byte := leBytes 2 number.toNat ++ n.code :: n.fields

/-! ### Blocks of 12.4 -/

/-- The 16-byte window block of a window record. -/
def Window.block (w : Window) : List Byte :=
  [if w.enabled then 1 else 0, (w.target.map slotCode).getD 0, w.rights.a.code, w.rights.b.code] ++
    leBytes 4 w.base ++ leBytes 4 w.size ++ leBytes 4 w.offset

/-- The 17-byte settings block. -/
def Settings.block (t : Settings) : List Byte :=
  [byte t.width, byte t.banks, byte t.rowBits, byte t.columnBits, byte t.cas, byte t.tRCD, byte t.tRP, byte t.tRAS,
    byte t.tWR, byte t.tRFC, t.policy.code] ++
    leBytes 2 t.refreshInterval ++ leBytes 2 t.powerDownIdle ++ leBytes 2 t.selfRefreshIdle

/-- The 32-byte profile block. -/
def Profile.block (f : Profile) : List Byte :=
  [f.type.code, byte f.width, byte f.recovery, f.rights.a.code, f.rights.b.code] ++ leBytes 4 f.capacity ++
    [byte f.setup, byte f.strobe, byte f.hold] ++ leBytes 2 f.waitLimit ++ [byte f.burstBeats, byte f.burstPitch] ++
    leBytes 2 f.pageSize ++ leBytes 2 f.pagesPerBlock ++ leBytes 2 f.blockCount ++ [f.ecc.code, byte f.threshold] ++
    leBytes 2 f.readLimit ++ leBytes 2 f.programLimit ++ leBytes 2 f.eraseLimit ++ leBytes 2 f.resetLimit

/-! ### Spare bytes (12.6, R146) -/

/-- The spare bytes that a mode leaves to the host, in ascending order. -/
def hostSpare : EccMode → List Nat
  | .none => List.range 16
  | .h1 => [0, 1, 5, 6, 7, 8, 9, 10, 11, 12, 13, 14, 15]
  | .b8 => [0, 1]

/-- The host spare bytes of a sector in a frame: those of the mode, or all 16 with RAW (R3, R4). -/
def frameSpare (ecc : EccMode) (raw : Bool) : List Nat := if raw then List.range 16 else hostSpare ecc

end Sys2Proof.Machine
end

