-- ==== Sys2Proof/Machine/Operands.lean ====
section
/-! DEFINITION. The operands of the commands: the fields of request payloads (R200), control payloads (R201) and setup-record blocks, with the checks of form that the messages' chapters put on them. -/
namespace Sys2Proof.Machine

def ReqKind.isNand : ReqKind → Bool
  | .pgRead | .pgProg | .blkErase | .nandId => true
  | _ => false

def ReqKind.isAtomic : ReqKind → Bool
  | .cset | .swap | .fadd => true
  | _ => false

/-- Kinds that change memory, for the overlap law (R59, R110) and the rights (R29). -/
def ReqKind.changes : ReqKind → Bool
  | .read | .pgRead | .nandId => false
  | _ => true

/-! ### Requests (R200) -/

/-- The fields of a request payload after tag and flags. Fields past the payload's end read 0; check 5 refuses such a
payload before any of them is used (R9). -/
structure Request where
  kind : ReqKind
  tag : Byte
  flags : Byte
  address : Nat
  length : Nat
  compare : Nat
  operand : Nat
  slotCode : Byte
  page : Nat
  block : Nat
  firstSector : Nat
  sectorCount : Nat
  data : List Byte
  size : Nat
  deriving DecidableEq, Repr

/-- The operand of an atomic is the value in the first `length` bytes of its 4-byte field (R200). -/
def operandField (d : List Byte) (i length : Nat) : Nat := field d i (min length 4)

def readRequest (k : ReqKind) (d : List Byte) : Request :=
  let length := field d 6 2
  { kind := k, tag := at8 d 0, flags := at8 d 1, address := field d 2 4, length := length
    compare := if k = .cset then operandField d 8 length else 0
    operand := if k = .cset then operandField d 12 length else operandField d 8 length
    slotCode := at8 d 2, page := (at8 d 3).toNat, block := field d 4 2
    firstSector := (at8 d 6).toNat, sectorCount := (at8 d 7).toNat
    data := d.drop 8, size := d.length }

def Request.ordered (q : Request) : Bool := q.flags.getLsbD 0

def Request.raw (q : Request) : Bool := q.flags.getLsbD 1

/-- The flags that R4 allows for the kind: ORDERED on any, RAW on PG-READ and PG-PROG only, no other bit. -/
def Request.flagsOk (q : Request) : Bool :=
  decide (q.flags.toNat < 4) && (!q.raw || q.kind == .pgRead || q.kind == .pgProg)

/-- The payload length that R200 gives for the kind and its fields; for PG-PROG check 5 asks only for the fixed fields,
and check 6 compares the rest with the slot's profile (R9, R11). -/
def Request.sizeOk (q : Request) : Bool :=
  match q.kind with
  | .read => q.size == 8
  | .write => decide (8 ≤ q.size) && q.size == 8 + q.length
  | .cset => q.size == 16
  | .swap | .fadd => q.size == 12
  | .pgRead | .blkErase | .nandId => q.size == 8
  | .pgProg => decide (8 ≤ q.size)

/-- Check 5 of admission (R9). -/
def Request.wellFormed (q : Request) : Bool :=
  q.sizeOk && q.flagsOk &&
    match q.kind with
    | .read | .write => decide (1 ≤ q.length) && decide (q.length ≤ 1024)
    | .cset | .swap | .fadd =>
      (q.length == 1 || q.length == 2 || q.length == 4) && q.address % q.length == 0
    | .pgRead =>
      (chipOfCode q.slotCode).isSome && decide (1 ≤ q.sectorCount) && decide (q.firstSector + q.sectorCount ≤ 8)
    | .pgProg | .blkErase | .nandId => (chipOfCode q.slotCode).isSome

/-! ### Control messages (R201) -/

/-- The fixed payload length of a control message. -/
def CtrlKind.size : CtrlKind → Nat
  | .hello | .info | .status | .sdrGet | .sdrSleep | .portReset | .bridgeReset => 1
  | .cancel | .winGet | .slotGet | .slotClear | .retireList => 2
  | .retireAdd | .retireDrop => 4
  | .winSet => 18
  | .sdrSet => 18
  | .slotSet => 34

/-- The control messages that need the CONFIG right (R173). -/
def CtrlKind.needsRight : CtrlKind → Bool
  | .winSet | .slotSet | .slotClear | .sdrSet | .sdrSleep | .retireAdd | .retireDrop | .bridgeReset => true
  | _ => false

/-! ### Windows (R32) -/

/-- A power of two from 2^lo to 2^hi. -/
def isPow2 (lo hi n : Nat) : Bool := (List.range (hi + 1)).any (fun k => decide (lo ≤ k) && n == 2 ^ k)

/-- The window record of a block with enabled 1 that passes the tests of form of R32, but for the index. -/
def windowOfBlock (d : List Byte) : Option Window :=
  match slotOfCode (at8 d 1), rightsOfCode (at8 d 2), rightsOfCode (at8 d 3) with
  | some target, some ra, some rb =>
    let base := field d 4 4
    let size := field d 8 4
    let offset := field d 12 4
    if isPow2 12 27 size && base % size == 0 && offset % 4096 == 0 then
      some { enabled := true, base := base, size := size, target := some target, offset := offset, rights := ⟨ra, rb⟩ }
    else none
  | _, _, _ => none

/-! ### Profiles (R70, R75, R117) -/

/-- Values from lo to hi. -/
def inRange (lo hi n : Nat) : Bool := decide (lo ≤ n) && decide (n ≤ hi)

/-- The common fields of a profile block in range for a type: type, width, recovery and rights (R70, R117). -/
def commonOk (t : SlotType) (width recovery : Nat) : Bool :=
  (width == 8 || width == 16 || (width == 32 && t != .nand)) && inRange 0 15 recovery

/-- The static fields in the ranges of R75. -/
def staticOk (t : SlotType) (f : Profile) : Bool :=
  isPow2 16 26 f.capacity && inRange 0 7 f.setup && inRange 1 63 f.strobe && inRange 0 7 f.hold &&
    (f.waitLimit == 0 || inRange 16 4095 f.waitLimit) &&
    (if t = .nor then
      (f.burstBeats == 1 || f.burstBeats == 4 || f.burstBeats == 8 || f.burstBeats == 16) && inRange 1 15 f.burstPitch
    else f.burstBeats == 0 && f.burstPitch == 0)

/-- The NAND fields in the ranges of R117. -/
def nandOk (f : Profile) : Bool :=
  (f.pageSize == 512 || f.pageSize == 2048 || f.pageSize == 4096) &&
    (f.pagesPerBlock == 32 || f.pagesPerBlock == 64 || f.pagesPerBlock == 128 || f.pagesPerBlock == 256) &&
    isPow2 8 14 f.blockCount && inRange 1 8 f.threshold && inRange 1 65535 f.readLimit && inRange 1 65535 f.programLimit &&
    inRange 1 65535 f.eraseLimit && inRange 1 65535 f.resetLimit

/-- The profile that an accepted SLOT-SET holds for a profile block, with the fields its type does not use held as 0
(R72), or none where check 4 of R71 refuses it. Unused fields are not examined (12.4). -/
def profileOfBlock (d : List Byte) : Option Profile :=
  match typeOfCode (at8 d 0), rightsOfCode (at8 d 3), rightsOfCode (at8 d 4) with
  | some t, some ra, some rb =>
    let common : Profile :=
      { Profile.off with type := t, width := (at8 d 1).toNat, recovery := (at8 d 2).toNat, rights := ⟨ra, rb⟩ }
    if commonOk t common.width common.recovery then
      match t with
      | .off => some common
      | .sram | .nor =>
        let f : Profile :=
          { common with
            capacity := field d 5 4, setup := (at8 d 9).toNat, strobe := (at8 d 10).toNat, hold := (at8 d 11).toNat
            waitLimit := field d 12 2, burstBeats := (at8 d 14).toNat, burstPitch := (at8 d 15).toNat }
        if staticOk t f then some f else none
      | .nand =>
        match eccOfCode (at8 d 22) with
        | some m =>
          let f : Profile :=
            { common with
              pageSize := field d 16 2, pagesPerBlock := field d 18 2, blockCount := field d 20 2, ecc := m
              threshold := (at8 d 23).toNat, readLimit := field d 24 2, programLimit := field d 26 2
              eraseLimit := field d 28 2, resetLimit := field d 30 2 }
          if nandOk f then some f else none
        | none => none
    else none
  | _, _, _ => none

/-- sectors per page (R117). -/
def Profile.sectors (f : Profile) : Nat := f.pageSize / 512

/-- column cycles (R117). -/
def Profile.columnCycles (f : Profile) : Nat := if f.pageSize = 512 then 1 else 2

/-- row cycles (R117). -/
def Profile.rowCycles (f : Profile) : Nat := if f.blockCount * f.pagesPerBlock ≤ 65536 then 2 else 3

/-! ### SDRAM settings (R91) -/

/-- Every field in the range of R91. -/
def Settings.inRanges (t : Settings) : Bool :=
  (t.width == 16 || t.width == 32) && (t.banks == 2 || t.banks == 4) && inRange 11 13 t.rowBits &&
    inRange 8 10 t.columnBits && inRange 2 3 t.cas && inRange 1 7 t.tRCD && inRange 1 7 t.tRP && inRange 1 15 t.tRAS &&
    inRange 1 7 t.tWR && inRange 1 31 t.tRFC && inRange 100 65535 t.refreshInterval &&
    inRange 0 65535 t.powerDownIdle && inRange 0 65535 t.selfRefreshIdle

/-- The settings record of a settings block, or none where check 3 of R95 refuses it. -/
def settingsOfBlock (d : List Byte) : Option Settings :=
  match policyOfCode (at8 d 10) with
  | some policy =>
    let t : Settings :=
      { width := (at8 d 0).toNat, banks := (at8 d 1).toNat, rowBits := (at8 d 2).toNat, columnBits := (at8 d 3).toNat
        cas := (at8 d 4).toNat, tRCD := (at8 d 5).toNat, tRP := (at8 d 6).toNat, tRAS := (at8 d 7).toNat
        tWR := (at8 d 8).toNat, tRFC := (at8 d 9).toNat, policy := policy, refreshInterval := field d 11 2
        powerDownIdle := field d 13 2, selfRefreshIdle := field d 15 2 }
    if t.inRanges then some t else none
  | none => none

/-- The SDRAM's capacity (R91). -/
def Settings.capacity (t : Settings) : Nat := t.banks * 2 ^ t.rowBits * 2 ^ t.columnBits * (t.width / 8)

end Sys2Proof.Machine
end

