-- ==== Sys2Proof/Machine/Flags.lean ====
section
/-! DEFINITION. The conditions that follow from the state: fences (R15), the chunk that comes next (R65), row hits and the bypass selection (R92, R110), when the SDRAM engine's work is due (R99, R101, R103), and which slots are candidates (R60, R61). -/
namespace Sys2Proof.Machine

/-! ### Entries and fences -/

/-- HELD, QUEUED or ACTIVE: the states that fence (R15). -/
def EntryState.unfinished : EntryState → Bool
  | .held | .queued | .active => true
  | .replying | .orphaned => false

/-- Whether an entry with or without ORDERED is fenced by the older entries of its port (R15). -/
def fencedBy (older : List Entry) (ordered : Bool) : Bool :=
  older.any (fun o => o.state.unfinished && (ordered || o.ordered))

/-- The oldest HELD entry that no fence holds any more, testing in admission order (R16). -/
def firstReleasable : List Entry → List Entry → Option Entry
  | _, [] => none
  | older, e :: rest =>
    if e.state = .held ∧ fencedBy older e.ordered = false then some e else firstReleasable (older ++ [e]) rest

/-- The name of an entry. -/
def Entry.ref (e : Entry) : Ref := ⟨e.port, e.tag⟩

/-- The bytes moved or sectors done so far: 0 until the first tenure. -/
def Entry.moved (e : Entry) : Nat := e.progress.getD 0

/-- The slot offset at which the next chunk begins (R65). -/
def Entry.current (e : Entry) : Nat := e.offset + e.moved

/-- The length of the next chunk: up to the next multiple of 64, or the bytes left if fewer (R65). The bank-and-row
limit of an SD chunk never makes it shorter, as R65 states. -/
def Entry.chunkLength (e : Entry) : Nat := min (64 - e.current % 64) (e.length - e.moved)

/-- Two ranges of slot offsets that share one (R59, R110). -/
def Entry.shares (x y : Entry) : Bool :=
  decide (x.offset < y.offset + y.length) && decide (y.offset < x.offset + x.length)

/-- Overlapping ranges, at least one of the two a WRITE or an atomic (R110). -/
def Entry.conflicts (x y : Entry) : Bool := x.shares y && (x.kind.changes || y.kind.changes)

/-! ### Rows and the bypass selection -/

/-- Bytes of one beat of SD. -/
def Settings.beatBytes (t : Settings) : Nat := t.width / 8

/-- The bank-and-row span (R92). -/
def Settings.span (t : Settings) : Nat := 2 ^ t.columnBits * t.beatBytes

/-- The bank of a slot offset (R92). -/
def Settings.bankOf (t : Settings) (o : Nat) : Nat := o / t.span % t.banks

/-- The row of a slot offset (R92). -/
def Settings.rowOf (t : Settings) (o : Nat) : Nat := o / t.span / t.banks

/-- The column of a slot offset (R92). -/
def Settings.columnOf (t : Settings) (o : Nat) : Nat := o % t.span / t.beatBytes

/-- Whether the row of a slot offset is open in its bank: a row hit (R107). -/
def Sdram.hit (d : Sdram) (o : Nat) : Bool :=
  match d.rows.getD (d.settings.bankOf o) none with
  | some r => r.row == d.settings.rowOf o
  | none => false

/-- The first entry after `older` that may pass all of them (R110): its first chunk is a hit, it conflicts with no older
entry, and every older entry stands below 4. -/
def bypassCandidate (d : Sdram) : List Entry → List Entry → Option Entry
  | _, [] => none
  | older, y :: rest =>
    if d.hit y.current && older.all (fun o => !o.conflicts y && decide (o.bypass.getD 0 < 4)) then some y
    else bypassCandidate d (older ++ [y]) rest

/-- The entry of the SD queue that is started (R110): the head, unless the policy is OPEN, the head's first chunk is no
hit and some younger entry qualifies. -/
def sdSelect (d : Sdram) : List Entry → Option Entry
  | [] => none
  | h :: rest =>
    if d.settings.policy = .opened ∧ d.hit h.current = false then
      match bypassCandidate d [h] rest with
      | some y => some y
      | none => some h
    else some h

/-! ### The SDRAM engine -/

/-- The level of MCKE in each state of the SDRAM (R94, R116). -/
def SdState.mcke : SdState → Bool
  | .initialising | .ready => true
  | .uninit | .powerdown | .selfRefresh => false

/-- An idle timer has reached its threshold; a threshold of 0 is never reached, nor by a stopped timer (R98). -/
def idleReached (idle : Nat) (timer : Option Nat) : Bool := idle != 0 && timer.any (fun n => decide (idle ≤ n))

/-- The power-down timer has reached a non-zero power-down idle (R98, R99). -/
def Sdram.powerDownTimerReached (d : Sdram) : Bool := idleReached d.settings.powerDownIdle d.powerDownTimer

/-- The self-refresh timer has reached a non-zero self-refresh idle (R98, R101). -/
def Sdram.selfRefreshTimerReached (d : Sdram) : Bool := idleReached d.settings.selfRefreshIdle d.selfRefreshTimer

/-- A self-refresh entry has fallen due and is due still (R101). It falls due by the row SELF_REFRESH_TIMER, which sets
`srReached`, or by an SDR-SLEEP; a count alone fires nothing (log entry 1). -/
def State.selfRefreshDue (s : State) : Bool :=
  (s.sdram.state == .ready || s.sdram.state == .powerdown) && (s.queue .sd).isEmpty &&
    ((s.sdram.srReached && s.sdram.settings.selfRefreshIdle != 0) || s.sdram.sleepPending)

/-- A self-refresh exit is due (R103). -/
def State.selfRefreshExitDue (s : State) : Bool := s.sdram.state == .selfRefresh && !(s.queue .sd).isEmpty

/-- An initialisation step is due (R96). -/
def Sdram.initDue (d : Sdram) : Bool := d.init == .precharge || d.init == .refresh || d.init == .mode

/-- An entry of the SD queue can be served (R60). -/
def State.sdEntryReady (s : State) : Bool := s.sdram.state == .ready && !(s.queue .sd).isEmpty

/-- SD is urgent (R60). -/
def Sdram.urgent (d : Sdram) : Bool := d.initDue || decide (6 ≤ d.debt)

/-- Every bank in the row table is closed. -/
def Sdram.allClosed (d : Sdram) : Bool := d.rows.all (fun r => r.isNone)

/-! ### Candidates and the winner -/

/-- The NOR setup load has chunks left to read (R186, R187). -/
def Startup.norLoad (u : Startup) : Bool :=
  match u.load with
  | some ⟨_, .norChunks, _⟩ => true
  | _ => false

/-- The NAND setup load has a read command due (R188). -/
def Startup.nandReadDue (u : Startup) : Bool :=
  match u.load with
  | some ⟨_, .reading, _⟩ => true
  | _ => false

/-- Whether the setup load is what drives this slot: S1 during LOAD (R186). -/
def Startup.loads (u : Startup) (c : Chip) : Bool := u.load.isSome && c == .s1

/-- Whether a NAND context needs the bus (R60, R122, R188). -/
def State.nandCandidate (s : State) (c : Chip) : Bool :=
  let x := s.context c
  match x.state with
  | .idle =>
    s.health.get c == .ok && (!(s.queue (.chip c)).isEmpty || (s.startup.loads c && s.startup.nandReadDue))
  | .loading | .unloading => decide (0 < x.left)
  | .busy => x.readySeen
  | .checking => true
  | .recovering | .clearing => !x.resetIssued

/-- Which slots have a tenure ready to run (R60). -/
def State.candidate (s : State) : Slot → Bool
  | .chip c =>
    match (s.profile c).type with
    | .off => false
    | .sram | .nor =>
      s.health.get c == .ok && (!(s.queue (.chip c)).isEmpty || (s.startup.loads c && s.startup.norLoad))
    | .nand => s.nandCandidate c
  | .sd =>
    s.sdram.initDue || (decide (1 ≤ s.sdram.debt) && s.sdram.state == .ready) || s.sdEntryReady ||
      (s.selfRefreshDue && s.sdram.state == .ready) || s.selfRefreshExitDue

/-- The ring SD, S1, S2, S3, S4 beginning with the slot after the one given (R61). -/
def ringAfter : Slot → List Slot
  | .sd => [.chip .s1, .chip .s2, .chip .s3, .chip .s4, .sd]
  | .chip .s1 => [.chip .s2, .chip .s3, .chip .s4, .sd, .chip .s1]
  | .chip .s2 => [.chip .s3, .chip .s4, .sd, .chip .s1, .chip .s2]
  | .chip .s3 => [.chip .s4, .sd, .chip .s1, .chip .s2, .chip .s3]
  | .chip .s4 => [.sd, .chip .s1, .chip .s2, .chip .s3, .chip .s4]

/-- The winner of a grant: SD when urgent, else the first candidate in the ring (R61). -/
def State.winner (s : State) : Option Slot :=
  if s.sdram.urgent && s.candidate .sd then some .sd
  else (ringAfter s.arbiter.lastGranted).find? (fun k => s.candidate k)

end Sys2Proof.Machine
end

