-- ==== Sys2Proof/Machine/Table.lean ====
section
/-! DEFINITION. What the Request Table does when an entry's state changes: completion (R18, R26, R52, R53), joining a queue (R58, R98, R100), fence evaluation (R16), head examination (R123) and the flush of a stalled slot (R20). -/
namespace Sys2Proof.Machine

/-! ### The SDRAM engine's part in a join -/

/-- POWERDOWN is left: MCKE rises and the power-down timer starts from 0 (R100). -/
def Sdram.wake (d : Sdram) (now : Nat) : Sdram :=
  if d.state = .powerdown then { d with state := .ready, powerDownTimer := some 0, mckeRoseAt := now } else d

/-- A running timer restarts from 0; a stopped one stays stopped. -/
def restart (t : Option Nat) : Option Nat := t.map (fun _ => 0)

/-- What the join of an entry to the SD queue does to the engine: POWERDOWN is left and both idle timers restart
(R98, R100). -/
def Sdram.joined (d : Sdram) (now : Nat) : Sdram :=
  let d := d.wake now
  { d with powerDownTimer := restart d.powerDownTimer, selfRefreshTimer := restart d.selfRefreshTimer, srReached := false }

/-! ### Completion -/

/-- Whether the entry's segments are released when it completes with this status: a WRITE or PG-PROG always (R52), any
kind on CANCELLED, FLUSHED or SLOTSTALL (R53). -/
def releasedAtEnd (k : ReqKind) (st : Status) : Bool :=
  k == .write || k == .pgProg || st == .cancelled || st == .flushed || st == .slotStall

/-- The end of an entry with a status: an ORPHANED entry is freed without a reply (R26); any other becomes REPLYING,
releases its segments where its kind or status calls for it, and its REPLY joins its port's ready list (R18). -/
def State.finish (s : State) (r : Ref) (st : Status) : State :=
  match s.find r with
  | none => s
  | some e =>
    if e.state = .orphaned then s.freeEntry r
    else
      let s := if releasedAtEnd e.kind st then s.releaseSegments r else s
      (s.updateEntry r (fun e => { e with state := .replying, status := some st })).pushReady r.port (.entryReply r.tag)

/-! ### Head examination -/

/-- The head of a NAND slot's queue that an examination completes with RETIRED: the context is IDLE, the health OK, and
the head is a PG-PROG or BLK-ERASE of a listed block (R123). -/
def State.retiredHead (s : State) (c : Chip) : Option Ref :=
  if (s.profile c).type = .nand ∧ (s.context c).state = .idle ∧ s.health.get c = .ok then
    match s.queue (.chip c) with
    | r :: _ =>
      match s.find r with
      | some e =>
        if (e.kind = .pgProg ∨ e.kind = .blkErase) ∧ e.block ∈ s.retired.get c then some r else none
      | none => none
    | [] => none
  else none

/-- The retired head leaves the queue and completes with RETIRED (R18, R123). -/
def State.retireHead (s : State) (c : Chip) (r : Ref) : State := (s.dequeue (.chip c) r).finish r .retired

/-! ### Joining a queue -/

/-- An entry joins the tail of its slot's queue and becomes QUEUED (R5, R16, R58). On SD it receives a bypass count of 0
and the engine takes the join. An entry that becomes the head of a NAND queue is examined at once (R123). -/
def State.join (s : State) (r : Ref) (k : Slot) : State :=
  let wasEmpty := (s.queue k).isEmpty
  let s := s.setQueue k (s.queue k ++ [r])
  match k with
  | .sd =>
    let s := s.updateEntry r (fun e => { e with state := .queued, bypass := some 0 })
    s.setSdram (s.sdram.joined s.now)
  | .chip c =>
    let s := s.updateEntry r (fun e => { e with state := .queued })
    match wasEmpty, s.retiredHead c with
    | true, some h => s.retireHead c h
    | _, _ => s

/-! ### Fences -/

/-- A released entry joins its slot's queue if the slot's health is OK, and otherwise completes with SLOTSTALL (R16). -/
def State.releaseHeld (s : State) (p : Port) (e : Entry) : State :=
  if s.healthy e.slot then s.join ⟨p, e.tag⟩ e.slot else s.finish ⟨p, e.tag⟩ .slotStall

/-- The fences of a port are evaluated until nothing more is released (R16); the fuel is one more than the port's
entries, each of which is released at most once. -/
def State.evalFencesFuel : Nat → State → Port → State
  | 0, s, _ => s
  | n + 1, s, p =>
    match firstReleasable [] (s.entries p) with
    | some e => State.evalFencesFuel n (s.releaseHeld p e) p
    | none => s

def State.evalFences (s : State) (p : Port) : State := State.evalFencesFuel ((s.entries p).length + 1) s p

/-- Completion of an entry's bus work or of its wait, with the fence evaluation that follows it (R16, R18). The freeing
of an orphan evaluates no fence (R26). -/
def State.complete (s : State) (r : Ref) (st : Status) : State :=
  match s.find r with
  | none => s
  | some e => if e.state = .orphaned then s.finish r st else (s.finish r st).evalFences r.port

/-- Examines the head of a NAND slot's queue until it is one that stays (R123); each retired head completes with
RETIRED, and the fences of its port are evaluated. The fuel covers every live entry. -/
def State.examineFuel : Nat → State → Chip → State
  | 0, s, _ => s
  | n + 1, s, c =>
    match s.retiredHead c with
    | some r => State.examineFuel n ((s.retireHead c r).evalFences r.port) c
    | none => s

def State.examine (s : State) (c : Chip) : State :=
  State.examineFuel ((s.entries .a).length + (s.entries .b).length + 1) s c

/-- The examination of the NAND queue heads that a port reset has brought forward (R123). The manual gives no order among the
slots; S1 to S4 in turn is the model's choice (log entry 27). A head that stays is left as it is. -/
def State.examineHeads (s : State) : State := (((s.examine .s1).examine .s2).examine .s3).examine .s4

/-! ### Flush -/

/-- Whether the named entry is QUEUED. -/
def State.isQueued (s : State) (r : Ref) : Bool :=
  match s.find r with
  | some e => e.state == .queued
  | none => false

/-- The QUEUED entries complete with FLUSHED in queue order (R20 step 1). -/
def State.flushList (s : State) (k : Slot) : List Ref → State
  | [] => s
  | r :: rest => (if s.isQueued r then (s.dequeue k r).finish r .flushed else s).flushList k rest

/-- The flush of a stalled slot, then the fences of each port that lost an entry (R20). -/
def State.flush (s : State) (k : Slot) : State :=
  let lost := (s.queue k).filter (fun r => s.isQueued r)
  let s := s.flushList k (s.queue k)
  let s := if lost.any (fun r => r.port == .a) then s.evalFences .a else s
  if lost.any (fun r => r.port == .b) then s.evalFences .b else s

end Sys2Proof.Machine
end

