-- ==== Sys2Proof/Machine/Windows.lean ====
section
/-! DEFINITION. The window table: decoding (R39–R41), the judging of a window block (R31–R36), and the slot and SDRAM settings that windows and live entries stand in the way of (R71, R72, R95, R139). -/
namespace Sys2Proof.Machine

/-! ### Decoding -/

/-- The window's range contains an address (R29). -/
def Window.covers (w : Window) (a : Nat) : Bool := w.enabled && decide (w.base ≤ a) && decide (a < w.base + w.size)

/-- What a window's rights for a port allow (R29). -/
def Rights.allows (r : Rights) (k : ReqKind) : Bool :=
  match r with
  | .none => false
  | .read => !k.changes
  | .readWrite => true

/-- Check 6 for a window kind: the window search, the bounds test and the rights (R10, R39–R41). The last address is
computed without wrapping. -/
def State.decodeWindow (s : State) (p : Port) (q : Request) : Except Status (Slot × Nat) :=
  match s.windows.find? (fun w => w.covers q.address) with
  | none => .error .noWindow
  | some w =>
    if w.base + w.size < q.address + q.length then .error .bounds
    else if (w.rights.get p).allows q.kind then
      match w.target with
      | some k => .ok (k, w.offset + (q.address - w.base))
      | none => .error .noWindow
    else .error .denied

/-! ### WIN-SET -/

/-- Two windows whose ranges share an address (R34). -/
def Window.overlaps (x y : Window) : Bool :=
  x.enabled && y.enabled && decide (x.base < y.base + y.size) && decide (y.base < x.base + x.size)

/-- The capacity of a slot: its profile's for a static slot, the settings' for SD (R34). -/
def State.slotCapacity (s : State) : Slot → Nat
  | .chip c => (s.profile c).capacity
  | .sd => s.sdram.settings.capacity

/-- The target test of R33. -/
def State.targetStatus (s : State) : Slot → Option Status
  | .chip c => if (s.profile c).type = .sram ∨ (s.profile c).type = .nor then none else some .badArg
  | .sd =>
    match s.sdram.state with
    | .ready | .powerdown | .selfRefresh => none
    | .uninit | .initialising => some .notReady

/-- Whether an enabled window overlaps any other entry of the table than its own (R34). -/
def State.windowConflict (s : State) (index : Nat) (w : Window) : Bool :=
  s.windows.zipIdx.any (fun x => x.2 != index && x.1.overlaps w)

/-- The judging of a window block for an index (R31–R36): the record to hold, or the status of the first check failed. -/
def State.judgeWindow (s : State) (index : Nat) (d : List Byte) : Except Status Window :=
  if 8 ≤ index then .error .badArg
  else if at8 d 0 = 0 then .ok Window.off
  else if at8 d 0 ≠ 1 then .error .badArg
  else
    match windowOfBlock d with
    | none => .error .badArg
    | some w =>
      match w.target with
      | none => .error .badArg
      | some k =>
        match s.targetStatus k with
        | some st => .error st
        | none =>
          if s.slotCapacity k < w.offset + w.size then .error .badArg
          else if s.windowConflict index w then .error .conflict
          else .ok w

/-- The whole entry is replaced (R35, R36). -/
def State.setWindow (s : State) (index : Nat) (w : Window) : State := { s with windows := s.windows.set index w }

/-! ### SLOT-SET -/

/-- Some enabled window targets the slot (R71, R95). -/
def State.windowOn (s : State) (k : Slot) : Bool := s.windows.any (fun w => w.enabled && w.target == some k)

/-- Some live entry of either port targets the slot outside REPLYING (R71, R95). -/
def State.entryOn (s : State) (k : Slot) : Bool :=
  (s.entries .a ++ s.entries .b).any (fun e => e.slot == k && e.state != .replying)

/-- Check 3 of R71. -/
def State.slotBusy (s : State) (c : Chip) : Bool :=
  s.entryOn (.chip c) ||
    ((s.profile c).type == .nand && ((s.context c).state != .idle || s.health.get c == .clearing))

/-- The checks of SLOT-SET in order (R71). -/
def State.judgeSlot (s : State) (code : Byte) (d : List Byte) : Except Status (Chip × Profile) :=
  match chipOfCode code with
  | none => .error .badArg
  | some c =>
    if s.windowOn (.chip c) then .error .conflict
    else if s.slotBusy c then .error .busy
    else
      match profileOfBlock d with
      | none => .error .badArg
      | some f => .ok (c, f)

/-- Whether a profile change keeps the retired-block list: both types NAND with the same page size, pages per block and
block count (R139). -/
def Profile.keepsList (x y : Profile) : Bool :=
  x.type == .nand && y.type == .nand && x.pageSize == y.pageSize && x.pagesPerBlock == y.pagesPerBlock &&
    x.blockCount == y.blockCount

/-- An accepted SLOT-SET: the whole profile is replaced, the health stays, the context is IDLE with its timer stopped (its
other fields: log entry 35), and the retired-block list is kept or emptied (R72, R139). -/
def State.applySlot (s : State) (c : Chip) (f : Profile) : State :=
  let l := if (s.profile c).keepsList f then s.retired.get c else []
  ((s.setProfile c f).setContext c Context.idle).setRetired c l

/-! ### SDR-SET -/

/-- The checks of SDR-SET in order (R95). -/
def State.judgeSdr (s : State) (d : List Byte) : Except Status Settings :=
  if s.windowOn .sd then .error .conflict
  else if s.sdram.state = .initialising ∨ s.entryOn .sd = true ∨ s.sdram.sleepPending = true then .error .busy
  else
    match settingsOfBlock d with
    | none => .error .badArg
    | some t => .ok t

/-- An accepted SDR-SET (R95). The reply is none for an SDRAM entry of the setup record (R192). MCKE rises now, but in READY,
where it is high already (R94), the moment it last rose stands. That the SDRAM's state alone says whether MCKE is high, also
during a self-refresh entry or exit on the bus, is the model's choice (log entry 23). -/
def State.applySdr (s : State) (t : Settings) (reply : Option Deferred) : State :=
  s.setSdram { s.sdram with
    settings := t, state := .initialising, init := .waiting, initWait := 0, rows := List.replicate t.banks none, debt := 0
    refreshTimer := none, powerDownTimer := none, selfRefreshTimer := none, srReached := false, setReply := reply
    mckeRoseAt := if s.sdram.state.mcke then s.sdram.mckeRoseAt else s.now }

/-! ### Retired blocks -/

/-- The judging of one block for a slot's list (R140): the status, OK also when the block is already there. -/
def State.judgeRetire (s : State) (code : Byte) (block : Nat) : Except Status Chip :=
  match chipOfCode code with
  | none => .error .badArg
  | some c =>
    if (s.profile c).type ≠ .nand ∨ (s.profile c).blockCount ≤ block then .error .badArg
    else if block ∈ s.retired.get c then .ok c
    else if 32 ≤ (s.retired.get c).length then .error .full
    else .ok c

/-- The block is inserted at its place in ascending order; a block already there is not doubled (R139, R140). -/
def State.addRetired (s : State) (c : Chip) (block : Nat) : State := s.setRetired c (insertAsc block (s.retired.get c))

end Sys2Proof.Machine
end

