-- ==== Sys2Proof/Machine/Admission.lean ====
section
/-! DEFINITION. Admission of a request (R5–R13, R44, R45, R48, R50). -/
namespace Sys2Proof.Machine

/-- Rights of a NAND profile for a kind: READ or READ-WRITE for PG-READ and NAND-ID, READ-WRITE for the others (R11). -/
def Profile.allows (f : Profile) (p : Port) (k : ReqKind) : Bool := (f.rights.get p).allows k

/-- Whether a kind's block and page lie in the device, and a PG-READ's sectors in the page (R11). Fields that a kind does
not use are not examined. -/
def Profile.inDevice (f : Profile) (q : Request) : Bool :=
  match q.kind with
  | .pgRead =>
    decide (q.block < f.blockCount) && decide (q.page < f.pagesPerBlock) &&
      decide (q.firstSector + q.sectorCount ≤ f.sectors)
  | .pgProg => decide (q.block < f.blockCount) && decide (q.page < f.pagesPerBlock)
  | .blkErase => decide (q.block < f.blockCount)
  | _ => true

/-- Bytes of one sector in a PG-PROG frame: 512 and the host spare bytes of the mode, or 528 with RAW (R11, R200). -/
def sectorFrameBytes (m : EccMode) (raw : Bool) : Nat := 512 + (frameSpare m raw).length

/-- The payload length test of a PG-PROG against the slot's profile (R11). -/
def Profile.programSizeOk (f : Profile) (q : Request) : Bool :=
  q.kind != .pgProg || q.size == 8 + f.sectors * sectorFrameBytes f.ecc q.raw

/-- Check 6 for a NAND kind, its tests in turn (R11). -/
def State.nandTarget (s : State) (p : Port) (q : Request) : Except Status (Slot × Nat) :=
  match chipOfCode q.slotCode with
  | none => .error .badArg
  | some c =>
    let f := s.profile c
    if f.type ≠ .nand then .error .badKind
    else if f.allows p q.kind = false then .error .denied
    else if f.inDevice q = false then .error .badArg
    else if f.programSizeOk q = false then .error .badArg
    else if (q.kind = .pgProg ∨ q.kind = .blkErase) ∧ q.block ∈ s.retired.get c then .error .retired
    else .ok (.chip c, 0)

/-- Check 6 (R10, R11). -/
def State.target (s : State) (p : Port) (q : Request) : Except Status (Slot × Nat) :=
  if q.kind.isNand then s.nandTarget p q else s.decodeWindow p q

/-- Whether the slot is typed NOR, for check 7 (R12). -/
def State.isNor (s : State) : Slot → Bool
  | .chip c => (s.profile c).type == .nor
  | .sd => false

/-- The profile fields a NAND request takes from its slot; SD has no such profile. -/
def State.profileOf (s : State) : Slot → Profile
  | .chip c => s.profile c
  | .sd => Profile.off

def ceilDiv (n k : Nat) : Nat := (n + k - 1) / k

/-- The segment need of a request (R44). -/
def segmentNeed (q : Request) (sectors : Nat) : Nat :=
  match q.kind with
  | .read | .write => ceilDiv q.length 256
  | .cset | .swap | .fadd | .nandId => 1
  | .blkErase => 0
  | .pgRead => ceilDiv (q.sectorCount * 528) 256
  | .pgProg => ceilDiv (sectors * 528) 256

/-- The entry of an admitted request before its first state is decided (R5 and section 1.2). -/
def newEntry (p : Port) (q : Request) (k : Slot) (offset sectors : Nat) (ecc : EccMode) (segments : List Nat) : Entry :=
  { tag := q.tag, port := p, kind := q.kind, ordered := q.ordered, raw := q.raw, slot := k
    offset := if q.kind.isNand then 0 else offset
    length := if q.kind.isNand then 0 else q.length
    page := if q.kind = .pgRead ∨ q.kind = .pgProg then q.page else 0
    block := if q.kind.isNand ∧ q.kind ≠ .nandId then q.block else 0
    firstSector := if q.kind = .pgRead then q.firstSector else 0
    sectorCount := if q.kind = .pgRead then q.sectorCount else if q.kind = .pgProg then sectors else 0
    ecc := if q.kind = .pgRead ∨ q.kind = .pgProg then ecc else .none
    compare := if q.kind = .cset then q.compare else 0
    operand := if q.kind.isAtomic then q.operand else 0
    segments := segments, progress := none, bypass := none, state := .held, status := none, sectors := [] }

/-- The admission checks 3 to 9 in order (R8): the new entry, or the refusal of the first check that fails. -/
def State.judge (s : State) (p : Port) (q : Request) : Except Status Entry :=
  if 16 ≤ (s.entries p).length then .error .noCredit
  else if (s.entries p).any (fun e => e.tag == q.tag) then .error .tagInUse
  else if q.wellFormed = false then .error .badArg
  else
    match s.target p q with
    | .error st => .error st
    | .ok (k, offset) =>
      let f := s.profileOf k
      let n := segmentNeed q f.sectors
      if q.kind.isAtomic && s.isNor k then .error .badKind
      else if s.healthy k = false then .error .slotStall
      else if s.pool.canClaim p n = false then .error .noBuffer
      else .ok (newEntry p q k offset f.sectors f.ecc (s.pool.free.take n))

/-- The host spare bytes of one sector of a PG-PROG frame go to the positions the mode leaves to the host (R50). -/
def stageSpare (m : List Host.Cell) (segments : List Nat) (base : Nat) : List Nat → List Byte → List Host.Cell
  | i :: is, b :: bs => stageSpare (stagingWrite m segments (base + i) [b]) segments base is bs
  | _, _ => m

/-- Sector `k` of a PG-PROG frame: 512 data bytes and its spare bytes (R50). -/
def stageSector (m : List Host.Cell) (segments : List Nat) (spare : List Nat) (k : Nat) (d : List Byte) : List Host.Cell :=
  stageSpare (stagingWrite m segments (k * 528) (d.take 512)) segments (k * 528 + 512) spare (d.drop 512)

/-- The sectors of a PG-PROG frame in order, from sector `k` on. -/
def stageSectors (m : List Host.Cell) (segments : List Nat) (spare : List Nat) : Nat → Nat → List Byte → List Host.Cell
  | _, 0, _ => m
  | k, n + 1, d =>
    let w := 512 + spare.length
    stageSectors (stageSector m segments spare k (d.take w)) segments spare (k + 1) n (d.drop w)

/-- The data bytes of a WRITE or PG-PROG are placed in the entry's segments at admission (R5, R48, R50). -/
def placeData (m : List Host.Cell) (e : Entry) (data : List Byte) : List Host.Cell :=
  match e.kind with
  | .write => stagingWrite m e.segments 0 data
  | .pgProg => stageSectors m e.segments (frameSpare e.ecc e.raw) 0 e.sectorCount data
  | _ => m

/-- The entry is created at the tail of its port's admission list with its segments claimed and its data placed; a fence
makes it HELD, otherwise it joins its slot's queue (R5). -/
def State.create (s : State) (e : Entry) (data : List Byte) : State :=
  let fenced := fencedBy (s.entries e.port) e.ordered
  let pool := (s.pool.claim e.port e.segments.length).2
  let s := { s with pool := { pool with bytes := placeData pool.bytes e data } }
  let s := s.setEntries e.port (s.entries e.port ++ [e])
  if fenced then s else s.join e.ref e.slot

/-- Admission: the request becomes an entry, or is refused through a control reply slot (R8, R13). -/
def State.admitRequest (s : State) (p : Port) (q : Request) : State :=
  match s.judge p q with
  | .ok e => s.create e q.data
  | .error st => s.slotAnswer p (.refusal q.tag st)

end Sys2Proof.Machine
end

