-- ==== Sys2Proof/Machine/Code.lean ====
section
/-! DEFINITION. The codes of R147 by their properties: the bits of a word, the number of bits in which two words differ, and what is known of a code that corrects and detects. -/
namespace Sys2Proof

/-- The bits of some bytes, bit 0 of the first byte first. -/
def bitsOf : List Byte → List Bool
  | [] => []
  | b :: bs => (List.range 8).map (fun i => b.getLsbD i) ++ bitsOf bs

/-- How many bits of two words of the same length differ. -/
def bitDistance (x y : List Byte) : Nat := ((bitsOf x).zip (bitsOf y)).countP (fun p => p.1 != p.2)

/-- What R147 gives of a code: a protected message of `m` bytes has `c` check bytes that are a function of it alone, the
erased image is a codeword, and any two codewords are apart by `d` bits or more. Correction of `t` bits and Detection of
`n` bits ask for `d = t + n + 1`: a read at most `t` bits from a codeword is nearer to it than to any other, and one
`t + 1` to `n` bits from a codeword is not within `t` bits of any. -/
structure CheckCode (m c d : Nat) where
  check : List Byte → List Byte
  size : ∀ msg, (check msg).length = c
  erased : check (List.replicate m 0xFF) = List.replicate c 0xFF
  apart : ∀ x y : List Byte, x.length = m → y.length = m → x ≠ y → d ≤ bitDistance (x ++ check x) (y ++ check y)

/-- The H1 code (R146, R147): 524 message bytes, 3 check bytes, t = 1 and d = 2. -/
abbrev H1Code : Type := CheckCode 524 3 4

/-- The B8 code (R146, R147): 513 message bytes, 14 check bytes, and the 18 bits that Correction of t = 8 and Detection of 9
ask for; no code of this size has the 25 that Detection of d = 16 would ask for (log entry 7). -/
abbrev B8Code : Type := CheckCode 513 14 18

end Sys2Proof
end

