-- ==== Sys2Proof/Config.lean ====
section
/-! DEFINITION. What the manual leaves open: the codes of the ECC unit but for their properties, the outcome beyond its detection range, what the part samples on lines for which a command gives no level, and where a full reset finds a tenure and the receive lines. None of these has a body. -/
namespace Sys2Proof

/-- The H1 code of the part (R147). The manual gives its properties, which are those of `H1Code`, and not the function:
this is some code that has them. The premise asks for one, to show that there are any; it says nothing of which. -/
opaque Config.h1 [Inhabited H1Code] : H1Code

/-- The B8 code of the part (R147), known in the same way. -/
opaque Config.b8 [Inhabited B8Code] : B8Code

/-- The free choice of R152 for the n-th sector found beyond the detection range: `none` is FAILED, `some (k, m)`
is CORRECTED with the codeword of message `m`. -/
opaque Config.beyondRange : Nat → Option (Nat × List Byte)

/-- The MD word sampled at the i-th beat of a tenure for which the command gives no sample. -/
opaque Config.openBus : Nat → BitVec 32

/-- How far the tenure that the n-th free choice concerns had got when a full reset cut it off (R57): `none` when its work
had not begun, `some k` with `k` cycles completed and the next in progress. -/
opaque Config.cutAfter : Nat → Option Nat

/-- Whether RXD of each port is low, inside a character, when the n-th free choice finds a MESSAGE reset (R179). -/
opaque Config.insideCharacter : Nat → Port → Bool

/-- The byte of the i-th NAND data-out cycle for which the command gives no byte. -/
opaque Config.openData : Nat → Byte

end Sys2Proof
end

