-- ==== Sys2Proof/Machine/Witness.lean ====
section
/-! DEFINITION. That codes with the properties of R147 exist, so that the part's own codes, of which nothing else is known, are codes at all. The proof takes the words whose power sums over the field of 8192 elements vanish. -/
namespace Sys2Proof
open Finset

/-! ### Bits of bytes -/

theorem bitsOf_length (x : List Byte) : (bitsOf x).length = 8 * x.length := by
  induction x with
  | nil => rfl
  | cons b bs ih => simp [bitsOf, ih]; omega

theorem bitsOf_append (x y : List Byte) : bitsOf (x ++ y) = bitsOf x ++ bitsOf y := by
  induction x with
  | nil => rfl
  | cons b bs ih => simp [bitsOf, ih]

theorem bitsOf_injective : ∀ x y : List Byte, x.length = y.length → bitsOf x = bitsOf y → x = y
  | [], [], _, _ => rfl
  | a :: x, b :: y, hl, h => by
    have h' := List.append_inj h (by simp)
    have hb : a = b := by
      apply BitVec.eq_of_getLsbD_eq
      intro i hi
      have := congrArg (fun l => l[i]?) h'.1
      simpa [hi] using this
    rw [hb, bitsOf_injective x y (by simpa using hl) h'.2]

theorem bitsOf_surjective : ∀ (n : Nat) (bits : List Bool), bits.length = 8 * n → ∃ l, l.length = n ∧ bitsOf l = bits
  | 0, bits, h => ⟨[], rfl, by rw [List.length_eq_zero_iff.1 (by omega : bits.length = 0)]; rfl⟩
  | n + 1, bits, h => by
    obtain ⟨l, hl, hb⟩ := bitsOf_surjective n (bits.drop 8) (by simp; omega)
    obtain ⟨b, hb'⟩ : ∃ b : Byte, ∀ i < 8, b.getLsbD i = bits.getD i false :=
      ⟨BitVec.ofFnLE fun i : Fin 8 => bits.getD i false, fun i hi => by simp [hi]⟩
    refine ⟨b :: l, by simp [hl], ?_⟩
    rw [bitsOf, hb]
    conv_rhs => rw [← List.take_append_drop 8 bits]
    congr 1
    apply List.ext_getElem (by simp; omega)
    intro i h1 h2
    simp at h1 h2
    have : i < bits.length := by omega
    simp [hb' i h1, this]

theorem bitsOf_ones (n : Nat) : bitsOf (List.replicate n (0xFF : Byte)) = List.replicate (8 * n) true := by
  induction n with
  | zero => rfl
  | succ n ih => rw [List.replicate_succ, bitsOf, ih, show 8 * (n + 1) = 8 + 8 * n by omega, List.replicate_add]; rfl

/-! ### A code from its words -/

/-- A code by the words of a subspace that agree with any message on some places. -/
theorem CheckCode.of_words (m c d : Nat) (W : Submodule (ZMod 2) (Fin (8 * (m + c)) → ZMod 2)) (J : Finset (Fin (8 * (m + c))))
    (hJ : J.card = 8 * m) (hs : ∀ f : Fin (8 * (m + c)) → ZMod 2, ∃ w ∈ W, ∀ i ∈ J, w i = f i)
    (hd : ∀ w ∈ W, w ≠ 0 → d ≤ hammingNorm w) : Nonempty (CheckCode m c d) := by
  classical
  have hcard : Fintype.card {i : Fin (8 * (m + c)) // i.val < 8 * m} = Fintype.card {i // i ∈ J} := by
    rw [Fintype.card_coe, hJ]
    refine (Fintype.card_congr ?_).trans (Fintype.card_fin (8 * m))
    exact
      ⟨fun i => ⟨i.1.1, i.2⟩, fun i => ⟨⟨i.1, by omega⟩, i.2⟩, fun _ => rfl, fun _ => rfl⟩
  let σ := (Fintype.equivOfCardEq hcard).extendSubtype
  have hσ : ∀ i : Fin (8 * (m + c)), i.val < 8 * m → σ i ∈ J := fun i hi => Equiv.extendSubtype_mem _ i hi
  have hw : ∀ x : List Byte, ∃ w ∈ W, (x = List.replicate m 0xFF → w = 0) ∧ (x.length = m →
      ∀ i : Fin (8 * (m + c)), i.val < 8 * m → decide (w (σ i) = 0) = (bitsOf x).getD i false) := by
    intro x
    by_cases hx : x = List.replicate m 0xFF
    · refine ⟨0, W.zero_mem, fun _ => rfl, fun _ i hi => ?_⟩
      rw [hx, bitsOf_ones]; simp [hi]
    · obtain ⟨w, hw, h⟩ := hs (fun j => if (bitsOf x).getD (σ.symm j) false then 0 else 1)
      refine ⟨w, hw, fun h => absurd h hx, fun _ i hi => ?_⟩
      rw [h _ (hσ i hi), Equiv.symm_apply_apply]
      cases (bitsOf x).getD i false <;> simp
  choose w hwW hw1 hwx using hw
  have hc : ∀ x, ∃ l : List Byte, l.length = c ∧
      bitsOf l = ((List.finRange (8 * (m + c))).map fun i => decide (w x (σ i) = 0)).drop (8 * m) := fun x =>
    bitsOf_surjective c _ (by simp; omega)
  choose check hlen hbits using hc
  have word : ∀ x, x.length = m → bitsOf (x ++ check x) = (List.finRange (8 * (m + c))).map fun i => decide (w x (σ i) = 0) := by
    intro x hx
    rw [bitsOf_append, hbits]
    conv_rhs => rw [← List.take_append_drop (8 * m) ((List.finRange (8 * (m + c))).map fun i => decide (w x (σ i) = 0))]
    congr 1
    apply List.ext_getElem (by simp [bitsOf_length, hx])
    intro i h1 h2
    have hi : i < 8 * m := by simpa [bitsOf_length, hx] using h1
    simp only [List.getElem_take, List.getElem_map, List.getElem_finRange]
    rw [hwx x hx _ (by simpa using hi)]
    simp [h1]
  refine ⟨⟨check, hlen, ?_, fun x y hx hy hne => ?_⟩⟩
  · apply bitsOf_injective _ _ (by simp [hlen])
    rw [hbits, hw1 _ rfl, bitsOf_ones]
    apply List.ext_getElem (by simp; omega)
    intro i h1 h2
    simp
  · have hwne : w x - w y ≠ 0 := by
      intro h0
      apply hne
      apply bitsOf_injective x y (by rw [hx, hy])
      apply List.ext_getElem (by simp [bitsOf_length, hx, hy])
      intro i h1 h2
      have hi : i < 8 * m := by simpa [bitsOf_length, hx] using h1
      have e1 := hwx x hx ⟨i, by omega⟩ hi
      have e2 := hwx y hy ⟨i, by omega⟩ hi
      rw [sub_eq_zero.1 h0, e2] at e1
      simpa [h1, h2] using e1.symm
    refine (hd _ (W.sub_mem (hwW x) (hwW y)) hwne).trans (le_of_eq ?_)
    rw [bitDistance, word x hx, word y hy, List.zip_map', List.countP_map]
    have two : ∀ p q : ZMod 2, (decide (p = 0) != decide (q = 0)) = true ↔ p - q ≠ 0 := by decide
    have h1 : hammingNorm (w x - w y) = (univ.filter fun i => (w x - w y) (σ i) ≠ 0).card :=
      (card_equiv σ fun i => by simp).symm
    rw [h1, List.countP_eq_length_filter, ← List.toFinset_card_of_nodup ((List.nodup_finRange _).filter _)]
    congr 1
    ext i
    simpa using (two (w x (σ i)) (w y (σ i))).symm
/-! ### Words with vanishing power sums -/

theorem bit_cases : ∀ x : ZMod 2, x = 0 ∨ x = 1 := by decide

section
variable {ι K : Type} [Fintype ι] [Field K] [CharP K 2] [Algebra (ZMod 2) K]

theorem powerSum_double (α : ι → K) (v : ι → ZMod 2) (k : ℕ) :
    ∑ i, v i • α i ^ (2 * k) = (∑ i, v i • α i ^ k) ^ 2 := by
  have := Fact.mk Nat.prime_two
  rw [sum_pow_char 2]
  refine sum_congr rfl fun i _ => ?_
  rcases bit_cases (v i) with h | h <;> simp [h, pow_mul, pow_right_comm]

/-- The odd power sums give the even ones. -/
theorem powerSum_zero (α : ι → K) (v : ι → ZMod 2) (n : ℕ)
    (h : ∀ m < n, ∑ i, v i • α i ^ (2 * m + 1) = 0) : ∀ k, 1 ≤ k → k ≤ 2 * n → ∑ i, v i • α i ^ k = 0 := by
  intro k
  induction k using Nat.strong_induction_on with
  | _ k ih =>
    intro h1 h2
    rcases Nat.even_or_odd' k with ⟨m, rfl | rfl⟩
    · rw [powerSum_double, ih m (by omega) (by omega) (by omega)]; simp
    · exact h m (by omega)

omit [CharP K 2] in
/-- A word whose `d` power sums from the `s`-th on vanish has more than `d` bits, or none. -/
theorem weight_of_powerSums (α : ι → K) (hα : Function.Injective α) (h0 : ∀ i, α i ≠ 0) (v : ι → ZMod 2) (hv : v ≠ 0)
    (s d : ℕ) (h : ∀ k < d, ∑ i, v i • α i ^ (s + k) = 0) : d + 1 ≤ hammingNorm v := by
  by_contra hc
  set T := univ.filter (fun i => v i ≠ 0) with hT
  have hw : T.card = hammingNorm v := rfl
  have hone : ∀ i ∈ T, v i = 1 := fun i hi => (bit_cases _).resolve_left (mem_filter.1 hi).2
  have hsum : ∀ k < d, ∑ i ∈ T, α i ^ (s + k) = 0 := by
    intro k hk
    rw [← h k hk, hT, sum_filter]
    refine sum_congr rfl fun i _ => ?_
    by_cases hi : v i = 0
    · simp [hi]
    · rw [if_pos hi, hone i (by simp [hT, hi]), one_smul]
  let e := T.equivFin
  have key : (fun j : Fin T.card => α (e.symm j) ^ s) = 0 := by
    apply Matrix.eq_zero_of_forall_pow_sum_mul_pow_eq_zero (f := fun j : Fin T.card => α (e.symm j))
    · exact fun a b hab => e.symm.injective (Subtype.ext (hα hab))
    · intro i
      have := hsum i (by have := i.2; omega)
      rw [← this, ← sum_coe_sort T, ← e.symm.sum_comp]
      exact sum_congr rfl fun j _ => (pow_add _ _ _).symm
  obtain ⟨i, hi⟩ := Function.ne_iff.1 hv
  have hiT : i ∈ T := by simpa [hT] using hi
  have := congrFun key (e ⟨i, hiT⟩)
  simp only [Equiv.symm_apply_apply, Pi.zero_apply] at this
  exact pow_ne_zero s (h0 i) this

end

/-- A subspace agrees with any word on some places, as many as its dimension. -/
theorem exists_places {ι : Type} [Fintype ι] [DecidableEq ι] (W : Submodule (ZMod 2) (ι → ZMod 2)) :
    ∀ k, k ≤ Module.finrank (ZMod 2) W → ∃ J : Finset ι, J.card = k ∧ ∀ f : ι → ZMod 2, ∃ w ∈ W, ∀ i ∈ J, w i = f i := by
  have := Fact.mk Nat.prime_two
  intro k
  induction k with
  | zero => exact fun _ => ⟨∅, rfl, fun _ => ⟨0, W.zero_mem, by simp⟩⟩
  | succ k ih =>
    intro hk
    obtain ⟨J, hJ, hs⟩ := ih (by omega)
    let r : W →ₗ[ZMod 2] (J → ZMod 2) := (LinearMap.funLeft (ZMod 2) (ZMod 2) (fun j : J => (j : ι))).comp W.subtype
    have hr : LinearMap.ker r ≠ ⊥ := LinearMap.ker_ne_bot_of_finrank_lt (by simp [hJ]; omega)
    obtain ⟨u, hu, hu0⟩ := (Submodule.ne_bot_iff _).1 hr
    have hz : ∀ i ∈ J, (u : ι → ZMod 2) i = 0 := fun i hi => congrFun (LinearMap.mem_ker.1 hu) ⟨i, hi⟩
    obtain ⟨i, hi⟩ := Function.ne_iff.1 (fun h => hu0 (Subtype.ext h) : (u : ι → ZMod 2) ≠ 0)
    have hi1 : (u : ι → ZMod 2) i = 1 := (bit_cases _).resolve_left hi
    have hiJ : i ∉ J := fun h => hi (hz i h)
    refine ⟨insert i J, by rw [card_insert_of_notMem hiJ, hJ], fun f => ?_⟩
    obtain ⟨w, hw, hwf⟩ := hs f
    refine ⟨w + (f i - w i) • u, W.add_mem hw (W.smul_mem _ u.2), fun j hj => ?_⟩
    rcases mem_insert.1 hj with rfl | hj
    · simp [hi1]
    · simp [hz j hj, hwf j hj]

/-- A code from linear conditions that only words of `d` bits or more, and the word of none, meet. -/
theorem CheckCode.of_conditions (m c d : ℕ) {M : Type} [AddCommGroup M] [Module (ZMod 2) M] [Module.Finite (ZMod 2) M]
    (h : (Fin (8 * (m + c)) → ZMod 2) →ₗ[ZMod 2] M) (hM : Module.finrank (ZMod 2) M ≤ 8 * c)
    (hd : ∀ v, h v = 0 → v ≠ 0 → d ≤ hammingNorm v) : Nonempty (CheckCode m c d) := by
  have := Fact.mk Nat.prime_two
  have hdim : 8 * m ≤ Module.finrank (ZMod 2) (LinearMap.ker h) := by
    have h1 := LinearMap.finrank_range_add_finrank_ker h
    have h2 := Submodule.finrank_le (LinearMap.range h)
    rw [Module.finrank_fintype_fun_eq_card, Fintype.card_fin] at h1
    omega
  obtain ⟨J, hJ, hs⟩ := exists_places (LinearMap.ker h) (8 * m) hdim
  exact CheckCode.of_words m c d _ J hJ hs fun w hw => hd w (LinearMap.mem_ker.1 hw)

/-- Distinct places for up to 8191 bits in the field of 8192 elements. -/
theorem exists_field_places (n : ℕ) (hn : n ≤ 8191) :
    ∃ α : Fin n → GaloisField 2 13, Function.Injective α ∧ ∀ i, α i ≠ 0 := by
  have := Fact.mk Nat.prime_two
  have := Fintype.ofFinite (GaloisField 2 13)ˣ
  obtain ⟨α⟩ : Nonempty (Fin n ↪ (GaloisField 2 13)ˣ) := by
    apply Function.Embedding.nonempty_of_card_le
    rw [Fintype.card_fin, ← Nat.card_eq_fintype_card, Nat.card_units, GaloisField.card 2 13 (by decide)]
    exact hn
  exact ⟨fun i => α i, fun a b hab => α.injective (Units.ext hab), fun i => (α i).ne_zero⟩

/-- Codes apart by 2n + 2 bits: the sum of the bits and the first n odd power sums of their places vanish. -/
theorem CheckCode.exists_apart (m c n : ℕ) (hn : 8 * (m + c) ≤ 8191) (hc : 1 + 13 * n ≤ 8 * c) :
    Nonempty (CheckCode m c (2 * n + 2)) := by
  have := Fact.mk Nat.prime_two
  obtain ⟨α, hα, h0⟩ := exists_field_places (8 * (m + c)) hn
  refine CheckCode.of_conditions m c (2 * n + 2)
    ((Fintype.linearCombination (ZMod 2) fun _ => (1 : ZMod 2)).prod
      (LinearMap.pi fun j : Fin n => Fintype.linearCombination (ZMod 2) fun i => α i ^ (2 * (j : ℕ) + 1))) ?_ ?_
  · rw [Module.finrank_prod, Module.finrank_self, Module.finrank_pi_fintype]
    simp only [GaloisField.finrank 2 (show (13 : ℕ) ≠ 0 by decide), sum_const, card_univ, Fintype.card_fin, smul_eq_mul]
    omega
  · intro v hv hne
    have hv1 : ∑ i, v i = 0 := by simpa [Fintype.linearCombination_apply] using congrArg Prod.fst hv
    have hv2 := congrArg Prod.snd hv
    refine weight_of_powerSums α hα h0 v hne 0 (2 * n + 1) fun k hk => ?_
    rw [zero_add]
    rcases Nat.eq_zero_or_pos k with rfl | hk0
    · rw [← map_zero (algebraMap (ZMod 2) (GaloisField 2 13)), ← hv1, map_sum]
      exact sum_congr rfl fun i _ => by rw [pow_zero, Algebra.smul_def, mul_one]
    · exact powerSum_zero α v n (fun m hm => congrFun hv2 ⟨m, hm⟩) k hk0 (by omega)

/-- Codes of H1's size with Correction and Detection exist. -/
theorem h1Code_exists : Nonempty H1Code := CheckCode.exists_apart 524 3 1 (by decide) (by decide)

/-- Codes of B8's size with Correction, and with Detection of 9 bits, exist. -/
theorem b8Code_exists : Nonempty B8Code := CheckCode.exists_apart 513 14 8 (by decide) (by decide)

/-! ### One of them -/

/-- Bytes as a number, least significant first, and a number as `n` bytes. -/
def numberOf : List Byte → Nat
  | [] => 0
  | b :: bs => b.toNat + 256 * numberOf bs

def wordOf : Nat → Nat → List Byte
  | 0, _ => []
  | n + 1, v => BitVec.ofNat 8 v :: wordOf n (v / 256)

theorem numberOf_lt : ∀ x : List Byte, numberOf x < 256 ^ x.length
  | [] => by decide
  | b :: bs => by
    have := numberOf_lt bs; have := b.isLt
    rw [numberOf, List.length_cons, Nat.pow_succ]; omega

theorem wordOf_length (n v : Nat) : (wordOf n v).length = n := by
  induction n generalizing v with
  | zero => rfl
  | succ n ih => simp [wordOf, ih]

theorem wordOf_numberOf : ∀ x : List Byte, wordOf x.length (numberOf x) = x
  | [] => rfl
  | b :: bs => by
    have hb := b.isLt
    have h1 : BitVec.ofNat 8 (b.toNat + 256 * numberOf bs) = b := by
      apply BitVec.eq_of_toNat_eq; rw [BitVec.toNat_ofNat]; omega
    have h2 : (b.toNat + 256 * numberOf bs) / 256 = numberOf bs := by omega
    rw [List.length_cons, numberOf, wordOf, h1, h2, wordOf_numberOf bs]

/-- The check bytes that a table of numbers gives. -/
def tableCheck (m c : Nat) (f : Fin (256 ^ m) → Fin (256 ^ c)) (x : List Byte) : List Byte :=
  wordOf c (f ⟨numberOf x % 256 ^ m, Nat.mod_lt _ (Nat.pos_of_ne_zero (by simp))⟩)

/-- Whether a table gives a code. -/
def TableCodes (m c d : Nat) (f : Fin (256 ^ m) → Fin (256 ^ c)) : Prop :=
  tableCheck m c f (List.replicate m 0xFF) = List.replicate c 0xFF ∧
    ∀ i j : Fin (256 ^ m), wordOf m i ≠ wordOf m j →
      d ≤ bitDistance (wordOf m i ++ tableCheck m c f (wordOf m i)) (wordOf m j ++ tableCheck m c f (wordOf m j))

theorem exists_table {m c d : Nat} (h : Nonempty (CheckCode m c d)) : ∃ f, TableCodes m c d f := by
  obtain ⟨k⟩ := h
  have hlt : ∀ i : Fin (256 ^ m), numberOf (k.check (wordOf m i)) < 256 ^ c := fun i => by
    have := numberOf_lt (k.check (wordOf m i)); rwa [k.size] at this
  have key : ∀ x : List Byte, x.length = m →
      tableCheck m c (fun i => ⟨numberOf (k.check (wordOf m i)), hlt i⟩) x = k.check x := by
    intro x hx
    have h1 := numberOf_lt x
    rw [hx] at h1
    have h2 := wordOf_numberOf (k.check x)
    have h3 := wordOf_numberOf x
    rw [k.size] at h2; rw [hx] at h3
    simp only [tableCheck, Nat.mod_eq_of_lt h1, h3, h2]
  refine ⟨fun i => ⟨numberOf (k.check (wordOf m i)), hlt i⟩, ?_, fun i j hne => ?_⟩
  · rw [key _ (by simp)]; exact k.erased
  · rw [key _ (wordOf_length _ _), key _ (wordOf_length _ _)]
    exact k.apart _ _ (wordOf_length _ _) (wordOf_length _ _) hne

/-- Some code of a size for which there are codes: the first table that gives one. It serves only to show that the type is
inhabited, and nothing evaluates it. -/
def CheckCode.first {m c d : Nat} (h : Nonempty (CheckCode m c d)) : CheckCode m c d :=
  have : DecidablePred (TableCodes m c d) := fun _ => inferInstanceAs (Decidable (_ ∧ _))
  let f := Encodable.chooseX (exists_table h)
  { check := tableCheck m c f.1
    size := fun _ => wordOf_length _ _
    erased := f.2.1
    apart := fun x y hx hy hne => by
      have bound : ∀ z : List Byte, z.length = m → ∃ i : Fin (256 ^ m), wordOf m i = z := fun z hz =>
        ⟨⟨numberOf z, hz ▸ numberOf_lt z⟩, by have := wordOf_numberOf z; rwa [hz] at this⟩
      obtain ⟨i, rfl⟩ := bound x hx
      obtain ⟨j, rfl⟩ := bound y hy
      exact f.2.2 i j hne }

end Sys2Proof
end

