-- ==== Sys2Proof/Machine/Ecc.lean ====
section
/-! DEFINITION. The ECC unit: spare-byte classes (R146), codewords (R147), encoding (R149) and the decode of one sector with its result and the bytes left in staging (R151–R153). A sector is a list of 528 bytes. -/
namespace Sys2Proof.Machine

/-- Bits corrected per sector (R146). -/
def EccMode.t : EccMode → Nat
  | .none => 0 | .h1 => 1 | .b8 => 8

/-- Bits detected per sector (R146). -/
def EccMode.d : EccMode → Nat
  | .none => 0 | .h1 => 2 | .b8 => 16

/-- The host bytes covered by the code (R146). -/
def coveredSpare : EccMode → List Nat
  | .none => []
  | .h1 => [1, 5, 6, 7, 8, 9, 10, 11, 12, 13, 14, 15]
  | .b8 => [1]

/-- The check bytes (R146). -/
def checkSpare : EccMode → List Nat
  | .none => []
  | .h1 => [2, 3, 4]
  | .b8 => [2, 3, 4, 5, 6, 7, 8, 9, 10, 11, 12, 13, 14, 15]

/-- A list cut or filled with 0 to `n` bytes. -/
def fitTo (n : Nat) (d : List Byte) : List Byte := (List.range n).map (fun i => d.getD i 0)

/-- The protected message of a sector: its 512 data bytes, then its covered host bytes (R147). -/
def protectedMessage (m : EccMode) (sector : List Byte) : List Byte :=
  fitTo 512 sector ++ (coveredSpare m).map (fun i => at8 sector (512 + i))

/-- The check bytes held in a sector. -/
def heldCheck (m : EccMode) (sector : List Byte) : List Byte := (checkSpare m).map (fun i => at8 sector (512 + i))

/-- The check bytes of a protected message (R147). The functions are the part's own, known by the properties of `H1Code`
and `B8Code` alone. -/
def checkBytes (m : EccMode) (msg : List Byte) : List Byte :=
  match m with
  | .none => []
  | .h1 => (@Config.h1 ⟨CheckCode.first h1Code_exists⟩).check msg
  | .b8 => (@Config.b8 ⟨CheckCode.first b8Code_exists⟩).check msg

/-- Whether a message with check bytes forms a codeword (R147). -/
def isCodeword (m : EccMode) (word : List Byte × List Byte) : Bool := checkBytes m word.1 == word.2

/-! ### Words at a distance -/

/-- The byte of up to eight bits, bit 0 first. -/
def byteOfBits : List Bool → Byte
  | [] => 0
  | b :: bs => (byteOfBits bs <<< 1) ||| (if b then 1 else 0)

/-- `n` bytes from the front of a list of bits. -/
def bytesOf : Nat → List Bool → List Byte
  | 0, _ => []
  | n + 1, bits => byteOfBits (bits.take 8) :: bytesOf n (bits.drop 8)

/-- Every word that differs from the given one in exactly `k` bits. -/
def flips : Nat → List Bool → List (List Bool)
  | 0, w => [w]
  | _ + 1, [] => []
  | k + 1, b :: w => (flips k w).map (fun x => (!b) :: x) ++ (flips (k + 1) w).map (fun x => b :: x)

/-- A codeword exactly `k` bits from the word read, if there is one. -/
def codewordAt (m : EccMode) (k : Nat) (msg check : List Byte) : Option (List Byte × List Byte) :=
  ((flips k (bitsOf (msg ++ check))).map (fun bits =>
    let word := bytesOf (msg.length + check.length) bits
    (word.take msg.length, word.drop msg.length))).find? (isCodeword m)

/-- The nearest codeword within `n` further bits of distance `k`: the error count and the codeword (R147). -/
def nearest (m : EccMode) (msg check : List Byte) : Nat → Nat → Option (Nat × (List Byte × List Byte))
  | k, 0 => (codewordAt m k msg check).map (fun w => (k, w))
  | k, n + 1 =>
    match codewordAt m k msg check with
    | some w => some (k, w)
    | none => nearest m msg check (k + 1) n

/-! ### Sectors -/

/-- A sector with the bytes of a codeword put in their places; the mark byte stays (R151). -/
def putCodeword (m : EccMode) (sector : List Byte) (word : List Byte × List Byte) : List Byte :=
  word.1.take 512 ++ (List.range 16).map (fun i =>
    match (coveredSpare m).findIdx? (· == i), (checkSpare m).findIdx? (· == i) with
    | some j, _ => word.1.getD (512 + j) 0
    | none, some j => word.2.getD j 0
    | none, none => at8 sector (512 + i))

/-- An erased sector as delivered: 0xFF everywhere but the mark byte (R151). -/
def erasedSector (sector : List Byte) : List Byte :=
  List.replicate 512 0xFF ++ at8 sector 512 :: List.replicate 15 0xFF

/-- Zero bits among the bytes of a sector (R148). -/
def zeroBits (sector : List Byte) : Nat := (bitsOf sector).countP (fun b => !b)

/-- The free outcome of R152: FAILED with the bytes as read, or CORRECTED(k), k from 1 to t, with a codeword's bytes. -/
def beyondRange (m : EccMode) (choice : Option (Nat × List Byte)) (sector : List Byte) : SectorResult × List Byte :=
  match choice with
  | none => (.failed, sector)
  | some (k, msg) =>
    let msg := fitTo (512 + (coveredSpare m).length) msg
    (.corrected (1 + k % m.t), putCodeword m sector (msg, checkBytes m msg))

/-- The decode of a sector under H1 or B8 (R151, R152): the erased test first, then the error count. `choice` is the
free choice used beyond the detection range; the Bool says whether it was used. -/
def decodeSector (m : EccMode) (choice : Option (Nat × List Byte)) (sector : List Byte) :
    SectorResult × List Byte × Bool :=
  if zeroBits sector ≤ m.t then (.erased, erasedSector sector, false)
  else
    match nearest m (protectedMessage m sector) (heldCheck m sector) 0 m.d with
    | some (0, _) => (.clean, sector, false)
    | some (e, word) =>
      if e ≤ m.t then (.corrected e, putCodeword m sector word, false) else (.failed, sector, false)
    | none =>
      let (r, bytes) := beyondRange m choice sector
      (r, bytes, true)

/-- Whether the unit encodes or decodes for an entry: never with RAW nor under NONE (R148, R153). -/
def eccActive (m : EccMode) (raw : Bool) : Bool := !raw && m != .none

/-- A sector as unloaded for an entry: decoded, or as read with result CLEAN (R125, R151, R153). -/
def unloadSector (m : EccMode) (raw : Bool) (choice : Option (Nat × List Byte)) (sector : List Byte) :
    SectorResult × List Byte × Bool :=
  if eccActive m raw then decodeSector m choice sector else (.clean, sector, false)

/-- A sector as loaded into the device: the check bytes take their places unless RAW or NONE (R126, R149, R150). -/
def loadSector (m : EccMode) (raw : Bool) (sector : List Byte) : List Byte :=
  if eccActive m raw then
    let check := checkBytes m (protectedMessage m sector)
    fitTo 512 sector ++ (List.range 16).map (fun i =>
      match (checkSpare m).findIdx? (· == i) with
      | some j => check.getD j 0
      | none => at8 sector (512 + i))
  else sector

/-- The status of a PG-READ from its sector results and the corrected threshold (R154). -/
def readStatus (results : List SectorResult) (threshold : Nat) : Status :=
  if results.any (fun r => r == .failed) then .eccFail
  else if results.any (fun r => match r with | .corrected k => decide (threshold ≤ k) | _ => false) then .correctedHigh
  else .ok

end Sys2Proof.Machine
end

