-- ==== Sys2Proof/Machine/BusLines.lean ====
section
/-! DEFINITION. The levels of the memory bus's output lines in one MCLK (pin list 10.12), and those with no tenure on the bus and in a tenure's idle time (R55, R79, R93, R119). -/
namespace Sys2Proof.Machine

/-- The levels in one MCLK; `true` and 1 are high. `none` stands for a level that the manual does not give, `maGiven` marks
the MA lines whose level it gives, which is then the one in `ma`, and `mcke` is `none` where MCKE is held as the state of
the SDRAM requires (`State.mcke`). `mbe` are MBE[0]# to MBE[3]#; `md` are the bytes that the part drives, lane 0 first. -/
structure BusLines where
  msel : ByChip Bool
  mseld : Bool
  mrd : Option Bool
  mwr : Option Bool
  mras : Option Bool
  mcas : Option Bool
  mcke : Option Bool
  ma : BitVec 26
  maGiven : BitVec 26
  mbe : List (Option Bool)
  md : List Byte
  deriving DecidableEq, Repr

/-- With no tenure on the bus every chip select and every strobe is inactive and no data line is driven (R55). -/
def BusLines.rest : BusLines :=
  { msel := ByChip.all true, mseld := true, mrd := some true, mwr := some true, mras := some true, mcas := some true
    mcke := none, ma := 0, maGiven := 0, mbe := [none, none, none, none], md := [] }

/-- A tenure at work, outside its strobes and commands: the chip select of S1–S4 is low throughout (R79, R83, R119), that
of SD high (R93). No byte is driven on MD: the rules give MD in beats, commands and cycles only, and the model drives none in
a tenure's idle time, a NAND tenure's fixed waits among it (log entry 31). -/
def BusLines.selected : Slot → BusLines
  | .chip c => { BusLines.rest with msel := (ByChip.all true).set c false, mras := none, mcas := none }
  | .sd => { BusLines.rest with mrd := none, mwr := none, mras := none, mcas := none }

/-- The byte-lane enables of a slot of `w` lanes: MBE# low on the enabled lanes, high on its other lanes and on every line
above its width (R77). -/
def laneEnables (lanes : List Bool) : List (Option Bool) := (List.range 4).map (fun i => some !(lanes.getD i false))

/-- What is known of MBE# in a tenure of a slot outside its cycles: high above the width of a static slot (R77), and high on
every line of a NAND slot (R119). -/
def idleEnables (k : Slot) (f : Profile) : List (Option Bool) :=
  match k with
  | .chip _ => (List.range 4).map (fun i => if i < f.width / 8 ∧ f.type ≠ .nand then none else some true)
  | .sd => [none, none, none, none]

/-- What is known of MA in a tenure of a slot outside its cycles: a NAND slot's lines below the latches are low (R119). -/
def idleAddress (k : Slot) (f : Profile) : BitVec 26 :=
  match k with
  | .chip _ => if f.type = .nand then 0xFFFFFF else 0
  | .sd => 0

/-- Idle time of a tenure: `lines` with what holds throughout the tenure of a slot (R77, R119). -/
def BusLines.idle (lines : BusLines) (k : Slot) (f : Profile) : BusLines :=
  { lines with maGiven := idleAddress k f, mbe := idleEnables k f }

end Sys2Proof.Machine
end

