-- ==== Sys2Proof/Machine/NandBus.lean ====
section
/-! DEFINITION. The cycles of the NAND tenures (R119–R121, R124, R126–R129, R134). -/
namespace Sys2Proof.Machine

/-! ### Lines -/

/-- The latches of a cycle: MA[24] for a command, MA[25] for an address, every other MA line low (R119). -/
def NandCycle.latches : NandCycle → BitVec 26
  | .command _ => 0x1000000
  | .address _ => 0x2000000
  | .dataIn _ | .dataOut _ => 0

/-- The bytes that the engine drives on MD in a cycle, lane 0 first: none in a data-out cycle, where it samples (R119). -/
def NandCycle.driven : NandCycle → List Byte
  | .command b | .address b => [b]
  | .dataIn bytes => bytes
  | .dataOut _ => []

/-- Whether a cycle's strobe is MRD# (R119). -/
def NandCycle.reads : NandCycle → Bool
  | .dataOut _ => true
  | .command _ | .address _ | .dataIn _ => false

/-- The lines of a cycle on slot `k` in its MCLK `i` of 0 to 3: the strobe is low in the two middle ones (R119). A data-out
cycle samples its bytes, lane 0 first, at the end of MCLK 2. -/
def NandCycle.lines (x : NandCycle) (k : Slot) (i : Nat) : BusLines :=
  let strobe := decide (i = 1 ∨ i = 2)
  { BusLines.selected k with
    ma := x.latches, maGiven := BitVec.allOnes 26, mrd := some !(strobe && x.reads), mwr := some !(strobe && !x.reads)
    mbe := laneEnables [], md := x.driven }

/-! ### Cycles -/

def nandCmd (c : Byte) : BusCycle := .nand (.command c)

/-- Address cycles, least significant byte first (R120). -/
def nandAddress (n value : Nat) : List BusCycle := (leBytes n value).map (fun b => .nand (.address b))

/-- The row address of a block and page (R120). -/
def Profile.rowAddress (f : Profile) (block page : Nat) : Nat := block * f.pagesPerBlock + page

/-- The column address of a sector's first position: in bytes at width 8, in words at width 16 (R120). -/
def Profile.column (f : Profile) (sector : Nat) : Nat := if f.width = 16 then sector * 264 else sector * 528

/-- The bytes of a sector grouped by data cycle: one at width 8, two at width 16 (R119). -/
def dataCycles (width : Nat) (d : List Byte) : List (List Byte) :=
  if width = 16 then (List.range (d.length / 2)).map (fun i => [d.getD (2 * i) 0, d.getD (2 * i + 1) 0])
  else d.map (fun b => [b])

def dataIn (width : Nat) (d : List Byte) : List BusCycle := (dataCycles width d).map (fun x => .nand (.dataIn x))

def dataOut (width : Nat) (d : List Byte) : List BusCycle := (dataCycles width d).map (fun x => .nand (.dataOut x))

/-- The page address: column cycles of column 0, then row cycles (R121). -/
def Profile.pageAddress (f : Profile) (block page : Nat) : List BusCycle :=
  nandAddress f.columnCycles 0 ++ nandAddress f.rowCycles (f.rowAddress block page)

/-- The read command tenure (R121, R124): 30 only on large pages, then the 10 MCLK wait. -/
def readCommandCycles (f : Profile) (block page : Nat) : List BusCycle :=
  [nandCmd 0x00] ++ f.pageAddress block page ++ (if f.pageSize = 512 then [] else [nandCmd 0x30]) ++ [.idle 10]

/-- The erase command tenure: the block's row address with page 0 (R128). -/
def eraseCommandCycles (f : Profile) (block : Nat) : List BusCycle :=
  [nandCmd 0x60] ++ nandAddress f.rowCycles (f.rowAddress block 0) ++ [nandCmd 0xD0, .idle 10]

/-- A loading tenure (R126): 80 and the address before the first sector, 10 and the wait after the last. -/
def loadingCycles (f : Profile) (block page : Nat) (first last : Bool) (sector : List Byte) : List BusCycle :=
  (if first then [nandCmd 0x80] ++ f.pageAddress block page else []) ++ dataIn f.width sector ++
    (if last then [nandCmd 0x10, .idle 10] else [])

/-- An unloading tenure (R124): random data out on large pages, the data cycles alone on a 512-byte page. -/
def unloadingCycles (f : Profile) (sector : Nat) (d : List Byte) : List BusCycle :=
  (if f.pageSize = 512 then []
    else [nandCmd 0x05] ++ nandAddress f.columnCycles (f.column sector) ++ [nandCmd 0xE0, .idle 8]) ++ dataOut f.width d

/-- The status tenure (R127). -/
def statusCycles (b : Byte) : List BusCycle := [nandCmd 0x70, .idle 4, .nand (.dataOut [b])]

/-- The read-ID tenure (R129). -/
def idCycles (d : List Byte) : List BusCycle :=
  [nandCmd 0x90, .nand (.address 0x00), .idle 4] ++ d.map (fun b => .nand (.dataOut [b]))

/-- The reset tenure (R134). -/
def resetCycles : List BusCycle := [nandCmd 0xFF, .idle 10]

end Sys2Proof.Machine
end

