-- ==== Sys2Proof/Machine/Beats.lean ====
section
/-! DEFINITION. Beats and byte lanes: how a range of slot offsets is split (R77, R78, R81, R107), the bytes a tenure reads from its samples, and the static bus cycles with their times (R79–R84). -/
namespace Sys2Proof.Machine

/-- The sample of the i-th beat; where the command gives none the word is free and nothing stretches (log entry 6). -/
def sampleAt (xs : List Sample) (i : Nat) : Sample := (xs[i]?).getD ⟨Config.openBus i, 0⟩

/-- Lane i of a word on MD (R77). -/
def lane (w : BitVec 32) (i : Nat) : Byte := (w >>> (8 * i)).setWidth 8

/-- The first beat address of a range. -/
def firstBeat (w o : Nat) : Nat := o / w

/-- How many beats a range of `m` bytes at offset `o` takes at `w` bytes a beat (R78). -/
def beatCount (w o m : Nat) : Nat := if m = 0 then 0 else (o + m - 1) / w - o / w + 1

/-- The byte at slot offset `o + j` as the beats' samples gave it (R78, R107): its beat counts from the range's first. -/
def readByte (w o : Nat) (xs : List Sample) (j : Nat) : Byte :=
  lane (sampleAt xs ((o + j) / w - o / w)).md ((o + j) % w)

/-- The `m` bytes of a range, in ascending slot offset. -/
def readBytes (w o m : Nat) (xs : List Sample) : List Byte := (List.range m).map (readByte w o xs)

/-- How many bytes of a range lie in its first `k` beats (R86). -/
def bytesInBeats (w o m k : Nat) : Nat := if k = 0 then 0 else min m ((o / w + k) * w - o)

/-- The lanes of a beat whose bytes lie in the range (R77). -/
def lanesOf (w o m beat : Nat) : List Bool :=
  (List.range w).map (fun i => decide (o ≤ beat * w + i) && decide (beat * w + i < o + m))

/-- The lanes a write beat drives: an enabled lane its byte, a disabled lane 0. The range's bytes are `d`. R78 gives the 0
of a static slot; R107 gives none for SD, where the model drives 0 too (log entry 29). -/
def writeLanes (w o : Nat) (d : List Byte) (beat : Nat) : List Byte :=
  (List.range w).map (fun i =>
    if o ≤ beat * w + i ∧ beat * w + i < o + d.length then d.getD (beat * w + i - o) 0 else 0)

/-- The lanes a read beat sampled. -/
def sampledLanes (w : Nat) (x : Sample) : List Byte := (List.range w).map (lane x.md)

/-- The stretch that counts for a beat: none when the wait limit is 0 (R80), and at most the limit. -/
def Profile.stretch (f : Profile) (x : Sample) : Nat := min x.stretch f.waitLimit

/-- One write beat, or a read beat outside a group: setup, strobe with stretch, hold (R79). -/
def writeBeat (f : Profile) (w o : Nat) (d : List Byte) (x : Sample) (beat : Nat) (completed : Bool) : BusCycle :=
  .beat true beat (lanesOf w o d.length beat) (writeLanes w o d beat) f.setup (f.strobe + f.stretch x) f.hold completed

/-- Whether a read beat is the first of its group: the chunk's first beat, or the first of an aligned block of burst
beats (R81). On an SRAM slot every beat is a group of its own. -/
def Profile.groupStart (f : Profile) (w o beat : Nat) : Bool :=
  beat == firstBeat w o || f.type != .nor || beat * w % (f.burstBeats * w) == 0

/-- Whether a read beat is the last of its group. -/
def Profile.groupEnd (f : Profile) (w o m beat : Nat) : Bool :=
  beat + 1 == firstBeat w o + beatCount w o m || f.type != .nor || (beat + 1) * w % (f.burstBeats * w) == 0

/-- One read beat: the first of a group has the setup and the strobe, a later one the burst pitch, and the hold follows
the last (R79, R81). -/
def readBeat (f : Profile) (w o m : Nat) (x : Sample) (beat : Nat) (completed : Bool) : BusCycle :=
  let first := f.groupStart w o beat
  let last := f.groupEnd w o m beat || !completed
  .beat false beat (lanesOf w o m beat) (if completed then sampledLanes w x else [])
    (if first then f.setup else 0) ((if first then f.strobe else f.burstPitch) + f.stretch x)
    (if last then f.hold else 0) completed

/-- The first `k` read beats of a range, the last of them incomplete when `failed`. -/
def readBeats (f : Profile) (w o m : Nat) (xs : List Sample) (k : Nat) (failed : Bool) : List BusCycle :=
  (List.range k).map (fun i => readBeat f w o m (sampleAt xs i) (firstBeat w o + i) true) ++
    (if failed then [readBeat f w o m ⟨0, f.waitLimit⟩ (firstBeat w o + k) false] else [])

/-- The first `k` write beats of the bytes `d` at offset `o`, with the failing beat when `failed`. Their samples are the
ones from `base` on. -/
def writeBeats (f : Profile) (w o : Nat) (d : List Byte) (xs : List Sample) (base k : Nat) (failed : Bool) : List BusCycle :=
  (List.range k).map (fun i => writeBeat f w o d (sampleAt xs (base + i)) (firstBeat w o + i) true) ++
    (if failed then [writeBeat f w o d ⟨0, f.waitLimit⟩ (firstBeat w o + k) false] else [])

/-- The lines of a beat on slot `k` in its MCLK `i`, with the strobe low from the end of the setup on for the strobe's time:
the beat address on MA with every line above it low, the lane enables, and a write beat's bytes on MD (R77–R79). A read
beat drives no lane. -/
def beatLines (k : Slot) (write : Bool) (address : Nat) (lanes : List Bool) (data : List Byte) (setup strobe i : Nat) :
    BusLines :=
  let low := decide (setup ≤ i) && decide (i < setup + strobe)
  { BusLines.selected k with
    ma := BitVec.ofNat 26 address, maGiven := BitVec.allOnes 26, mrd := some !(low && !write), mwr := some !(low && write)
    mbe := laneEnables lanes, md := if write then data else [] }

/-! ### Atomics (R2, R83, R109) -/

/-- The old value of an atomic, least significant byte at the lowest slot offset (R2). -/
def oldValue (w o length : Nat) (xs : List Sample) : Nat := leValue (readBytes w o length xs)

/-- The value an atomic writes, or none for a CSET that misses (R2, R83). -/
def atomicResult (k : ReqKind) (length old compare operand : Nat) : Option Nat :=
  match k with
  | .cset => if old = compare then some operand else none
  | .swap => some operand
  | _ => some ((old + operand) % 2 ^ (8 * length))

end Sys2Proof.Machine
end

