-- ==== Sys2Proof/Machine/SdramBus.lean ====
section
/-! DEFINITION. What the SDRAM engine drives in its tenures: row work, beats, precharges and refreshes with the waits between them, the levels of the lines (R92–R94), and the row table they leave (R93, R96, R102, R103, R106–R109, R114). -/
namespace Sys2Proof.Machine

/-! ### Lines -/

/-- A number put on the MA lines from line `n` upward. -/
def maLines (n v : Nat) : BitVec 26 := BitVec.ofNat 26 v <<< n

/-- The bank on MA[13], with MA[14] low, for 2 banks, and on MA[14:13] for 4 (R92). -/
def bankLines (bank : Nat) : BitVec 26 := maLines 13 bank

/-- A command with its row strobe, column strobe and write enable: MSELD# low and MCKE high (R93). -/
def BusLines.command (mras mcas mwr : Bool) : BusLines :=
  { BusLines.selected .sd with
    mseld := false, mras := some mras, mcas := some mcas, mwr := some mwr, mcke := some true }

/-- The lines of each command (R92, R93): the row on MA[12:0], the column on MA[9:0], MA[10] low but in PRECHARGE ALL. A
READ holds every MBE# low (R107, R109), a WRITE those of the lanes it writes; SELF REFRESH takes MCKE low (R102). -/
def SdCommand.lines : SdCommand → BusLines
  | .activate bank row =>
    { BusLines.command false true true with ma := bankLines bank ||| maLines 0 row, maGiven := 0x7FFF }
  | .read bank column _ =>
    { BusLines.command true false true with
      ma := bankLines bank ||| maLines 0 column, maGiven := 0x67FF, mbe := [some false, some false, some false, some false] }
  | .write bank column lanes data =>
    { BusLines.command true false false with
      ma := bankLines bank ||| maLines 0 column, maGiven := 0x67FF
      mbe := (List.range 4).map (fun i => (lanes[i]?).map (fun b => !b)), md := data }
  | .precharge bank => { BusLines.command false true false with ma := bankLines bank, maGiven := 0x6400 }
  | .prechargeAll => { BusLines.command false true false with ma := 0x400, maGiven := 0x400 }
  | .autoRefresh => BusLines.command false false true
  | .enterSelfRefresh => { BusLines.command false false true with mcke := some false }
  | .modeSet word => { BusLines.command false false false with ma := maLines 0 word, maGiven := BitVec.allOnes 26 }

/-! ### A tenure under way -/

/-- A tenure of the SDRAM engine under way: the MCLK count, the row table, and the cycles so far. -/
structure SdTrace where
  now : Nat
  rows : List (Option OpenRow)
  cycles : List BusCycle
  deriving DecidableEq, Repr

/-- `n` MCLK with no command. -/
def SdTrace.wait (t : SdTrace) (n : Nat) : SdTrace :=
  if n = 0 then t else { t with now := t.now + n, cycles := t.cycles ++ [.idle n] }

/-- No command before a given MCLK count. -/
def SdTrace.waitUntil (t : SdTrace) (m : Nat) : SdTrace := t.wait (m - t.now)

/-- One command takes one MCLK (R93). -/
def SdTrace.command (t : SdTrace) (c : SdCommand) : SdTrace :=
  { t with now := t.now + 1, cycles := t.cycles ++ [.sd c] }

/-- A command and the rest of the time it needs before the next. -/
def SdTrace.timed (t : SdTrace) (c : SdCommand) (n : Nat) : SdTrace := (t.command c).wait (n - 1)

/-- The earliest MCLK at which an open row may be precharged: tRAS after activation and tWR after its last write beat
(R106). -/
def OpenRow.closableAt (r : OpenRow) (t : Settings) : Nat :=
  max (r.activatedAt + t.tRAS) (match r.lastWriteAt with | some w => w + t.tWR | none => 0)

/-- PRECHARGE of one bank once its marks allow it, then tRP (R107, R108). -/
def SdTrace.closeBank (x : SdTrace) (t : Settings) (bank : Nat) : SdTrace :=
  match x.rows.getD bank none with
  | some r =>
    let x := (x.waitUntil (r.closableAt t)).timed (.precharge bank) t.tRP
    { x with rows := x.rows.set bank none }
  | none => x

/-- PRECHARGE ALL once every open bank's marks allow it, then tRP, when any bank is open (R102, R114). -/
def SdTrace.closeAll (x : SdTrace) (t : Settings) : SdTrace :=
  if x.rows.all (fun r => r.isNone) then x
  else
    let latest := x.rows.foldl (fun m r => match r with | some o => max m (o.closableAt t) | none => m) 0
    let x := (x.waitUntil latest).timed .prechargeAll t.tRP
    { x with rows := x.rows.map (fun _ => none) }

/-- Row conflict and row open work for a slot offset (R107 steps 1 and 2). -/
def SdTrace.openRow (x : SdTrace) (t : Settings) (o : Nat) : SdTrace :=
  let bank := t.bankOf o
  let row := t.rowOf o
  let x :=
    match x.rows.getD bank none with
    | some r => if r.row = row then x else x.closeBank t bank
    | none => x
  match x.rows.getD bank none with
  | some _ => x
  | none =>
    let opened := { x with rows := x.rows.set bank (some ⟨row, x.now, none⟩) }
    opened.timed (.activate bank row) t.tRCD

/-- `n` read beats from the beat of offset `o`, one READ per MCLK, then CAS latency (R107, R109). -/
def SdTrace.readBeats (x : SdTrace) (t : Settings) (o n : Nat) (xs : List Sample) : SdTrace :=
  let w := t.beatBytes
  let x := (List.range n).foldl
    (fun x i => x.command (.read (t.bankOf o) (t.columnOf ((o / w + i) * w)) (sampleAt xs i).md)) x
  x.wait t.cas

/-- The write beats of the bytes `d` at offset `o`, one WRITE per MCLK; the last sets last write at (R107, R109). -/
def SdTrace.writeBeats (x : SdTrace) (t : Settings) (o : Nat) (d : List Byte) : SdTrace :=
  let w := t.beatBytes
  let bank := t.bankOf o
  let x := (List.range (beatCount w o d.length)).foldl
    (fun x i => x.command (.write bank (t.columnOf ((o / w + i) * w)) (lanesOf w o d.length (o / w + i))
      (writeLanes w o d (o / w + i)))) x
  { x with rows := x.rows.modify bank (fun r => r.map (fun o => { o with lastWriteAt := some (x.now - 1) })) }

/-- The end of an entry tenure: left open, or precharged under CLOSED (R108). -/
def SdTrace.policyEnd (x : SdTrace) (t : Settings) (o : Nat) : SdTrace :=
  match t.policy with
  | .opened => x
  | .closed => x.closeBank t (t.bankOf o)

/-- A READ chunk (R107). -/
def sdReadChunk (x : SdTrace) (t : Settings) (o m : Nat) (xs : List Sample) : SdTrace :=
  ((x.openRow t o).readBeats t o (beatCount t.beatBytes o m) xs).policyEnd t o

/-- A WRITE chunk (R107). -/
def sdWriteChunk (x : SdTrace) (t : Settings) (o : Nat) (d : List Byte) : SdTrace :=
  ((x.openRow t o).writeBeats t o d).policyEnd t o

/-- An atomic: row work, read phase, and the write phase after 1 idle MCLK where a value is written (R109). -/
def sdAtomic (x : SdTrace) (t : Settings) (o m : Nat) (xs : List Sample) (new : Option (List Byte)) : SdTrace :=
  let x := (x.openRow t o).readBeats t o (beatCount t.beatBytes o m) xs
  match new with
  | some d => ((x.wait 1).writeBeats t o d).policyEnd t o
  | none => x.policyEnd t o

/-- `d` AUTO REFRESH commands, each followed by tRFC (R102, R114). -/
def SdTrace.refreshes (x : SdTrace) (t : Settings) (d : Nat) : SdTrace :=
  (List.range d).foldl (fun x _ => x.timed .autoRefresh t.tRFC) x

/-- A refresh round of `d` (R114). -/
def sdRefreshRound (x : SdTrace) (t : Settings) (d : Nat) : SdTrace := (x.closeAll t).refreshes t d

/-- The self-refresh entry tenure (R102). Its end, 1 MCLK later, is counted from the end of the MCLK of SELF REFRESH, which
adds 1 idle MCLK (log entry 18). -/
def sdSelfRefreshEntry (x : SdTrace) (t : Settings) (d : Nat) : SdTrace :=
  (((x.closeAll t).refreshes t d).command .enterSelfRefresh).wait 1

/-- The self-refresh exit tenure: tRFC + 2 MCLK with MCKE high (R103). -/
def sdSelfRefreshExit (x : SdTrace) (t : Settings) : SdTrace := x.wait (t.tRFC + 2)

/-- The three initialisation tenures (R96). -/
def sdInitPrecharge (x : SdTrace) (t : Settings) : SdTrace := x.timed .prechargeAll t.tRP

def sdInitRefresh (x : SdTrace) (t : Settings) : SdTrace := x.refreshes t 8

/-- The mode word: MA[6:4] the CAS latency, every other line 0 (R93). -/
def Settings.modeWord (t : Settings) : Nat := t.cas * 16

/-- The mode step's tenure, with 2 idle MCLK beyond the MCLK of MODE SET (R96, log entry 18). -/
def sdInitMode (x : SdTrace) (t : Settings) : SdTrace := (x.command (.modeSet t.modeWord)).wait 2

end Sys2Proof.Machine
end

