-- ==== Sys2Proof/Machine/Arbiter.lean ====
section
/-! DEFINITION. The grant of a tenure (R17, R61–R64, R69, R102, R110, R111, R114, R123–R129, R134, R148) and its end (R57). -/
namespace Sys2Proof.Machine

/-- What the winner's engine begins: the purpose and the entry served. -/
structure Begin where
  purpose : Purpose
  entry : Option Ref
  deriving DecidableEq, Repr

/-- A QUEUED entry becomes ACTIVE and its progress comes into being at 0 (R17). -/
def Entry.activate (e : Entry) : Entry :=
  if e.state = .queued then { e with state := .active, progress := some 0 } else e

/-- The purpose of an entry's tenure on a static slot or SD (R64, R67). -/
def transferPurpose (k : ReqKind) : Purpose := if k.isAtomic then .atomic else .chunk

/-- A static slot serves the head of its queue, or a chunk of the NOR setup load (R64, R187). -/
def State.beginStatic (s : State) (c : Chip) : State × Begin :=
  if s.startup.loads c then (s, ⟨.loadChunk, none⟩)
  else
    match s.queue (.chip c) with
    | r :: _ =>
      match s.find r with
      | some e => (s.updateEntry r Entry.activate, ⟨transferPurpose e.kind, some r⟩)
      | none => (s, ⟨.chunk, some r⟩)
    | [] => (s, ⟨.chunk, none⟩)

/-- The ECC unit at the start of a loading tenure (R148, R149). -/
def eccEncode (c : Chip) (m : EccMode) (raw : Bool) (sector : List Byte) : EccUnit :=
  if eccActive m raw then
    { EccUnit.off with work := .encode, slot := some c, mode := m, check := checkBytes m (protectedMessage m sector) }
  else EccUnit.off

/-- The ECC unit at the start of an unloading tenure (R148). -/
def eccDecode (c : Chip) (m : EccMode) (raw : Bool) : EccUnit :=
  if eccActive m raw then { EccUnit.off with work := .decode, slot := some c, mode := m } else EccUnit.off

/-- The ECC unit at the end of an unloading tenure (R148, R151): the check bytes as read, the zero bits of all 528 bytes and
the result formed, with the work back to NONE. -/
def eccDecoded (c : Chip) (m : EccMode) (raw : Bool) (sector : List Byte) (r : SectorResult) : EccUnit :=
  if eccActive m raw then
    { work := .none, slot := some c, mode := m, check := heldCheck m sector, zeroBits := zeroBits sector, result := some r }
  else EccUnit.off

/-- Sector `k` of an entry's staging area (R50). -/
def State.stagedSector (s : State) (e : Entry) (k : Nat) : List Byte :=
  stagingRange s.pool.bytes e.segments (k * 528) 528

/-- The first tenure of a head's operation: the head leaves the queue into the context and becomes ACTIVE
(R17, R123, R124, R126, R128, R129). Ready seen becomes no, but for a NAND-ID, which holds it at yes (log entry 15). -/
def State.beginNandHead (s : State) (c : Chip) (r : Ref) (e : Entry) : State × Begin :=
  let x := s.context c
  let s := (s.dequeue (.chip c) r).updateEntry r Entry.activate
  match e.kind with
  | .pgProg =>
    let s := s.setContext c { x with
      state := .loading, entry := some r, op := some .program, left := (s.profile c).sectors, readySeen := false }
    ({ s with ecc := eccEncode c (s.profile c).ecc e.raw (s.stagedSector e 0) }, ⟨.nandLoad, some r⟩)
  | .blkErase =>
    (s.setContext c { x with state := .busy, entry := some r, op := some .erase, left := 0, readySeen := false },
      ⟨.nandCommand, some r⟩)
  | .nandId =>
    (s.setContext c { x with state := .busy, entry := some r, op := some .id, left := 0, readySeen := true },
      ⟨.nandId, some r⟩)
  | _ =>
    (s.setContext c { x with
        state := .busy, entry := some r, op := some .read, left := e.sectorCount, readySeen := false },
      ⟨.nandCommand, some r⟩)

/-- The entry a context serves. -/
def State.contextEntry (s : State) (c : Chip) : Option Entry := (s.context c).entry.bind (fun r => s.find r)

/-- An unloading tenure of a context begins (R124, R148): under the setup load the record's sector is decoded under H1
(R155, R188). -/
def State.beginUnload (s : State) (c : Chip) (x : Context) : State × Begin :=
  let s := s.setContext c x
  match s.contextEntry c with
  | some e => ({ s with ecc := eccDecode c (s.profile c).ecc e.raw }, ⟨.nandUnload, x.entry⟩)
  | none => ({ s with ecc := eccDecode c .h1 false }, ⟨.nandUnload, none⟩)

/-- The next tenure that a NAND slot's context calls for (R64, R122, R188). The load's read command sets ready seen to no (log
entry 15). -/
def State.beginNand (s : State) (c : Chip) : State × Begin :=
  let x := s.context c
  match x.state with
  | .idle =>
    if s.startup.loads c then
      (s.setContext c { x with state := .busy, op := some .read, left := 1, readySeen := false }, ⟨.nandCommand, none⟩)
    else
      match s.queue (.chip c) with
      | r :: _ =>
        match s.find r with
        | some e => s.beginNandHead c r e
        | none => (s, ⟨.nandCommand, none⟩)
      | [] => (s, ⟨.nandCommand, none⟩)
  | .loading =>
    match s.contextEntry c with
    | some e =>
      ({ s with ecc := eccEncode c (s.profile c).ecc e.raw (s.stagedSector e e.moved) }, ⟨.nandLoad, x.entry⟩)
    | none => (s, ⟨.nandLoad, x.entry⟩)
  | .busy =>
    if x.op = some .read then s.beginUnload c { x with state := .unloading }
    else (s.setContext c { x with state := .checking }, ⟨.nandStatus, x.entry⟩)
  | .unloading => s.beginUnload c x
  | .checking => (s, ⟨.nandStatus, x.entry⟩)
  | .recovering | .clearing => (s, ⟨.nandReset, none⟩)

/-- The entries of the SD queue in join order. -/
def State.sdEntries (s : State) : List Entry := (s.queue .sd).filterMap (fun r => s.find r)

/-- The SD entry in progress: ACTIVE or ORPHANED with chunks left (R110). -/
def State.sdInProgress (s : State) : Option Ref :=
  (s.sdEntries.find? (fun e => e.state == .active || e.state == .orphaned)).map Entry.ref

/-- The entry that an SD grant for entry work serves (R63, R110). -/
def State.sdChoice (s : State) : Option Ref :=
  match s.sdInProgress with
  | some r => some r
  | none => (sdSelect s.sdram s.sdEntries).map Entry.ref

/-- The bypass count of one entry rises by 1 (R111). -/
def Entry.bypassed (e : Entry) : Entry := { e with bypass := e.bypass.map (fun n => n + 1) }

/-- The entries of the SD queue that are older than `r`: those a selection of `r` passes. -/
def State.sdOlder (s : State) (r : Ref) : List Ref := (s.queue .sd).takeWhile (fun x => x != r)

/-- Entry work on SD: the entry in progress, or the selected entry, with the bypass counts of all older ones raised
(R110, R111). -/
def State.beginSdEntry (s : State) : State × Begin :=
  match s.sdChoice with
  | some r =>
    let k := match s.find r with | some e => transferPurpose e.kind | none => .chunk
    let s := if s.sdInProgress.isSome then s else (s.sdOlder r).foldl (fun s x => s.updateEntry x Entry.bypassed) s
    (s.updateEntry r Entry.activate, ⟨k, some r⟩)
  | none => (s, ⟨.chunk, none⟩)

/-- A refresh round takes the debt at its grant (R114). -/
def State.beginRefresh (s : State) : State × Begin :=
  (s.setSdram { s.sdram with debt := 0 }, ⟨.refreshRound s.sdram.debt, none⟩)

/-- What the SDRAM engine does with its tenure (R63, R102, R103). -/
def State.beginSd (s : State) : State × Begin :=
  if s.sdram.init = .precharge then (s, ⟨.initPrecharge, none⟩)
  else if s.sdram.init = .refresh then (s, ⟨.initRefresh, none⟩)
  else if s.sdram.init = .mode then (s, ⟨.initMode, none⟩)
  else if 6 ≤ s.sdram.debt then s.beginRefresh
  else if s.sdEntryReady then s.beginSdEntry
  else if s.selfRefreshDue then
    (s.setSdram { s.sdram with debt := 0, refreshTimer := none }, ⟨.selfRefreshEntry s.sdram.debt, none⟩)
  else if s.selfRefreshExitDue then (s, ⟨.selfRefreshExit, none⟩)
  else s.beginRefresh

/-- Whether a tenure on a chip select begins with a write strobe, for the recovery gap (R69, R83, R119). -/
def State.beginsWithWrite (s : State) (c : Chip) (b : Begin) : Bool :=
  match b.purpose with
  | .chunk =>
    match b.entry.bind (fun r => s.find r) with
    | some e => e.kind == .write
    | none => false
  | .atomic | .loadChunk => false
  | .nandUnload => (s.profile c).pageSize != 512
  | _ => true

/-- The recovery gap of R69 before idle time since the last tenure is counted. -/
def State.gapFor (s : State) (k : Slot) (b : Begin) : Nat :=
  match s.arbiter.lastUsed, k with
  | none, _ => 0
  | some .sd, .sd => 0
  | some .sd, .chip _ => 1
  | some (.chip c), .sd => (s.profile c).recovery
  | some (.chip c), .chip c' =>
    if c = c' then (if s.beginsWithWrite c b && !s.arbiter.lastWrite then (s.profile c).recovery else 0)
    else (s.profile c).recovery

/-- The part of the gap still to run: idle time since the end of the last tenure counts toward it (R69). -/
def State.gapLeft (s : State) (k : Slot) (b : Begin) : Nat :=
  match s.arbiter.endTime with
  | some t => s.gapFor k b - (s.now - t)
  | none => 0

/-- The engine's part of a grant to a slot. -/
def State.beginOn (s : State) : Slot → State × Begin
  | .chip c => if (s.profile c).type = .nand then s.beginNand c else s.beginStatic c
  | .sd => s.beginSd

/-- The grant to a winner: it becomes the last granted slot and its engine begins the tenure (R61). -/
def State.grantTo (s : State) (k : Slot) : State :=
  let (s', b) := s.beginOn k
  let gap := s'.gapLeft k b
  { s' with arbiter := { s'.arbiter with
      lastGranted := k
      tenure := some { slot := k, purpose := b.purpose, entry := b.entry, gap := gap, start := s'.now + gap } } }

/-- The arbiter grants when the bus is idle and some slot is a candidate (R61, R62). -/
def State.grant (s : State) : State :=
  match s.arbiter.tenure with
  | some _ => s
  | none =>
    match s.winner with
    | some k => s.grantTo k
    | none => s

/-- The end of a tenure: the last used slot, the last direction and the end time are recorded, the bus is free, and the
ECC unit holds no sector (R57, R148). The end of an SD tenure restarts the power-down timer (R98). -/
def State.endTenure (s : State) (write : Bool) (cycles : List BusCycle) : State :=
  match s.arbiter.tenure with
  | none => s
  | some t =>
    { s with
      arbiter := { s.arbiter with
        lastUsed := some t.slot, lastWrite := write, endTime := some s.now, tenure := none, cycles := cycles }
      ecc := EccUnit.off
      sdram := if t.slot = .sd then { s.sdram with powerDownTimer := restart s.sdram.powerDownTimer } else s.sdram }

end Sys2Proof.Machine
end

