-- ==== Sys2Proof/Machine/Transmit.lean ====
section
/-! DEFINITION. The frames the part sends: REPLY data from staging (R23, R48–R50, R202), payloads of the ready-list items, the start of a frame (R169, R177), and what follows every event: the transmitters begin and the arbiter grants. -/
namespace Sys2Proof.Machine

/-- The bytes of one sector in a PG-READ REPLY: 512 data bytes, then the host spare bytes, all 16 with RAW (R23, R50). -/
def State.replySector (s : State) (e : Entry) (k : Nat) : List Byte :=
  stagingRange s.pool.bytes e.segments (k * 528) 512 ++
    (frameSpare e.ecc e.raw).map (fun i => stagingRead s.pool.bytes e.segments (k * 528 + 512 + i))

/-- The data of an entry's REPLY after tag and status, by kind and status (R23, R202). -/
def State.replyData (s : State) (e : Entry) (st : Status) : List Byte :=
  match e.kind, st with
  | .read, .ok | .read, .busTimeout => leBytes 2 e.moved ++ stagingRange s.pool.bytes e.segments 0 e.moved
  | .write, .ok | .write, .busTimeout => leBytes 2 e.moved
  | .cset, .ok | .cset, .cmpMiss | .swap, .ok | .fadd, .ok => stagingRange s.pool.bytes e.segments 0 e.length
  | .pgRead, .ok | .pgRead, .correctedHigh | .pgRead, .eccFail =>
    e.sectors.map SectorResult.code ++ (List.range e.sectorCount).flatMap (fun k => s.replySector e k)
  | .nandId, .ok => stagingRange s.pool.bytes e.segments 0 8
  | _, _ => []

/-- The KIND and payload of a ready-list item (R198, R202, R203). -/
def State.itemPayload (s : State) (p : Port) : Item → Byte × List Byte
  | .entryReply tag =>
    match s.find ⟨p, tag⟩ with
    | some e =>
      let st := e.status.getD .ok
      (0x80, tag :: st.code :: s.replyData e st)
    | none => (0x80, [tag, 0])
  | .refusal tag st => (0x80, [tag, st.code])
  | .ctrl token k st body => (0x81, token :: k.code :: st.code :: body)
  | .notice number n => (0x82, noticePayload number n)

/-- The transmitter begins the oldest item when it is IDLE with HOLD# high (R177); the frame takes the transmit sequence
(R169). -/
def State.pump (s : State) (p : Port) : State :=
  let u := s.port p
  match u.tx, u.ready, s.pins.hold.get p with
  | none, i :: _, true =>
    let (kind, payload) := s.itemPayload p i
    s.setPort p { u with tx := some { seq := u.txSeq, frame := frameBytes u.txSeq kind payload, elapsed := 0 }, txSeq := u.txSeq + 1 }
  | _, _, _ => s

/-- What follows every event: an IDLE transmitter with an item and HOLD# high begins it (R177), and an idle bus with a
candidate is granted (R61, R62). -/
def State.settle (s : State) : State := ((s.pump .a).pump .b).grant

end Sys2Proof.Machine
end

