-- ==== Sys2Proof/Machine/Requests.lean ====
section
/-! DEFINITION. The taking of a frame (R167, R168, R170) and the nine request rows (R1–R14). -/
namespace Sys2Proof.Machine

/-- The oldest frame that arrived character by character is taken: it leaves the frames that wait. -/
def State.consume (s : State) (p : Port) : State := s.setPort p { s.port p with arrived := (s.port p).arrived.tail }

/-- Whether another frame is the next to be taken: the frames of a port are taken in the order in which their last bytes
arrive (R167). Where none waits, the message row brings its frame with it (log entry 8). -/
def State.outOfTurn (s : State) (p : Port) (f : Frame) : Bool :=
  match (s.port p).arrived with
  | g :: _ => g != f
  | [] => false

/-- The sequence check (R168): on an UP port the expectation becomes SEQ + 1, and a mismatch posts SEQ-GAP first. On a
DOWN port SEQ is not examined. -/
def State.sequenceCheck (s : State) (p : Port) (seq : Byte) : State :=
  match (s.port p).state, (s.port p).expected with
  | .up, some e =>
    let s' := if e = seq then s else s.post p (.seqGap e seq)
    s'.setPort p { s'.port p with expected := some (seq + 1) }
  | .up, none => s.setPort p { s.port p with expected := some (seq + 1) }
  | .down, _ => s

/-- A frame is taken: it leaves the frames that wait and its SEQ is checked (R168). -/
def State.takeFrame (s : State) (p : Port) (seq : Byte) : State := (s.consume p).sequenceCheck p seq

/-- A message row: in its turn the frame is taken and dealt with; out of turn nothing happens (R167). -/
def State.takeMessage (s : State) (p : Port) (kind seq : Byte) (payload : List Byte) (deal : State → State) : State :=
  if s.outOfTurn p ⟨kind, seq, payload⟩ then s else deal (s.takeFrame p seq)

/-- The tag that the port unit's own answers carry: 0 for a frame too short to hold tag and flags (R170). -/
def answerTag (payload : List Byte) : Byte := if payload.length < 2 then 0 else at8 payload 0

/-- A request frame, dealt with by the top state and the port state (R170): STARTING, NOTUP or a short-frame BADARG
through a control reply slot, otherwise admission. -/
def State.dealRequest (s : State) (k : ReqKind) (p : Port) (payload : List Byte) : State :=
  match s.startup.top, (s.port p).state with
  | .starting _, _ => s.slotAnswer p (.refusal (answerTag payload) .starting)
  | .running, .down => s.slotAnswer p (.refusal (answerTag payload) .notUp)
  | .running, .up =>
    if payload.length < 2 then s.slotAnswer p (.refusal 0 .badArg) else s.admitRequest p (readRequest k payload)

def State.takeRequest (s : State) (k : ReqKind) (p : Port) (seq : Byte) (payload : List Byte) : State :=
  s.takeMessage p k.code seq payload (fun s => s.dealRequest k p payload)

/-- READ (R1). -/
def execRead (p : Port) (seq : Byte) (payload : List Byte) (s : State) : Host.Outcome State Fault Refusal :=
  .next (s.takeRequest .read p seq payload).settle

/-- WRITE (R1). -/
def execWrite (p : Port) (seq : Byte) (payload : List Byte) (s : State) : Host.Outcome State Fault Refusal :=
  .next (s.takeRequest .write p seq payload).settle

/-- CSET (R2). -/
def execCset (p : Port) (seq : Byte) (payload : List Byte) (s : State) : Host.Outcome State Fault Refusal :=
  .next (s.takeRequest .cset p seq payload).settle

/-- SWAP (R2). -/
def execSwap (p : Port) (seq : Byte) (payload : List Byte) (s : State) : Host.Outcome State Fault Refusal :=
  .next (s.takeRequest .swap p seq payload).settle

/-- FADD (R2). -/
def execFadd (p : Port) (seq : Byte) (payload : List Byte) (s : State) : Host.Outcome State Fault Refusal :=
  .next (s.takeRequest .fadd p seq payload).settle

/-- PG-READ (R3). -/
def execPgRead (p : Port) (seq : Byte) (payload : List Byte) (s : State) : Host.Outcome State Fault Refusal :=
  .next (s.takeRequest .pgRead p seq payload).settle

/-- PG-PROG (R3). -/
def execPgProg (p : Port) (seq : Byte) (payload : List Byte) (s : State) : Host.Outcome State Fault Refusal :=
  .next (s.takeRequest .pgProg p seq payload).settle

/-- BLK-ERASE (R3). -/
def execBlkErase (p : Port) (seq : Byte) (payload : List Byte) (s : State) : Host.Outcome State Fault Refusal :=
  .next (s.takeRequest .blkErase p seq payload).settle

/-- NAND-ID (R3). -/
def execNandId (p : Port) (seq : Byte) (payload : List Byte) (s : State) : Host.Outcome State Fault Refusal :=
  .next (s.takeRequest .nandId p seq payload).settle

end Sys2Proof.Machine
end

