-- ==== Sys2Proof/Machine/Setup.lean ====
section
/-! DEFINITION. The start-up controller: the checking of a copy and the choice of the source (R189, R190), the walk of its entries (R191–R194), and the move to RUNNING (R195, R196). -/
namespace Sys2Proof.Machine

/-! ### The move to RUNNING -/

/-- The top state becomes RUNNING once the walk has ended, the SDRAM is not INITIALISING and no SD window is deferred; a
walk that has ended before that leaves the controller in SETTLE (R184, R195). -/
def State.tryRun (s : State) : State :=
  let u := s.startup
  match u.top, u.load, u.walk with
  | .starting _, none, none =>
    if s.sdram.state = .initialising ∨ u.deferred ≠ [] then s.setStartup { u with top := .starting .settle }
    else s.setStartup { u with top := .running, buffer := [], deferred := [] }
  | _, _, _ => s

/-! ### Judging a copy -/

/-- The record length of the header (R204). -/
def recordLength (d : List Byte) : Nat := field d 6 2

/-- Tests 4 to 7 of R189 on the bytes of the record buffer. -/
def recordReason (d : List Byte) : CopyReason :=
  if d.take 4 ≠ [0x5A, 0xC3, 0x24, 0x06] then .marker
  else if at8 d 4 ≠ 1 then .version
  else if recordLength d < 12 ∨ 512 < recordLength d then .length
  else if (crc32 (d.take (recordLength d - 4))).toNat ≠ field d (recordLength d - 4) 4 then .crc
  else .valid

/-- The seven tests for a copy read from NAND: the sector's result first (R189). -/
def sectorReason (r : SectorResult) (d : List Byte) : CopyReason :=
  match r with
  | .failed => .ecc
  | .erased => .erased
  | .clean | .corrected _ => recordReason d

/-- The result with a copy's reason recorded (R196). -/
def SetupResult.withReason (r : SetupResult) (second : Bool) (x : CopyReason) : SetupResult :=
  if second then { r with fallback := x } else { r with primary := x }

/-- The first read of the fallback copy (R187, R188): NOR chunks again, or the read command. -/
def fallbackLoad (l : Load) : Load :=
  { second := true, phase := if l.phase = .norChunks then .norChunks else .reading, chunk := 0 }

/-- A copy's reading has ended: a valid copy is the source and the walk begins; an invalid primary copy leads to the
fallback copy, whose bytes replace the primary's in the buffer as they are read; an invalid fallback copy leaves the
defaults (R190, R191). -/
def State.copyEnded (s : State) (l : Load) (x : CopyReason) : State :=
  let u := s.startup
  let r := u.result.withReason l.second x
  if x = .valid then
    let r := { r with source := if l.second then .fallback else .primary }
    let count := (at8 u.buffer 5).toNat
    (s.setStartup { u with
      top := .starting .apply, result := r, load := none
      walk := if count = 0 then none else some ⟨8, 0⟩ }).tryRun
  else if l.second then
    (s.setStartup { u with result := { r with source := .defaults }, load := none, buffer := [] }).tryRun
  else s.setStartup { u with result := r, load := some (fallbackLoad l) }

/-! ### The walk -/

/-- Types of the setup record's entries (R204). -/
inductive EntryType where
  | ports | slot | sdram | window | retire | unknown
  deriving DecidableEq, Repr

def entryTypeOf (b : Byte) : EntryType :=
  match b.toNat with
  | 1 => .ports | 2 => .slot | 3 => .sdram | 4 => .window | 5 => .retire | _ => .unknown

/-- The next entry of the walk: its type, its bytes, and whether its size is below 4 or runs past the entry area (R191). -/
structure NextEntry where
  type : EntryType
  bytes : List Byte
  broken : Bool
  index : Nat
  deriving DecidableEq, Repr

def State.nextEntry (s : State) : Option NextEntry :=
  match s.startup.walk with
  | none => none
  | some w =>
    let d := s.startup.buffer
    let size := (at8 d (w.pos + 1)).toNat
    some
      { type := entryTypeOf (at8 d w.pos), bytes := (d.drop w.pos).take size
        broken := decide (size < 4) || decide (recordLength d - 4 < w.pos + size), index := w.index }

/-- The size that an entry's type calls for (R191, R204); none where no size is allowed. -/
def expectedSize (t : EntryType) (d : List Byte) : Option Nat :=
  match t with
  | .ports => some 4
  | .slot => some 35
  | .sdram => some 19
  | .window => some 19
  | .retire => if (at8 d 3).toNat ≤ 32 then some (4 + 2 * (at8 d 3).toNat) else none
  | .unknown => none

/-- One entry counted applied (R196). -/
def State.countApplied (s : State) : State :=
  s.setStartup { s.startup with result := { s.startup.result with applied := s.startup.result.applied + 1 } }

/-- `n` entries counted skipped, the lowest of them at an index (R196). -/
def State.countSkipped (s : State) (n index : Nat) : State :=
  let r := s.startup.result
  let first := match r.firstSkipped with | some i => min i index | none => index
  s.setStartup { s.startup with result := { r with skipped := r.skipped + n, firstSkipped := some first } }

/-- An entry counted by its outcome. -/
def State.counted (s : State) (index : Nat) (applied : Bool) : State :=
  if applied then s.countApplied else s.countSkipped 1 index

/-- The walk goes on past an entry by its size, or ends after the last one (R191). -/
def State.advanceWalk (s : State) (size : Nat) : State :=
  match s.startup.walk with
  | none => s
  | some w =>
    let next := if w.index + 1 < (at8 s.startup.buffer 5).toNat then some ⟨w.pos + size, w.index + 1⟩ else none
    s.setStartup { s.startup with walk := next }

/-- A walk step on an entry of one type: it happens when the next entry is of that type and not broken. An entry of the
wrong size is skipped; otherwise `apply` deals with it (R191). -/
def State.walkStep (s : State) (t : EntryType) (apply : State → NextEntry → State) : State :=
  match s.nextEntry with
  | none => s
  | some e =>
    if e.broken = true ∨ e.type ≠ t then s
    else
      let s' := if expectedSize t e.bytes = some e.bytes.length then apply s e else s.countSkipped 1 e.index
      (s'.advanceWalk e.bytes.length).tryRun

/-- A code for granted or not granted. -/
def grantOfCode (b : Byte) : Option Bool :=
  match b.toNat with
  | 0 => some false | 1 => some true | _ => none

/-- PORTS (R192): both CONFIG rights are set. -/
def State.applyPorts (s : State) (e : NextEntry) : State :=
  match grantOfCode (at8 e.bytes 2), grantOfCode (at8 e.bytes 3) with
  | some ra, some rb =>
    ((s.setPort .a { s.port .a with config := ra }).setPort .b { (s.port .b) with config := rb }).countApplied
  | _, _ => s.countSkipped 1 e.index

/-- SLOT, judged as SLOT-SET (R192). -/
def State.applySlotEntry (s : State) (e : NextEntry) : State :=
  match s.judgeSlot (at8 e.bytes 2) (e.bytes.drop 3) with
  | .ok (c, f) => (s.applySlot c f).countApplied
  | .error _ => s.countSkipped 1 e.index

/-- SDRAM, judged as SDR-SET, with no reply held (R192). -/
def State.applySdramEntry (s : State) (e : NextEntry) : State :=
  match s.judgeSdr (e.bytes.drop 2) with
  | .ok t => (s.applySdr t none).countApplied
  | .error _ => s.countSkipped 1 e.index

/-- A window block judged and applied under R32 to R36, and counted (R192, R193). -/
def State.applyWindowBlock (s : State) (entry index : Nat) (d : List Byte) : State :=
  match s.judgeWindow index d with
  | .ok w => (s.setWindow index w).countApplied
  | .error _ => s.countSkipped 1 entry

/-- A deferred SD window of the same window index leaves the list and is counted skipped (R193). -/
def State.supersede (s : State) (index : Nat) : State :=
  match s.startup.deferred.find? (fun x => x.index == index) with
  | some x =>
    (s.countSkipped 1 x.entry).setStartup
      { (s.countSkipped 1 x.entry).startup with deferred := s.startup.deferred.filter (fun y => y.index != index) }
  | none => s

/-- WINDOW (R192, R193): an SD window with enabled 1 is deferred while the SDRAM is INITIALISING. -/
def State.applyWindowEntry (s : State) (e : NextEntry) : State :=
  let index := (at8 e.bytes 2).toNat
  let block := e.bytes.drop 3
  let s := s.supersede index
  if at8 block 0 = 1 ∧ slotOfCode (at8 block 1) = some .sd ∧ s.sdram.state = .initialising then
    s.setStartup { s.startup with deferred := s.startup.deferred ++ [⟨e.index, index, block⟩] }
  else s.applyWindowBlock e.index index block

/-- The blocks of a RETIRE entry, in the entry's order (R194). The Bool says whether each was inserted or already there. -/
def State.applyRetireBlocks (s : State) (code : Byte) : List Nat → State × Bool
  | [] => (s, true)
  | b :: bs =>
    match s.judgeRetire code b with
    | .ok c =>
      let s := if b ∈ s.retired.get c then s else s.addRetired c b
      s.applyRetireBlocks code bs
    | .error _ =>
      let (s', _) := s.applyRetireBlocks code bs
      (s', false)

/-- The block numbers of a RETIRE entry. -/
def retireBlocks (d : List Byte) : List Nat := (List.range (at8 d 3).toNat).map (fun i => field d (4 + 2 * i) 2)

/-- Whether a slot code names one of S1–S4 typed NAND (R194). -/
def State.namesNand (s : State) (code : Byte) : Bool :=
  match chipOfCode code with
  | some c => (s.profile c).type == .nand
  | none => false

/-- RETIRE (R194). -/
def State.applyRetireEntry (s : State) (e : NextEntry) : State :=
  if s.namesNand (at8 e.bytes 2) then
    let (s', all) := s.applyRetireBlocks (at8 e.bytes 2) (retireBlocks e.bytes)
    s'.counted e.index all
  else s.countSkipped 1 e.index

/-- Every entry of the deferred list is judged in record order, applied or skipped and counted, and the list becomes
empty (R193). -/
def State.applyDeferred (s : State) : State :=
  let l := s.startup.deferred
  let s := l.foldl (fun s x => s.applyWindowBlock x.entry x.index x.block) s
  s.setStartup { s.startup with deferred := [] }

/-- A walk step on an entry of unknown type, which is skipped by its size, or on one whose size is below 4 or runs past
the entry area, which ends the walk with it and every later entry counted skipped (R191). -/
def State.walkUnknown (s : State) : State :=
  match s.nextEntry with
  | none => s
  | some e =>
    if e.broken then
      let s' := s.countSkipped ((at8 s.startup.buffer 5).toNat - e.index) e.index
      (s'.setStartup { s'.startup with walk := none }).tryRun
    else if e.type = .unknown then ((s.countSkipped 1 e.index).advanceWalk e.bytes.length).tryRun
    else s

/-! ### The commands -/

/-- A PORTS entry is reached (R192). -/
def execSetupPortsEntry (s : State) : Host.Outcome State Fault Refusal :=
  .next (s.walkStep .ports State.applyPorts).settle

/-- A SLOT entry is reached (R192). -/
def execSetupSlotEntry (s : State) : Host.Outcome State Fault Refusal :=
  .next (s.walkStep .slot State.applySlotEntry).settle

/-- An SDRAM entry is reached (R192). -/
def execSetupSdramEntry (s : State) : Host.Outcome State Fault Refusal :=
  .next (s.walkStep .sdram State.applySdramEntry).settle

/-- A WINDOW entry is reached (R192, R193). -/
def execSetupWindowEntry (s : State) : Host.Outcome State Fault Refusal :=
  .next (s.walkStep .window State.applyWindowEntry).settle

/-- A RETIRE entry is reached (R194). -/
def execSetupRetireEntry (s : State) : Host.Outcome State Fault Refusal :=
  .next (s.walkStep .retire State.applyRetireEntry).settle

/-- An entry of unknown type, or one that ends the walk, is reached (R191). -/
def execSetupUnknownEntry (s : State) : Host.Outcome State Fault Refusal := .next s.walkUnknown.settle

end Sys2Proof.Machine
end

