-- ==== Sys2Proof/Machine/Tenures.lean ====
section
/-! DEFINITION. The ends of the transfer tenures: a chunk (R49, R57, R65, R78–R82, R107, R108), an atomic (R67, R83, R109), a chunk of the NOR setup load (R187), and the WAIT limit (R84–R86, R90). -/
namespace Sys2Proof.Machine

/-- The tenure in progress for one purpose, with the entry it serves. -/
def State.serving (s : State) (purpose : Purpose) : Option (Tenure × Entry) :=
  match s.arbiter.tenure with
  | some t => if t.purpose = purpose then (t.entry.bind (fun r => s.find r)).map (fun e => (t, e)) else none
  | none => none

/-- Whether the tenure in progress is for a purpose. -/
def State.inTenure (s : State) (purpose : Purpose) : Bool :=
  match s.arbiter.tenure with
  | some t => t.purpose == purpose
  | none => false

/-- Bytes of one beat of a static slot. -/
def Profile.beatBytes (f : Profile) : Nat := f.width / 8

/-! ### SDRAM tenures -/

/-- The engine at the start of an SD tenure: the tenure's work begins after its gap, and no earlier than 1 MCLK after MCKE
rose (R69, R100). -/
def State.sdStart (s : State) : SdTrace :=
  let start := match s.arbiter.tenure with | some t => t.start | none => s.now
  SdTrace.waitUntil { now := start, rows := s.sdram.rows, cycles := [] } (s.sdram.mckeRoseAt + 1)

/-- The end of an SD tenure: the row table it leaves is recorded (R106) and R57 is carried out. -/
def State.endSd (s : State) (write : Bool) (x : SdTrace) : State :=
  (s.setSdram { s.sdram with rows := x.rows }).endTenure write x.cycles

/-- The self-refresh timer restarts at the end of every entry tenure of SD (R98). -/
def State.restartSelfRefresh (s : State) : State :=
  s.setSdram { s.sdram with selfRefreshTimer := restart s.sdram.selfRefreshTimer, srReached := false }

/-! ### Chunks -/

/-- The bytes a chunk of a WRITE takes from staging (R49). -/
def State.chunkData (s : State) (e : Entry) : List Byte :=
  stagingRange s.pool.bytes e.segments e.moved e.chunkLength

/-- A READ chunk's bytes go to the staging bytes paired with their slot offsets (R49, R78, R107). -/
def State.stageChunk (s : State) (e : Entry) (w : Nat) (xs : List Sample) : State :=
  if e.kind = .write then s else s.stage e.segments e.moved (readBytes w e.current e.chunkLength xs)

/-- The bus work of a chunk on a static slot (R78, R79, R81). -/
def State.chunkCycles (s : State) (f : Profile) (e : Entry) (xs : List Sample) : List BusCycle :=
  let w := f.beatBytes
  let n := beatCount w e.current e.chunkLength
  if e.kind = .write then writeBeats f w e.current (s.chunkData e) xs 0 n false
  else readBeats f w e.current e.chunkLength xs n false

/-- The work of a chunk on SD (R107, R108). -/
def State.sdChunk (s : State) (e : Entry) (xs : List Sample) : SdTrace :=
  let u := s.sdram.settings
  if e.kind = .write then sdWriteChunk s.sdStart u e.current (s.chunkData e)
  else sdReadChunk s.sdStart u e.current e.chunkLength xs

/-- The data and the end of a chunk's tenure. -/
def State.moveChunk (s : State) (t : Tenure) (e : Entry) (xs : List Sample) : State :=
  match t.slot with
  | .chip c =>
    let f := s.profile c
    (s.stageChunk e f.beatBytes xs).endTenure (e.kind == .write) (s.chunkCycles f e xs)
  | .sd =>
    ((s.stageChunk e s.sdram.settings.beatBytes xs).endSd (e.kind == .write) (s.sdChunk e xs)).restartSelfRefresh

/-- The progress of an entry. -/
def State.setProgress (s : State) (r : Ref) (n : Nat) : State := s.updateEntry r (fun e => { e with progress := some n })

/-- The end of a static or SD entry's bus work: it leaves its queue and completes (R18, R26, R58). -/
def State.endWork (s : State) (e : Entry) (st : Status) : State := (s.dequeue e.slot e.ref).complete e.ref st

/-- The end of a chunk: progress rises by its bytes, and after the last one the entry completes with OK (R49, R57). -/
def State.chunkEnd (s : State) (xs : List Sample) : State :=
  match s.serving .chunk with
  | some (t, e) =>
    let s := (s.moveChunk t e xs).setProgress e.ref (e.moved + e.chunkLength)
    if e.moved + e.chunkLength = e.length then s.endWork e .ok else s
  | none => s

/-- The slot offset of the next chunk of a copy of the record (R186, R187). -/
def loadOffset (l : Load) : Nat := (if l.second then 65536 else 0) + 64 * l.chunk

/-- The record buffer with 64 bytes put at the place of chunk `k`; the other bytes stay until their own chunk is read
(R187, R190). -/
def putChunk (buffer : List Byte) (k : Nat) (d : List Byte) : List Byte :=
  buffer.take (64 * k) ++ d ++ buffer.drop (64 * (k + 1))

/-- The end of a chunk of the NOR setup load; after the eighth the copy is judged (R187, R189). -/
def State.loadChunkEnd (s : State) (xs : List Sample) : State :=
  match s.inTenure .loadChunk, s.startup.load with
  | true, some l =>
    let f := s.profile .s1
    let w := f.beatBytes
    let o := loadOffset l
    let buffer := putChunk s.startup.buffer l.chunk (readBytes w o 64 xs)
    let s := s.endTenure false (readBeats f w o 64 xs (beatCount w o 64) false)
    let s := s.setStartup { s.startup with buffer := buffer, load := some { l with chunk := l.chunk + 1 } }
    if l.chunk + 1 < 8 then s else s.copyEnded l (recordReason buffer)
  | _, _ => s

/-! ### Atomics -/

/-- What an atomic writes, as bytes, least significant first (R2, R83). -/
def Entry.newBytes (e : Entry) (w : Nat) (xs : List Sample) : Option (List Byte) :=
  (atomicResult e.kind e.length (oldValue w e.offset e.length xs) e.compare e.operand).map (leBytes e.length)

/-- The bus work of a whole atomic on a static slot: read beats, the recovery count idle, write beats (R83). -/
def atomicCycles (f : Profile) (e : Entry) (xs : List Sample) : List BusCycle :=
  let w := f.beatBytes
  let n := beatCount w e.offset e.length
  readBeats f w e.offset e.length xs n false ++
    match e.newBytes w xs with
    | some d => .idle f.recovery :: writeBeats f w e.offset d xs n n false
    | none => []

/-- The work of a whole atomic on SD (R109). -/
def State.sdAtomicWork (s : State) (e : Entry) (xs : List Sample) : SdTrace :=
  let u := s.sdram.settings
  sdAtomic s.sdStart u e.offset e.length xs (e.newBytes u.beatBytes xs)

/-- Bytes of one beat of any slot. -/
def State.beatBytes (s : State) : Slot → Nat
  | .chip c => (s.profile c).beatBytes
  | .sd => s.sdram.settings.beatBytes

/-- The end of an atomic's tenure: the old value is staged, and the last direction is write where a value was written
(R57, R83, R109). -/
def State.moveAtomic (s : State) (t : Tenure) (e : Entry) (xs : List Sample) : State :=
  let w := s.beatBytes t.slot
  let new := e.newBytes w xs
  let staged := s.stage e.segments 0 (readBytes w e.offset e.length xs)
  match t.slot with
  | .chip c => staged.endTenure new.isSome (atomicCycles (s.profile c) e xs)
  | .sd => (staged.endSd new.isSome (s.sdAtomicWork e xs)).restartSelfRefresh

/-- The end of an atomic: OK, or CMP-MISS where a CSET wrote nothing (R2, R67). -/
def State.atomicEnd (s : State) (xs : List Sample) : State :=
  match s.serving .atomic with
  | some (t, e) =>
    let st : Status := if (e.newBytes (s.beatBytes t.slot) xs).isSome then .ok else .cmpMiss
    ((s.moveAtomic t e xs).setProgress e.ref e.length).endWork e st
  | none => s

/-! ### The WAIT limit -/

/-- The beats of a tenure on a static slot: those of its chunk, or of both phases of its atomic (R78, R83). -/
def tenureBeats (f : Profile) (e : Entry) (xs : List Sample) : Nat :=
  let w := f.beatBytes
  if e.kind.isAtomic then
    let n := beatCount w e.offset e.length
    if (e.newBytes w xs).isSome then 2 * n else n
  else beatCount w e.current e.chunkLength

/-- The cycles of a tenure whose beat `k` reaches the limit, and whether that beat is a write (R79, R81, R83, R85). -/
def State.waitCycles (s : State) (f : Profile) (e : Entry) (k : Nat) (xs : List Sample) : Bool × List BusCycle :=
  let w := f.beatBytes
  let n := beatCount w e.offset e.length
  if e.kind.isAtomic then
    if k < n then (false, readBeats f w e.offset e.length xs k true)
    else
      (true, readBeats f w e.offset e.length xs n false ++
        .idle f.recovery :: writeBeats f w e.offset ((e.newBytes w xs).getD []) xs n (k - n) true)
  else if e.kind = .write then (true, writeBeats f w e.current (s.chunkData e) xs 0 k true)
  else (false, readBeats f w e.current e.chunkLength xs k true)

/-- The bytes of an entry's range in the completed beats of its tenure (R86); an atomic counts its read phase. -/
def waitBytes (f : Profile) (e : Entry) (k : Nat) : Nat :=
  let w := f.beatBytes
  if e.kind.isAtomic then bytesInBeats w e.offset e.length (min k (beatCount w e.offset e.length))
  else bytesInBeats w e.current e.chunkLength k

/-- The bytes that completed read beats put in staging (R78, R86). -/
def State.stageWaited (s : State) (f : Profile) (e : Entry) (k : Nat) (xs : List Sample) : State :=
  if e.kind = .write then s else s.stage e.segments e.moved (readBytes f.beatBytes e.current (waitBytes f e k) xs)

/-- The stall of R85 in its order: health, the tenure's end with the next grant, the entry, the flush, the notice. -/
def State.stall (s : State) (c : Chip) (e : Entry) (k : Nat) (xs : List Sample) : State :=
  let f := s.profile c
  let (write, cycles) := s.waitCycles f e k xs
  let s := (s.setHealth c .stalled).stageWaited f e k xs
  let s := (s.endTenure write cycles).grant
  let s := (s.setProgress e.ref (e.moved + waitBytes f e k)).endWork e .busTimeout
  (s.flush (.chip c)).postBoth (.slotStall c .wait)

/-- The chip, tenure and entry whose beat can reach the limit: a chunk or atomic on a static slot that samples WAIT (R80). -/
def State.waiting (s : State) : Option (Chip × Entry) :=
  match s.arbiter.tenure with
  | some t =>
    match t.slot, t.entry.bind (fun r => s.find r) with
    | .chip c, some e =>
      if (t.purpose = .chunk ∨ t.purpose = .atomic) ∧ (s.profile c).waitLimit ≠ 0 then some (c, e) else none
    | _, _ => none
  | none => none

/-- The WAIT limit is reached in the beat after `k` completed ones (R80, R85). -/
def State.waitLimit (s : State) (k : Nat) (xs : List Sample) : State :=
  match s.waiting with
  | some (c, e) => if k < tenureBeats (s.profile c) e xs then s.stall c e k xs else s
  | none => s

/-! ### The commands -/

/-- A chunk's tenure ends: of an entry (R49, R57), or of the NOR setup load (R187). -/
def execChunkEnd (xs : List Sample) (s : State) : Host.Outcome State Fault Refusal :=
  .next (if s.inTenure .loadChunk then s.loadChunkEnd xs else s.chunkEnd xs).settle

/-- An atomic's tenure ends (R67, R83, R109). -/
def execAtomicEnd (xs : List Sample) (s : State) : Host.Outcome State Fault Refusal := .next (s.atomicEnd xs).settle

/-- A beat reaches the WAIT limit after `k` completed ones (R85). -/
def execWaitLimitReached (k : Nat) (xs : List Sample) (s : State) : Host.Outcome State Fault Refusal :=
  .next (s.waitLimit k xs).settle

end Sys2Proof.Machine
end

