-- ==== Sys2Proof/Machine/Resets.lean ====
section
/-! DEFINITION. The full reset (R183 and every block's reset rule) and the port reset (R25, R156, R175, R180, R181). -/
namespace Sys2Proof.Machine

/-! ### The tenure that a full reset cuts off (R57) -/

/-- The cycle in progress at the reset: a beat that did not complete, whose bytes may or may not have been written. -/
def BusCycle.cutShort : BusCycle → BusCycle
  | .beat write a lanes d x y z _ => .beat write a lanes d x y z false
  | c => c

/-- The bus work of the chunk or atomic that a tenure makes, with the samples of its reads free (log entry 6). -/
def State.cutWork (s : State) (t : Tenure) (e : Entry) : List BusCycle :=
  match t.purpose, t.slot with
  | .chunk, .chip c => s.chunkCycles (s.profile c) e []
  | .chunk, .sd => (s.sdChunk e []).cycles
  | .atomic, .chip c => atomicCycles (s.profile c) e []
  | .atomic, .sd => (s.sdAtomicWork e []).cycles
  | _, _ => []

/-- A tenure's work cut off: `choice` cycles completed, counted within the work, and the next in progress. -/
def Tenure.cutAt (t : Tenure) (work : List BusCycle) (choice : Option Nat) : CutTenure :=
  match choice with
  | none => { tenure := t, done := [], current := none }
  | some k =>
    let n := k % work.length
    { tenure := t, done := work.take n, current := work[n]?.map BusCycle.cutShort }

/-- The tenure in progress, cut off (R57). How far it had got no row tells: it is a free choice (log entry 5). -/
def State.cutTenure (s : State) : Option CutTenure :=
  s.arbiter.tenure.map fun t =>
    let work := match t.entry.bind (fun r => s.find r) with | some e => s.cutWork t e | none => []
    t.cutAt work (Config.cutAfter s.fresh)

/-! ### The full reset -/

/-- The input levels that a MESSAGE reset finds: the straps at the levels that the last POWER_ON or RESET_PIN row carried,
for no row changes them otherwise (log entry 2), and a receive line that is high between characters may be low inside one
(R179, log entry 22). -/
def State.messagePins (s : State) : Pins :=
  let rxd := fun p => s.pins.rxd.get p && !Config.insideCharacter s.fresh p
  { s.pins with rxd := ⟨rxd .a, rxd .b⟩ }

/-- The full reset: every block at its full-reset values, the straps sampled from the pins, start-up begun (R27, R30, R43,
R56, R76, R116, R118, R139, R148, R156, R182, R183, R185, R196), and the tenure in progress cut off (R57). The staging
bytes stay on a PIN or MESSAGE reset and are unknown after power-on, where the model lists none (R54, log entry 4). A
tenure that is cut off has staged none of the data it read: the model stages data at the tenure's end (log entry 5). -/
def State.fullReset (s : State) (cause : Cause) (pins : Pins) : State :=
  let t := State.afterReset cause pins (if cause = .power then [] else s.pool.bytes) (s.fresh + 1) s.pending
  { t with arbiter := { t.arbiter with cut := s.cutTenure } }

/-- The full reset of a pending BRIDGE-RESET of port `p` (R181, R183). -/
def State.messageReset (s : State) (p : Port) : State := s.fullReset (.message p) s.messagePins

/-! ### The port reset -/

/-- What a port reset does to one entry: an ACTIVE one becomes ORPHANED, an ORPHANED one stays, the others are freed
(R25). -/
def Entry.afterPortReset (e : Entry) : Option Entry :=
  match e.state with
  | .active => some { e with state := .orphaned }
  | .orphaned => some e
  | .held | .queued | .replying => none

/-- The segments that a port reset releases: those of the entries it frees (R25, R53). -/
def resetSegments (es : List Entry) : List Nat :=
  (es.filter (fun e => e.afterPortReset.isNone)).flatMap (fun e => e.segments)

/-- A queue without the QUEUED entries of a port (R25, R58). -/
def State.queueAfterReset (s : State) (p : Port) (q : List Ref) : List Ref :=
  q.filter (fun r => !(r.port == p && s.isQueued r))

/-- Step 1 of a port reset: the port's entries, their queue places and their segments (R25, R53). The other port's entries
and its holding stay as they are. -/
def State.resetEntries (s : State) (p : Port) : State :=
  let es := s.entries p
  let q := s.arbiter.queues
  let f := s.queueAfterReset p
  let s := { s with
    arbiter := { s.arbiter with queues := ⟨⟨f q.chips.s1, f q.chips.s2, f q.chips.s3, f q.chips.s4⟩, f q.sd⟩ }
    pool := s.pool.release p (resetSegments es) }
  s.setEntries p (es.filterMap Entry.afterPortReset)

/-- A deferred reply of the port is marked as dropped (R175). -/
def dropFor (p : Port) (d : Option Deferred) : Option Deferred :=
  match d with
  | some x => if x.port = p then none else some x
  | none => none

def Context.dropReply (x : Context) (p : Port) : Context := { x with clearReply := dropFor p x.clearReply }

/-- Step 2 of a port reset (R175, R180). -/
def State.dropReplies (s : State) (p : Port) : State :=
  { s with
    sdram := { s.sdram with setReply := dropFor p s.sdram.setReply, sleepReply := dropFor p s.sdram.sleepReply }
    nand := ⟨s.nand.s1.dropReply p, s.nand.s2.dropReply p, s.nand.s3.dropReply p, s.nand.s4.dropReply p⟩ }

/-- Steps 3, 4 and 6 of a port reset: slots freed, ready list emptied, the frame being sent cut off, the port DOWN; a
receiver not in BREAK becomes HUNTING. The CONFIG right stays (R173, R180). -/
def PortUnit.reset (u : PortUnit) (cause : PortStart) : PortUnit :=
  { u with
    state := .down, expected := none, txSeq := 0, held := 0, overruns := 0, ready := [], tx := none, start := cause
    receiver := if u.receiver = .inBreak then .inBreak else .hunting }

/-- Step 5 of a port reset: queue emptied, lost count and next number 0 (R156). -/
def NoticeState.reset (n : NoticeState) : NoticeState := { n with queue := [], lost := 0, next := 0, onList := 0 }

/-- The port reset of R180, as one event: it releases no segment of the other port (R43, R53). A bridge reset pending from
this port is carried out at once (R181). -/
def State.portReset (s : State) (p : Port) (cause : PortStart) : State :=
  let s := (s.resetEntries p).dropReplies p
  let s := s.setPort p ((s.port p).reset cause)
  let s := { s with notices := s.notices.set p (s.notices.get p).reset }
  let s := s.post p.other (.peerReset p cause)
  if s.bridgeReset = some p then s.messageReset p else s

/-- What PORT_RESET and LINK_BREAK hold for an UP port: the port reset, and after it the examination of the NAND queue heads
that it has brought forward (R123, R180). The examination's place behind the seven steps is the model's choice (log entry
27); a PG-PROG that it completes releases its segments by its own completion (R18, R52). -/
def State.portResetStep (s : State) (p : Port) (cause : PortStart) : State := (s.portReset p cause).examineHeads

end Sys2Proof.Machine
end

