-- ==== Sys2Proof/Machine/Control.lean ====
section
/-! DEFINITION. The seventeen control messages (R21, R28, R31, R38, R71–R74, R88, R95, R104, R105, R137, R140, R141, R170–R175, R178, R181, R201, R202). -/
namespace Sys2Proof.Machine

/-! ### The way of a control message -/

/-- The token of a control message: 0 when the payload is empty (R170). -/
def answerToken (payload : List Byte) : Byte := at8 payload 0

/-- An answer of the port unit itself, through a control reply slot (R170, R174). -/
def State.unitAnswer (s : State) (k : CtrlKind) (p : Port) (payload : List Byte) (st : Status) : State :=
  s.slotAnswer p (.ctrl (answerToken payload) k st [])

/-- The body of a DENIED answer: WIN-SET's is made by the Window Unit and carries the index (R31, R202). -/
def deniedBody (k : CtrlKind) (payload : List Byte) : List Byte := if k = .winSet then [at8 payload 1] else []

/-- What a control message meets on an UP port in RUNNING before it reaches its owner: the free-slot test (R174), the
payload's length (R170, R201), the CONFIG right (R173). `none` means that it reaches its owner. -/
def State.stopped (s : State) (k : CtrlKind) (p : Port) (payload : List Byte) : Option State :=
  if s.slotFree p = false then some (s.overrun p)
  else if payload.length ≠ k.size then some (s.reply p (answerToken payload) k .badArg [])
  else if k.needsRight && !(s.port p).config then
    some (s.reply p (answerToken payload) k .denied (deniedBody k payload))
  else none

/-- A control message other than HELLO and PORT-RESET, dealt with by the top state and the port state (R170); `owner` is
what the owning block makes of it. -/
def State.dealControl (s : State) (k : CtrlKind) (p : Port) (payload : List Byte) (owner : State → State) : State :=
  match s.startup.top, (s.port p).state with
  | .starting _, _ => s.unitAnswer k p payload .starting
  | .running, .down => s.unitAnswer k p payload .notUp
  | .running, .up =>
    match s.stopped k p payload with
    | some s' => s'
    | none => owner s

def State.takeControl (s : State) (k : CtrlKind) (p : Port) (seq : Byte) (payload : List Byte)
    (owner : State → State) : State :=
  s.takeMessage p k.code seq payload (fun s => s.dealControl k p payload owner)

/-! ### HELLO, INFO, STATUS -/

/-- The body of a HELLO answer (R171, R202). -/
def State.helloBody (s : State) (p : Port) : List Byte :=
  let r := s.startup.result
  [1, s.startup.cause.code, (match (s.port p).state with | .up => 3 | .down => (s.port p).start.code),
    if (s.port p).config then 1 else 0, r.source.code, r.primary.code, r.fallback.code, byte r.applied, byte r.skipped,
    match r.firstSkipped with | some i => byte i | none => 0xFF]

/-- HELLO on an UP port: answered, nothing else changes (R171). -/
def State.helloUp (s : State) (p : Port) (payload : List Byte) : State :=
  s.reply p (answerToken payload) .hello .ok (s.helloBody p)

/-- HELLO on a DOWN port in RUNNING with a free slot: the port becomes UP, the expectation becomes SEQ + 1 (R171). -/
def State.helloDown (s : State) (p : Port) (seq : Byte) (payload : List Byte) : State :=
  let body := s.helloBody p
  (s.setPort p { s.port p with state := .up, expected := some (seq + 1) }).reply p (answerToken payload) .hello .ok body

/-- HELLO (R170, R171). An empty payload holds no token and is answered NOTUP on a DOWN port. -/
def State.dealHello (s : State) (p : Port) (seq : Byte) (payload : List Byte) : State :=
  match s.startup.top, (s.port p).state with
  | .running, .down =>
    if payload = [] then s.unitAnswer .hello p payload .notUp
    else if s.slotFree p then s.helloDown p seq payload
    else s.overrun p
  | _, _ => s.dealControl .hello p payload (fun s => s.helloUp p payload)

def State.takeHello (s : State) (p : Port) (seq : Byte) (payload : List Byte) : State :=
  s.takeMessage p CtrlKind.hello.code seq payload (fun s => s.dealHello p seq payload)

/-- The body of an INFO answer (R172, R202): the six characters KZ2406, as their ASCII values, for the manual names no
character code (log entry 30), the revision and the protocol version, the straps, the capacities. No rule gives a code for
MCLKSEL: 1 for high and 0 for low, and BOOT and BAUD as numbers from 0 to 3, are the model's choice (log entry 34). -/
def State.infoBody (s : State) : List Byte :=
  [0x4B, 0x5A, 0x32, 0x34, 0x30, 0x36, 1, 1, s.straps.boot.setWidth 8, s.straps.baud.setWidth 8,
    if s.straps.mclksel then 1 else 0, 32, 16, 64] ++ leBytes 2 256 ++ [8, 8, 8] ++ leBytes 2 4352

def State.infoAct (s : State) (p : Port) (payload : List Byte) : State :=
  s.reply p (answerToken payload) .info .ok s.infoBody

/-- Entries of a port in a state. -/
def State.countIn (s : State) (p : Port) (x : EntryState) : Nat := (s.entries p).countP (fun e => e.state == x)

/-- The six entry counts of a port in a STATUS body (R28, R202). -/
def State.entryCounts (s : State) (p : Port) : List Byte :=
  [byte (s.countIn p .held), byte (s.countIn p .queued), byte (s.countIn p .active), byte (s.countIn p .replying),
    byte (s.countIn p .orphaned), byte (s.entries p).length]

def State.slotStatus (s : State) (c : Chip) : List Byte := [(s.profile c).type.code, (s.health.get c).code]

/-- The STATUS body: one snapshot, the slot of this reply counted (R28, R202). -/
def State.statusBody (s : State) (p : Port) : List Byte :=
  let held : Port → Nat := fun q => (s.port q).held + if q = p then 1 else 0
  s.entryCounts .a ++ s.entryCounts .b ++
    [byte s.pool.free.length, byte s.pool.holding.a, byte s.pool.holding.b] ++
    s.slotStatus .s1 ++ s.slotStatus .s2 ++ s.slotStatus .s3 ++ s.slotStatus .s4 ++
    [s.sdram.state.code, byte s.sdram.debt] ++ leBytes 2 s.sdram.overruns ++
    [byte s.notices.a.queue.length] ++ leBytes 2 s.notices.a.lost ++
    [byte s.notices.b.queue.length] ++ leBytes 2 s.notices.b.lost ++
    leBytes 2 s.ports.a.overruns ++ leBytes 2 s.ports.b.overruns ++ [byte (held .a), byte (held .b)]

def State.statusAct (s : State) (p : Port) (payload : List Byte) : State :=
  s.reply p (answerToken payload) .status .ok (s.statusBody p)

/-! ### Windows -/

/-- WIN-SET at the Window Unit (R31–R36). -/
def State.winSetAct (s : State) (p : Port) (payload : List Byte) : State :=
  let index := (at8 payload 1).toNat
  match s.judgeWindow index (payload.drop 2) with
  | .ok w => (s.setWindow index w).reply p (answerToken payload) .winSet .ok [at8 payload 1]
  | .error st => s.reply p (answerToken payload) .winSet st [at8 payload 1]

/-- WIN-GET (R38). -/
def State.winGetAct (s : State) (p : Port) (payload : List Byte) : State :=
  match s.windows[(at8 payload 1).toNat]? with
  | some w => s.reply p (answerToken payload) .winGet .ok (at8 payload 1 :: w.block)
  | none => s.reply p (answerToken payload) .winGet .badArg []

/-! ### Slots -/

/-- SLOT-SET at the arbiter (R71, R72). -/
def State.slotSetAct (s : State) (p : Port) (payload : List Byte) : State :=
  match s.judgeSlot (at8 payload 1) (payload.drop 2) with
  | .ok (c, f) => (s.applySlot c f).reply p (answerToken payload) .slotSet .ok []
  | .error st => s.reply p (answerToken payload) .slotSet st []

/-- SLOT-GET (R74). -/
def State.slotGetAct (s : State) (p : Port) (payload : List Byte) : State :=
  match chipOfCode (at8 payload 1) with
  | some c =>
    s.reply p (answerToken payload) .slotGet .ok (at8 payload 1 :: (s.profile c).block ++ [(s.health.get c).code])
  | none => s.reply p (answerToken payload) .slotGet .badArg []

/-- The SLOT-CLEAR body: the slot and its health after the clear (R202). -/
def clearBody (c : Chip) (h : Health) : List Byte := [chipCode c, h.code]

/-- The clear of a STALLED NAND slot begins, its reply deferred in the slot it holds (R137, R175). Sectors left 0
and ready seen no are the model's choice (log entry 35). -/
def State.beginClear (s : State) (p : Port) (c : Chip) (token : Byte) : State :=
  ((s.setHealth c .clearing).setContext c
    { Context.idle with state := .clearing, op := some .reset, clearReply := some ⟨p, token⟩ }).holdSlot p

/-- SLOT-CLEAR (R88 for SRAM, NOR and OFF slots, R137 for NAND slots). -/
def State.slotClearAct (s : State) (p : Port) (payload : List Byte) : State :=
  let token := answerToken payload
  match chipOfCode (at8 payload 1) with
  | none => s.reply p token .slotClear .badArg []
  | some c =>
    if (s.profile c).type = .nand then
      match s.health.get c with
      | .ok => s.reply p token .slotClear .ok (clearBody c .ok)
      | .clearing => s.reply p token .slotClear .busy []
      | .stalled => s.beginClear p c token
    else (s.setHealth c .ok).reply p token .slotClear .ok (clearBody c .ok)

/-! ### SDRAM -/

/-- SDR-SET: accepted, the reply is deferred in the slot it holds (R95, R175). -/
def State.sdrSetAct (s : State) (p : Port) (payload : List Byte) : State :=
  match s.judgeSdr (payload.drop 1) with
  | .ok t => (s.applySdr t (some ⟨p, answerToken payload⟩)).holdSlot p
  | .error st => s.reply p (answerToken payload) .sdrSet st []

/-- SDR-GET (R105). -/
def State.sdrGetAct (s : State) (p : Port) (payload : List Byte) : State :=
  s.reply p (answerToken payload) .sdrGet .ok
    (s.sdram.settings.block ++ leBytes 4 s.sdram.settings.capacity ++
      [s.sdram.state.code, if s.sdram.sleepPending then 1 else 0])

/-- A self-refresh entry that falls due in POWERDOWN leaves it (R100, R101). -/
def State.wakeIfDue (s : State) : State :=
  if s.selfRefreshDue then s.setSdram (s.sdram.wake s.now) else s

/-- SDR-SLEEP (R104). -/
def State.sdrSleepAct (s : State) (p : Port) (payload : List Byte) : State :=
  let token := answerToken payload
  match s.sdram.state with
  | .uninit | .initialising => s.reply p token .sdrSleep .notReady []
  | .selfRefresh => s.reply p token .sdrSleep .ok []
  | .ready | .powerdown =>
    if s.sdram.sleepPending || !(s.queue .sd).isEmpty then s.reply p token .sdrSleep .busy []
    else ((s.setSdram { s.sdram with sleepPending := true, sleepReply := some ⟨p, token⟩ }).holdSlot p).wakeIfDue

/-! ### Retired blocks -/

/-- RETIRE-ADD: the insertion is followed by the head examination, ahead of the answer (R140). -/
def State.retireAddAct (s : State) (p : Port) (payload : List Byte) : State :=
  let block := field payload 2 2
  match s.judgeRetire (at8 payload 1) block with
  | .ok c =>
    let s' := if block ∈ s.retired.get c then s else (s.addRetired c block).examine c
    s'.reply p (answerToken payload) .retireAdd .ok []
  | .error st => s.reply p (answerToken payload) .retireAdd st []

/-- The NAND slot that a retired-list message names (R141). -/
def State.nandSlot (s : State) (code : Byte) : Option Chip :=
  (chipOfCode code).bind (fun c => if (s.profile c).type = .nand then some c else none)

/-- RETIRE-DROP (R141). -/
def State.retireDropAct (s : State) (p : Port) (payload : List Byte) : State :=
  let block := field payload 2 2
  match s.nandSlot (at8 payload 1) with
  | none => s.reply p (answerToken payload) .retireDrop .badArg []
  | some c =>
    if block ∈ s.retired.get c then
      (s.setRetired c ((s.retired.get c).filter (fun b => b != block))).reply p (answerToken payload) .retireDrop .ok []
    else s.reply p (answerToken payload) .retireDrop .notFound []

/-- RETIRE-LIST (R141). -/
def State.retireListAct (s : State) (p : Port) (payload : List Byte) : State :=
  match s.nandSlot (at8 payload 1) with
  | none => s.reply p (answerToken payload) .retireList .badArg []
  | some c =>
    let l := s.retired.get c
    s.reply p (answerToken payload) .retireList .ok (at8 payload 1 :: byte l.length :: l.flatMap (leBytes 2))

/-! ### CANCEL and the resets -/

/-- A HELD or QUEUED entry is cancelled: it leaves its queue, completes with CANCELLED, the fences are evaluated, and a
NAND queue's new head is examined (R21, R123). -/
def State.cancelEntry (s : State) (e : Entry) : State :=
  let s := if e.state = .queued then s.dequeue e.slot e.ref else s
  let s := s.complete e.ref .cancelled
  match e.slot with
  | .chip c => s.examine c
  | .sd => s

/-- CANCEL (R21). -/
def State.cancelAct (s : State) (p : Port) (payload : List Byte) : State :=
  let token := answerToken payload
  match s.find ⟨p, at8 payload 1⟩ with
  | none => s.reply p token .cancel .notFound []
  | some e =>
    match e.state with
    | .held | .queued => (s.cancelEntry e).reply p token .cancel .ok []
    | .active | .replying | .orphaned => s.reply p token .cancel .tooLate []

/-- BRIDGE-RESET (R181). -/
def State.bridgeResetAct (s : State) (p : Port) (payload : List Byte) : State :=
  match s.bridgeReset with
  | none => { s with bridgeReset := some p }.reply p (answerToken payload) .bridgeReset .ok []
  | some _ => s.reply p (answerToken payload) .bridgeReset .busy []

/-- PORT-RESET (R178): on an UP port in RUNNING any payload of 1 byte or more resets the port, with no answer and no free
slot needed. -/
def State.dealPortReset (s : State) (p : Port) (payload : List Byte) : State :=
  match s.startup.top, (s.port p).state with
  | .starting _, _ => s.unitAnswer .portReset p payload .starting
  | .running, .down => s.unitAnswer .portReset p payload .notUp
  | .running, .up =>
    if payload = [] then s.unitAnswer .portReset p payload .badArg else s.portResetStep p .message

def State.takePortReset (s : State) (p : Port) (seq : Byte) (payload : List Byte) : State :=
  s.takeMessage p CtrlKind.portReset.code seq payload (fun s => s.dealPortReset p payload)

/-! ### The commands -/

/-- HELLO (R171). -/
def execHello (p : Port) (seq : Byte) (payload : List Byte) (s : State) : Host.Outcome State Fault Refusal :=
  .next (s.takeHello p seq payload).settle

/-- INFO (R172). -/
def execInfo (p : Port) (seq : Byte) (payload : List Byte) (s : State) : Host.Outcome State Fault Refusal :=
  .next (s.takeControl .info p seq payload (fun s => s.infoAct p payload)).settle

/-- STATUS (R28). -/
def execStatus (p : Port) (seq : Byte) (payload : List Byte) (s : State) : Host.Outcome State Fault Refusal :=
  .next (s.takeControl .status p seq payload (fun s => s.statusAct p payload)).settle

/-- WIN-SET (R31). -/
def execWinSet (p : Port) (seq : Byte) (payload : List Byte) (s : State) : Host.Outcome State Fault Refusal :=
  .next (s.takeControl .winSet p seq payload (fun s => s.winSetAct p payload)).settle

/-- WIN-GET (R38). -/
def execWinGet (p : Port) (seq : Byte) (payload : List Byte) (s : State) : Host.Outcome State Fault Refusal :=
  .next (s.takeControl .winGet p seq payload (fun s => s.winGetAct p payload)).settle

/-- SLOT-SET (R71). -/
def execSlotSet (p : Port) (seq : Byte) (payload : List Byte) (s : State) : Host.Outcome State Fault Refusal :=
  .next (s.takeControl .slotSet p seq payload (fun s => s.slotSetAct p payload)).settle

/-- SLOT-GET (R74). -/
def execSlotGet (p : Port) (seq : Byte) (payload : List Byte) (s : State) : Host.Outcome State Fault Refusal :=
  .next (s.takeControl .slotGet p seq payload (fun s => s.slotGetAct p payload)).settle

/-- SLOT-CLEAR (R88, R137). -/
def execSlotClear (p : Port) (seq : Byte) (payload : List Byte) (s : State) : Host.Outcome State Fault Refusal :=
  .next (s.takeControl .slotClear p seq payload (fun s => s.slotClearAct p payload)).settle

/-- SDR-SET (R95). -/
def execSdrSet (p : Port) (seq : Byte) (payload : List Byte) (s : State) : Host.Outcome State Fault Refusal :=
  .next (s.takeControl .sdrSet p seq payload (fun s => s.sdrSetAct p payload)).settle

/-- SDR-GET (R105). -/
def execSdrGet (p : Port) (seq : Byte) (payload : List Byte) (s : State) : Host.Outcome State Fault Refusal :=
  .next (s.takeControl .sdrGet p seq payload (fun s => s.sdrGetAct p payload)).settle

/-- SDR-SLEEP (R104). -/
def execSdrSleep (p : Port) (seq : Byte) (payload : List Byte) (s : State) : Host.Outcome State Fault Refusal :=
  .next (s.takeControl .sdrSleep p seq payload (fun s => s.sdrSleepAct p payload)).settle

/-- RETIRE-ADD (R140). -/
def execRetireAdd (p : Port) (seq : Byte) (payload : List Byte) (s : State) : Host.Outcome State Fault Refusal :=
  .next (s.takeControl .retireAdd p seq payload (fun s => s.retireAddAct p payload)).settle

/-- RETIRE-DROP (R141). -/
def execRetireDrop (p : Port) (seq : Byte) (payload : List Byte) (s : State) : Host.Outcome State Fault Refusal :=
  .next (s.takeControl .retireDrop p seq payload (fun s => s.retireDropAct p payload)).settle

/-- RETIRE-LIST (R141). -/
def execRetireList (p : Port) (seq : Byte) (payload : List Byte) (s : State) : Host.Outcome State Fault Refusal :=
  .next (s.takeControl .retireList p seq payload (fun s => s.retireListAct p payload)).settle

/-- CANCEL (R21). -/
def execCancel (p : Port) (seq : Byte) (payload : List Byte) (s : State) : Host.Outcome State Fault Refusal :=
  .next (s.takeControl .cancel p seq payload (fun s => s.cancelAct p payload)).settle

/-- PORT-RESET (R178). -/
def execPortReset (p : Port) (seq : Byte) (payload : List Byte) (s : State) : Host.Outcome State Fault Refusal :=
  .next (s.takePortReset p seq payload).settle

/-- BRIDGE-RESET (R181). -/
def execBridgeReset (p : Port) (seq : Byte) (payload : List Byte) (s : State) : Host.Outcome State Fault Refusal :=
  .next (s.takeControl .bridgeReset p seq payload (fun s => s.bridgeResetAct p payload)).settle

end Sys2Proof.Machine
end

