-- ==== Sys2Proof/Machine/Line.lean ====
section
/-! DEFINITION. The pins and lines: power and RESET# (R183), the receiver (R164–R167), breaks (R179), HOLD# and the end of a frame (R177). -/
namespace Sys2Proof.Machine

/-! ### Receiver -/

/-- A frame is dropped: the receiver hunts again and FRAME-DROP is posted to the port (R166). -/
def State.dropFrame (s : State) (p : Port) (r : DropReason) : State :=
  (s.setPort p { s.port p with receiver := .hunting }).post p (.frameDrop r)

/-- The judging of a complete frame, the bytes after 0xC3 (R167). A frame that is taken waits for its message row. -/
def State.judgeFrame (s : State) (p : Port) (d : List Byte) : State :=
  let len := field d 0 2
  let body := d.take (4 + len)
  if (crc16 body).toNat ≠ field d (4 + len) 2 then s.dropFrame p .crc
  else if at8 d 3 ∉ knownKinds then s.dropFrame p .kind
  else
    s.setPort p { s.port p with
      receiver := .hunting
      arrived := (s.port p).arrived ++ [⟨at8 d 3, at8 d 2, (d.drop 4).take len⟩] }

/-- A character taken by the receiver (R166). -/
def State.receive (s : State) (p : Port) (c : Byte) : State :=
  let u := { s.port p with gapTime := 0 }
  match u.receiver with
  | .inBreak => s
  | .hunting => s.setPort p { u with receiver := if c = 0xC3 then .inFrame [] else .hunting }
  | .inFrame d =>
    let d := d ++ [c]
    if d.length = 2 ∧ 4352 < field d 0 2 then s.dropFrame p .length
    else if 2 ≤ d.length ∧ d.length = field d 0 2 + 6 then s.judgeFrame p d
    else s.setPort p { u with receiver := .inFrame d }

/-- The level of a port's receive line. -/
def State.setRxd (s : State) (p : Port) (level : Bool) : State :=
  { s with pins := { s.pins with rxd := s.pins.rxd.set p level } }

/-- In BREAK no character is received (R166, R179), nor is one while the line has stayed low since a bad stop bit: no new
start bit is taken until RXD has been high (R164). Otherwise the line is high after a good stop bit and low after a bad
one, and the 8 data bits are taken either way (R164). -/
def State.character (s : State) (p : Port) (c : Byte) (stop : Bool) : State :=
  if (s.port p).receiver = .inBreak ∨ s.pins.rxd.get p = false then s else (s.setRxd p stop).receive p c

/-- A gap over 500 µs inside a frame (R166); gaps while HUNTING are not timed. -/
def State.gapTimeout (s : State) (p : Port) : State :=
  match (s.port p).receiver with
  | .inFrame _ => s.dropFrame p .timeout
  | _ => s

/-- A break of 1000 µs: the receiver enters BREAK, and an UP port is reset with cause BREAK (R179). -/
def State.breakTaken (s : State) (p : Port) : State :=
  if (s.port p).receiver = .inBreak then s
  else
    let s := s.setRxd p false
    let s := s.setPort p { s.port p with receiver := .inBreak }
    match (s.port p).state with
    | .up => s.portResetStep p .brk
    | .down => s

/-- RXD rises: a receiver in BREAK hunts (R179). -/
def State.rxdHigh (s : State) (p : Port) : State :=
  let s := s.setRxd p true
  if (s.port p).receiver = .inBreak then s.setPort p { s.port p with receiver := .hunting } else s

/-! ### Transmitter -/

/-- The end effects of an item whose last byte has left TXD (R19, R161, R174, R177, R181). -/
def State.itemSent (s : State) (p : Port) : Item → State
  | .entryReply tag => s.freeEntry ⟨p, tag⟩
  | .refusal _ _ => s.setPort p { s.port p with held := (s.port p).held - 1 }
  | .ctrl _ k st _ =>
    let s := s.setPort p { s.port p with held := (s.port p).held - 1 }
    if k = .bridgeReset ∧ st = .ok ∧ s.bridgeReset = some p then s.messageReset p else s
  | .notice _ _ =>
    let n := s.notices.get p
    { s with notices := s.notices.set p { n with onList := n.onList - 1 } }.moveNotice p

/-- The last byte of a frame leaves TXD: the item leaves the list and its end effects are taken (R176, R177). -/
def State.frameSent (s : State) (p : Port) : State :=
  match (s.port p).tx, (s.port p).ready with
  | some _, i :: rest => (s.setPort p { s.port p with tx := none, ready := rest }).itemSent p i
  | _, _ => s

/-- HOLD# takes a level (R177). -/
def State.setHold (s : State) (p : Port) (level : Bool) : State :=
  { s with pins := { s.pins with hold := s.pins.hold.set p level } }

/-! ### The commands -/

/-- Power arrives: a full reset with cause POWER (R183). -/
def execPowerOn (pins : Pins) (s : State) : Host.Outcome State Fault Refusal :=
  .next (s.fullReset .power pins).settle

/-- RESET# is taken low and rises: a full reset with cause PIN (R183), which also ends a pending bridge reset (R181). -/
def execResetPin (pins : Pins) (s : State) : Host.Outcome State Fault Refusal :=
  .next (s.fullReset .pin pins).settle

/-- A character arrives on RXD (R164, R166, R167). -/
def execCharacterReceived (p : Port) (c : Byte) (stop : Bool) (s : State) : Host.Outcome State Fault Refusal :=
  .next (s.character p c stop).settle

/-- The gap between characters passes 500 µs (R166). -/
def execFrameGapTimeout (p : Port) (s : State) : Host.Outcome State Fault Refusal := .next (s.gapTimeout p).settle

/-- RXD has been low for 1000 µs (R179, R180). -/
def execLinkBreak (p : Port) (s : State) : Host.Outcome State Fault Refusal := .next (s.breakTaken p).settle

/-- RXD rises (R179). -/
def execRxdRise (p : Port) (s : State) : Host.Outcome State Fault Refusal := .next (s.rxdHigh p).settle

/-- HOLD# changes (R177). -/
def execHoldChange (p : Port) (level : Bool) (s : State) : Host.Outcome State Fault Refusal :=
  .next (s.setHold p level).settle

/-- The last byte of a frame leaves TXD (R177). -/
def execFrameSent (p : Port) (s : State) : Host.Outcome State Fault Refusal := .next (s.frameSent p).settle

end Sys2Proof.Machine
end

