-- ==== Sys2Proof/Machine/Nand.lean ====
section
/-! DEFINITION. The NAND engine: the ends of its tenures (R124–R129, R134), the ready lines and busy timers (R130, R131), timeout, recovery and clearing (R133–R137), automatic retirement (R142) and the NAND setup load (R155, R188). -/
namespace Sys2Proof.Machine

/-! ### Helpers -/

/-- The NAND slot whose tenure is in progress for a purpose. -/
def State.nandTenure (s : State) (purpose : Purpose) : Option Chip :=
  match s.arbiter.tenure with
  | some t =>
    match t.slot with
    | .chip c => if t.purpose = purpose then some c else none
    | .sd => none
  | none => none

/-- The level of a slot's ready line. -/
def State.setReady (s : State) (c : Chip) (level : Bool) : State :=
  { s with pins := { s.pins with ready := s.pins.ready.set c level } }

/-- The context becomes IDLE with no entry and its timer stopped, and the next head is examined (R123, R125, R127, R129, R134).
The rules give its operation, sectors left, ready seen and reset issued no values then: none, 0, no and no are the model's
choice, after a ready rise too (R131; log entry 35). -/
def State.idleContext (s : State) (c : Chip) : State := (s.setContext c Context.idle).examine c

/-- The end of an operation: the entry completes while the context still holds it, then the context becomes IDLE and the
next head is examined (R125, R127, R129). -/
def State.endOperation (s : State) (c : Chip) (r : Ref) (st : Status) : State := (s.complete r st).idleContext c

/-- A list cut to `n` bytes; a byte that the command does not give is free (log entry 6). -/
def dataBytes (n : Nat) (d : List Byte) : List Byte := (List.range n).map (fun i => (d[i]?).getD (Config.openData i))

/-! ### The setup load (R188) -/

/-- The end of a reset of the load, by rise or expiry: the read command is due, or, after a timeout, the copy has ended
with reason TIMEOUT, which enters the setup result here and not at the expiry that R188 finds it at (log entry 32). -/
def State.loadResetDone (s : State) : State :=
  let s := s.setContext .s1 Context.idle
  match s.startup.load with
  | some l =>
    if l.phase = .timeoutReset then s.copyEnded l .timeout
    else s.setStartup { s.startup with load := some { l with phase := .reading } }
  | none => s

/-- The end of the load's unloading tenure: the sector decoded under H1 gives the buffer its 512 bytes, and the copy is
judged (R155, R188, R189). -/
def State.loadSectorEnd (s : State) (l : Load) (raw : List Byte) : State :=
  let (r, bytes, used) := decodeSector .h1 (Config.beyondRange s.fresh) raw
  let s := (s.endTenure false (unloadingCycles (s.profile .s1) 0 raw)).setContext .s1 Context.idle
  let s := { s with fresh := if used then s.fresh + 1 else s.fresh, ecc := eccDecoded .s1 .h1 false raw r }
  let s := s.setStartup { s.startup with buffer := bytes.take 512 }
  s.copyEnded l (sectorReason r (bytes.take 512))

/-- The block that a copy of the record lies in (R186). -/
def loadBlock (l : Load) : Nat := if l.second then 1 else 0

/-! ### Ready lines and the busy timer -/

/-- A clear ends with a health and the deferred answer in the slot it holds (R137, R175). -/
def State.endClear (s : State) (c : Chip) (h : Health) (st : Status) : State :=
  ((s.setHealth c h).setContext c Context.idle).deferredReply (s.context c).clearReply .slotClear st (clearBody c h)

/-- The ready rise is taken: the timer stops and ready seen becomes yes; a reset ends (R131, R134, R137, R188). -/
def State.takeRise (s : State) (c : Chip) : State :=
  match (s.context c).state with
  | .recovering => if s.startup.loads c then s.loadResetDone else s.idleContext c
  | .clearing => s.endClear c .ok .ok
  | _ => s.setContext c { s.context c with timer := none, readySeen := true }

/-- The busy timer is armed with a limit at a tenure's end; a line that is high then is a rise taken at once (R130, R131). -/
def State.arm (s : State) (c : Chip) (limit : Nat) (ready : Bool) : State :=
  let s := s.setReady c ready
  let s := s.setContext c { s.context c with timer := some ⟨limit, 0⟩, readySeen := false }
  if ready then s.takeRise c else s

/-- The ready line of a slot rises; a rise while the timer is stopped has no effect on the context (R131). -/
def State.readyRise (s : State) (c : Chip) : State :=
  let s := s.setReady c true
  if (s.context c).timer.isSome then s.takeRise c else s

/-! ### Tenure ends -/

/-- The read and erase command tenures (R124, R128, R188). -/
def State.commandEnd (s : State) (ready : Bool) : State :=
  match s.nandTenure .nandCommand with
  | none => s
  | some c =>
    let f := s.profile c
    match s.contextEntry c, (s.context c).op with
    | some e, some .erase => (s.endTenure true (eraseCommandCycles f e.block)).arm c f.eraseLimit ready
    | some e, _ => (s.endTenure true (readCommandCycles f e.block e.page)).arm c f.readLimit ready
    | none, _ =>
      let block := match s.startup.load with | some l => loadBlock l | none => 0
      (s.endTenure true (readCommandCycles f block 0)).arm c f.readLimit ready

/-- The entry's sectors done rise by one (R124, R126). -/
def Entry.sectorDone (e : Entry) : Entry := { e with progress := some (e.moved + 1) }

/-- A loading tenure; after the last the program's busy period begins (R126, R149, R150). -/
def State.loadingEnd (s : State) (ready : Bool) : State :=
  match s.nandTenure .nandLoad with
  | none => s
  | some c =>
    match s.contextEntry c with
    | none => s
    | some e =>
      let f := s.profile c
      let x := s.context c
      let last := x.left == 1
      let sector := loadSector f.ecc e.raw (s.stagedSector e e.moved)
      let s := s.endTenure true (loadingCycles f e.block e.page (e.moved == 0) last sector)
      let s := (s.updateEntry e.ref Entry.sectorDone).setContext c
        { x with left := x.left - 1, state := if last then .busy else .loading }
      if last then s.arm c f.programLimit ready else s

/-- An entry with one more sector result and sector done (R125). -/
def Entry.unloaded (e : Entry) (r : SectorResult) : Entry := { e.sectorDone with sectors := e.sectors ++ [r] }

/-- An unloading tenure; after the last the PG-READ completes with the status of its results (R124, R125, R151–R154). -/
def State.unloadingEnd (s : State) (bytes : List Byte) : State :=
  match s.nandTenure .nandUnload with
  | none => s
  | some c =>
    let raw := dataBytes 528 bytes
    match s.contextEntry c, s.startup.load with
    | some e, _ =>
      let f := s.profile c
      let x := s.context c
      let (r, out, used) := unloadSector f.ecc e.raw (Config.beyondRange s.fresh) raw
      let s := s.endTenure false (unloadingCycles f (e.firstSector + e.moved) raw)
      let s := { s with fresh := if used then s.fresh + 1 else s.fresh, ecc := eccDecoded c f.ecc e.raw raw r }
      let s := (s.stage e.segments (e.moved * 528) out).updateEntry e.ref (fun e => e.unloaded r)
      let s := s.setContext c { x with left := x.left - 1 }
      if x.left = 1 then s.endOperation c e.ref (readStatus (e.sectors ++ [r]) f.threshold) else s
    | none, some l => if c = .s1 then s.loadSectorEnd l raw else s
    | none, none => s

/-- Automatic retirement after a failed program or erase: the list, and the notice that is posted later (R142). -/
def State.autoRetire (s : State) (c : Chip) (block : Nat) : State × Option Notice :=
  if block ∈ s.retired.get c then (s, none)
  else if (s.retired.get c).length < 32 then (s.addRetired c block, some (.blockRetired c block))
  else (s, some (.retireFull c block))

/-- A notice to both ports, if there is one (R158). -/
def State.postSome (s : State) (x : Option Notice) : State :=
  match x with
  | some n => s.postBoth n
  | none => s

/-- The status tenure: OK, or NANDFAIL after the block's retirement; then the context and the next head; then the notice
(R127, R142). -/
def State.statusEnd (s : State) (b : Byte) : State :=
  match s.nandTenure .nandStatus with
  | none => s
  | some c =>
    match s.contextEntry c with
    | none => s
    | some e =>
      let s := s.endTenure false (statusCycles b)
      if b.getLsbD 0 then
        let (s', notice) := s.autoRetire c e.block
        (s'.endOperation c e.ref .nandFail).postSome notice
      else s.endOperation c e.ref .ok

/-- The read-ID tenure: 8 bytes to staging, and OK (R48, R129). -/
def State.idEnd (s : State) (bytes : List Byte) : State :=
  match s.nandTenure .nandId with
  | none => s
  | some c =>
    match s.contextEntry c with
    | none => s
    | some e =>
      let d := dataBytes 8 bytes
      ((s.stage e.segments 0 d).endTenure false (idCycles d)).endOperation c e.ref .ok

/-- The reset tenure: reset issued becomes yes and the timer is armed with the reset limit (R134, R137, R188). -/
def State.resetEnd (s : State) (ready : Bool) : State :=
  match s.nandTenure .nandReset with
  | none => s
  | some c =>
    let s := s.endTenure true resetCycles
    (s.setContext c { s.context c with resetIssued := true }).arm c (s.profile c).resetLimit ready

/-! ### Timeouts -/

/-- The context that runs the reset of a timeout (R133, R188). Sectors left 0 and ready seen no are the model's choice, for
neither rule gives them (log entry 35). -/
def Context.recover (x : Context) : Context :=
  { x with state := .recovering, entry := none, op := some .reset, left := 0, timer := none, readySeen := false, resetIssued := false }

/-- The busy timer of a BUSY context expires (R133): NANDTIMEOUT, RECOVERING, the notice to the entry's port. -/
def State.busyTimeout (s : State) (c : Chip) : State :=
  let x := s.context c
  match x.state, x.timer, x.entry, x.op with
  | .busy, some _, some r, some op =>
    let s := s.complete r .nandTimeout
    (s.setContext c (s.context c).recover).post r.port (.nandTimeout c r.tag op)
  | _, _, _, _ => s

/-- The reset limit of a RECOVERING context expires: the slot stalls and is flushed, with SLOT-STALL to both ports (R135).
A reset of the setup load ends as R188 gives, and not here. -/
def State.recoveryExpiry (s : State) (c : Chip) : State :=
  let x := s.context c
  if x.state = .recovering ∧ x.timer.isSome ∧ s.startup.loads c = false then
    (((s.setHealth c .stalled).setContext c Context.idle).flush (.chip c)).postBoth (.slotStall c .nandReset)
  else s

/-- The reset limit of a CLEARING context expires: STALLED again, with STILLBUSY (R137). -/
def State.clearExpiry (s : State) (c : Chip) : State :=
  if (s.context c).state = .clearing ∧ (s.context c).timer.isSome then s.endClear c .stalled .stillBusy else s

/-- The busy timer of the load expires: a reset ends, or the copy has timed out and a reset is made (R188). The notice is
posted to both ports, which are DOWN; there is no entry, and its tag is given as 0. -/
def State.loadTimeout (s : State) : State :=
  let x := s.context .s1
  match s.startup.load, x.timer with
  | some l, some _ =>
    match x.state with
    | .recovering => s.loadResetDone
    | .busy =>
      let s := s.setContext .s1 x.recover
      let s := s.setStartup { s.startup with load := some { l with phase := .timeoutReset } }
      s.postBoth (.nandTimeout .s1 0 .read)
    | _ => s
  | _, _ => s

/-! ### The commands -/

/-- A command tenure ends, with the level of the slot's ready line then (R124, R128). -/
def execNandCommandEnd (ready : Bool) (s : State) : Host.Outcome State Fault Refusal := .next (s.commandEnd ready).settle

/-- A loading tenure ends (R126). -/
def execLoadingTenureEnd (ready : Bool) (s : State) : Host.Outcome State Fault Refusal := .next (s.loadingEnd ready).settle

/-- An unloading tenure ends, with the bytes the device presented (R125). -/
def execUnloadingTenureEnd (bytes : List Byte) (s : State) : Host.Outcome State Fault Refusal :=
  .next (s.unloadingEnd bytes).settle

/-- A status tenure ends (R127). -/
def execStatusTenureEnd (b : Byte) (s : State) : Host.Outcome State Fault Refusal := .next (s.statusEnd b).settle

/-- A read-ID tenure ends (R129). -/
def execIdTenureEnd (bytes : List Byte) (s : State) : Host.Outcome State Fault Refusal := .next (s.idEnd bytes).settle

/-- A reset tenure ends (R134, R137, R188). -/
def execResetTenureEnd (ready : Bool) (s : State) : Host.Outcome State Fault Refusal := .next (s.resetEnd ready).settle

/-- A ready line rises (R131). -/
def execNandReadyRise (c : Chip) (s : State) : Host.Outcome State Fault Refusal := .next (s.readyRise c).settle

/-- A BUSY context's timer expires (R133). -/
def execNandTimeout (c : Chip) (s : State) : Host.Outcome State Fault Refusal := .next (s.busyTimeout c).settle

/-- A RECOVERING context's timer expires (R135). -/
def execRecoveryResetExpiry (c : Chip) (s : State) : Host.Outcome State Fault Refusal := .next (s.recoveryExpiry c).settle

/-- A CLEARING context's timer expires (R137). -/
def execClearResetExpiry (c : Chip) (s : State) : Host.Outcome State Fault Refusal := .next (s.clearExpiry c).settle

/-- The setup load's busy timer expires (R188). -/
def execLoadBusyTimeout (s : State) : Host.Outcome State Fault Refusal := .next s.loadTimeout.settle

end Sys2Proof.Machine
end

