-- ==== Sys2Proof/Machine/Sdram.lean ====
section
/-! DEFINITION. The SDRAM engine's own events: refresh expiry (R112, R113), POWERDOWN (R99), the idle timers (R98, R101), and the ends of its refresh, self-refresh and initialisation tenures (R96, R97, R102, R103, R114). -/
namespace Sys2Proof.Machine

/-! ### Refresh -/

/-- A refresh timer expiry: the next interval begins at once; the debt rises, waking the SDRAM from POWERDOWN, or at debt
8 the overrun count rises and REFRESH-OVERRUN is posted (R112, R113). A stopped timer does not expire (R115). -/
def State.refreshExpiry (s : State) : State :=
  let d := s.sdram
  match d.refreshTimer with
  | none => s
  | some _ =>
    if d.debt < 8 then s.setSdram ({ d with refreshTimer := some 0, debt := d.debt + 1 }.wake s.now)
    else (s.setSdram { d with refreshTimer := some 0, overruns := countUp d.overruns }).postBoth (.refreshOverrun d.debt)

/-- The refreshes that the refresh round in progress pays. -/
def State.roundDebt (s : State) : Option Nat :=
  match s.arbiter.tenure with
  | some t => match t.purpose with | .refreshRound n => some n | _ => none
  | none => none

/-- The end of a refresh round (R114). -/
def State.refreshRoundEnd (s : State) : State :=
  match s.roundDebt with
  | some n => s.endSd true (sdRefreshRound s.sdStart s.sdram.settings n)
  | none => s

/-! ### Power-down and self-refresh -/

/-- No SD tenure is in progress. -/
def State.sdIdle (s : State) : Bool :=
  match s.arbiter.tenure with
  | some t => t.slot != .sd
  | none => true

/-- The conditions of R99: READY with the timer at its threshold, the SD queue empty, no SD tenure, every bank closed, debt
0, and no self-refresh entry due. With its queue empty an entry is due as soon as the self-refresh timer's count stands at
the threshold, whether or not SELF_REFRESH_TIMER has been taken yet (R101). -/
def State.canPowerDown (s : State) : Bool :=
  s.sdram.state == .ready && s.sdram.powerDownTimerReached && (s.queue .sd).isEmpty && s.sdIdle &&
    s.sdram.allClosed && s.sdram.debt == 0 && !(s.selfRefreshDue || s.sdram.selfRefreshTimerReached)

/-- POWERDOWN is entered, in which MCKE is low (`SdState.mcke`); the power-down timer does not run there (R98, R99). -/
def State.enterPowerDown (s : State) : State :=
  if s.canPowerDown then s.setSdram { s.sdram with state := .powerdown, powerDownTimer := none } else s

/-- The self-refresh timer has reached a non-zero threshold in READY or POWERDOWN; a self-refresh entry that falls due leaves
POWERDOWN (R98, R100, R101). Below the threshold nothing happens: a join that restarted the timer first has made the entry
not fall due (R115). -/
def State.selfRefreshReached (s : State) : State :=
  let d := s.sdram
  if (d.state = .ready ∨ d.state = .powerdown) ∧ d.selfRefreshTimerReached = true then
    (s.setSdram { d with srReached := true }).wakeIfDue
  else s

/-- The refreshes that the self-refresh entry in progress pays. -/
def State.entryDebt (s : State) : Option Nat :=
  match s.arbiter.tenure with
  | some t => match t.purpose with | .selfRefreshEntry n => some n | _ => none
  | none => none

/-- The engine in SELFREFRESH: idle timers stopped, no sleep pending (R94, R102). -/
def Sdram.asleep (d : Sdram) : Sdram :=
  { d with state := .selfRefresh, powerDownTimer := none, selfRefreshTimer := none, srReached := false, sleepPending := false
           sleepReply := none }

/-- The end of the self-refresh entry: SELFREFRESH from READY, and a pending SDR-SLEEP is answered (R94, R102, R104). An
SDR-SET taken during the tenure has left READY, and INITIALISING stays (log entry 23). -/
def State.selfRefreshEntryEnd (s : State) : State :=
  match s.entryDebt with
  | some n =>
    let reply := s.sdram.sleepReply
    let s := s.endSd true (sdSelfRefreshEntry s.sdStart s.sdram.settings n)
    if s.sdram.state = .ready then (s.setSdram s.sdram.asleep).deferredReply reply .sdrSleep .ok [] else s
  | none => s

/-- READY as it is entered from INITIALISING or SELFREFRESH: the refresh timer and both idle timers start from 0
(R97, R98, R103, R112). -/
def Sdram.started (d : Sdram) : Sdram :=
  { d with state := .ready, debt := 0, rows := d.rows.map (fun _ => none), refreshTimer := some 0, powerDownTimer := some 0
           selfRefreshTimer := some 0, srReached := false }

/-- The end of the self-refresh exit (R94, R103). MCKE rose when the tenure's work began. As for the entry, INITIALISING
stays (log entry 23). -/
def State.selfRefreshExitEnd (s : State) : State :=
  if s.inTenure .selfRefreshExit then
    let x := s.sdStart
    let s := s.endSd true (sdSelfRefreshExit x s.sdram.settings)
    if s.sdram.state = .selfRefresh then s.setSdram { s.sdram.started with mckeRoseAt := x.now } else s
  else s

/-! ### Initialisation -/

/-- The stabilisation wait ends, and the precharge step falls due (R96). -/
def State.stabilised (s : State) : State :=
  if s.sdram.init = .waiting then s.setSdram { s.sdram with init := .precharge } else s

/-- The precharge step ends, and the refresh step falls due (R96). -/
def State.prechargeStepEnd (s : State) : State :=
  if s.inTenure .initPrecharge then
    let s := s.endSd true (sdInitPrecharge s.sdStart s.sdram.settings)
    s.setSdram { s.sdram with init := .refresh }
  else s

/-- The refresh step ends, and the mode step falls due (R96). -/
def State.refreshStepEnd (s : State) : State :=
  if s.inTenure .initRefresh then
    let s := s.endSd true (sdInitRefresh s.sdStart s.sdram.settings)
    s.setSdram { s.sdram with init := .mode }
  else s

/-- In STARTING the deferred windows of the setup record are applied and the move to RUNNING is tried (R97, R193, R195). -/
def State.settleStartup (s : State) : State :=
  match s.startup.top with
  | .starting _ => s.applyDeferred.tryRun
  | .running => s

/-- The mode step ends: READY, and the deferred SDR-SET reply or the deferred windows (R97). -/
def State.modeStepEnd (s : State) : State :=
  if s.inTenure .initMode then
    let reply := s.sdram.setReply
    let s := s.endSd true (sdInitMode s.sdStart s.sdram.settings)
    let s := s.setSdram { s.sdram.started with init := .none, setReply := none }
    (s.deferredReply reply .sdrSet .ok []).settleStartup
  else s

/-! ### The commands -/

/-- The refresh timer expires (R113). -/
def execRefreshExpiry (s : State) : Host.Outcome State Fault Refusal := .next s.refreshExpiry.settle

/-- A refresh round ends (R114). -/
def execRefreshRoundEnd (s : State) : Host.Outcome State Fault Refusal := .next s.refreshRoundEnd.settle

/-- The power-down timer reaches its threshold with the other conditions of R99, or the last of them comes to hold. -/
def execPowerdownEntry (s : State) : Host.Outcome State Fault Refusal := .next s.enterPowerDown.settle

/-- The self-refresh timer reaches its threshold (R98, R101). -/
def execSelfRefreshTimer (s : State) : Host.Outcome State Fault Refusal := .next s.selfRefreshReached.settle

/-- The self-refresh entry tenure ends (R102). -/
def execSelfRefreshEntryEnd (s : State) : Host.Outcome State Fault Refusal := .next s.selfRefreshEntryEnd.settle

/-- The self-refresh exit tenure ends (R103). -/
def execSelfRefreshExitEnd (s : State) : Host.Outcome State Fault Refusal := .next s.selfRefreshExitEnd.settle

/-- The stabilisation wait of 200 µs ends (R96). -/
def execStabilisationWaitEnd (s : State) : Host.Outcome State Fault Refusal := .next s.stabilised.settle

/-- The precharge step's tenure ends (R96). -/
def execPrechargeStepEnd (s : State) : Host.Outcome State Fault Refusal := .next s.prechargeStepEnd.settle

/-- The refresh step's tenure ends (R96). -/
def execRefreshStepEnd (s : State) : Host.Outcome State Fault Refusal := .next s.refreshStepEnd.settle

/-- The mode step's tenure ends (R97). -/
def execModeStepEnd (s : State) : Host.Outcome State Fault Refusal := .next s.modeStepEnd.settle

end Sys2Proof.Machine
end

