-- ==== Sys2Proof/Machine/Dispatch.lean ====
section
/-! DEFINITION. The meaning of each command, one arm per row of the operation table. -/
namespace Sys2Proof.Machine

def exec (i : Instr) (s : State) : Host.Outcome State Fault Refusal :=
  match i with
  | .powerOn pins => Sys2Proof.Machine.execPowerOn pins s
  | .resetPin pins => Sys2Proof.Machine.execResetPin pins s
  | .characterReceived p c stop => Sys2Proof.Machine.execCharacterReceived p c stop s
  | .frameGapTimeout p => Sys2Proof.Machine.execFrameGapTimeout p s
  | .linkBreak p => Sys2Proof.Machine.execLinkBreak p s
  | .rxdRise p => Sys2Proof.Machine.execRxdRise p s
  | .holdChange p level => Sys2Proof.Machine.execHoldChange p level s
  | .frameSent p => Sys2Proof.Machine.execFrameSent p s
  | .read p seq payload => Sys2Proof.Machine.execRead p seq payload s
  | .write p seq payload => Sys2Proof.Machine.execWrite p seq payload s
  | .cset p seq payload => Sys2Proof.Machine.execCset p seq payload s
  | .swap p seq payload => Sys2Proof.Machine.execSwap p seq payload s
  | .fadd p seq payload => Sys2Proof.Machine.execFadd p seq payload s
  | .pgRead p seq payload => Sys2Proof.Machine.execPgRead p seq payload s
  | .pgProg p seq payload => Sys2Proof.Machine.execPgProg p seq payload s
  | .blkErase p seq payload => Sys2Proof.Machine.execBlkErase p seq payload s
  | .nandId p seq payload => Sys2Proof.Machine.execNandId p seq payload s
  | .hello p seq payload => Sys2Proof.Machine.execHello p seq payload s
  | .info p seq payload => Sys2Proof.Machine.execInfo p seq payload s
  | .status p seq payload => Sys2Proof.Machine.execStatus p seq payload s
  | .winSet p seq payload => Sys2Proof.Machine.execWinSet p seq payload s
  | .winGet p seq payload => Sys2Proof.Machine.execWinGet p seq payload s
  | .slotSet p seq payload => Sys2Proof.Machine.execSlotSet p seq payload s
  | .slotGet p seq payload => Sys2Proof.Machine.execSlotGet p seq payload s
  | .slotClear p seq payload => Sys2Proof.Machine.execSlotClear p seq payload s
  | .sdrSet p seq payload => Sys2Proof.Machine.execSdrSet p seq payload s
  | .sdrGet p seq payload => Sys2Proof.Machine.execSdrGet p seq payload s
  | .sdrSleep p seq payload => Sys2Proof.Machine.execSdrSleep p seq payload s
  | .retireAdd p seq payload => Sys2Proof.Machine.execRetireAdd p seq payload s
  | .retireDrop p seq payload => Sys2Proof.Machine.execRetireDrop p seq payload s
  | .retireList p seq payload => Sys2Proof.Machine.execRetireList p seq payload s
  | .cancel p seq payload => Sys2Proof.Machine.execCancel p seq payload s
  | .portReset p seq payload => Sys2Proof.Machine.execPortReset p seq payload s
  | .bridgeReset p seq payload => Sys2Proof.Machine.execBridgeReset p seq payload s
  | .chunkEnd samples => Sys2Proof.Machine.execChunkEnd samples s
  | .atomicEnd samples => Sys2Proof.Machine.execAtomicEnd samples s
  | .waitLimitReached completed samples => Sys2Proof.Machine.execWaitLimitReached completed samples s
  | .nandCommandEnd ready => Sys2Proof.Machine.execNandCommandEnd ready s
  | .loadingTenureEnd ready => Sys2Proof.Machine.execLoadingTenureEnd ready s
  | .unloadingTenureEnd bytes => Sys2Proof.Machine.execUnloadingTenureEnd bytes s
  | .statusTenureEnd statusByte => Sys2Proof.Machine.execStatusTenureEnd statusByte s
  | .idTenureEnd bytes => Sys2Proof.Machine.execIdTenureEnd bytes s
  | .resetTenureEnd ready => Sys2Proof.Machine.execResetTenureEnd ready s
  | .nandReadyRise c => Sys2Proof.Machine.execNandReadyRise c s
  | .nandTimeout c => Sys2Proof.Machine.execNandTimeout c s
  | .recoveryResetExpiry c => Sys2Proof.Machine.execRecoveryResetExpiry c s
  | .clearResetExpiry c => Sys2Proof.Machine.execClearResetExpiry c s
  | .loadBusyTimeout => Sys2Proof.Machine.execLoadBusyTimeout s
  | .refreshExpiry => Sys2Proof.Machine.execRefreshExpiry s
  | .refreshRoundEnd => Sys2Proof.Machine.execRefreshRoundEnd s
  | .powerdownEntry => Sys2Proof.Machine.execPowerdownEntry s
  | .selfRefreshTimer => Sys2Proof.Machine.execSelfRefreshTimer s
  | .selfRefreshEntryEnd => Sys2Proof.Machine.execSelfRefreshEntryEnd s
  | .selfRefreshExitEnd => Sys2Proof.Machine.execSelfRefreshExitEnd s
  | .stabilisationWaitEnd => Sys2Proof.Machine.execStabilisationWaitEnd s
  | .prechargeStepEnd => Sys2Proof.Machine.execPrechargeStepEnd s
  | .refreshStepEnd => Sys2Proof.Machine.execRefreshStepEnd s
  | .modeStepEnd => Sys2Proof.Machine.execModeStepEnd s
  | .setupPortsEntry => Sys2Proof.Machine.execSetupPortsEntry s
  | .setupSlotEntry => Sys2Proof.Machine.execSetupSlotEntry s
  | .setupSdramEntry => Sys2Proof.Machine.execSetupSdramEntry s
  | .setupWindowEntry => Sys2Proof.Machine.execSetupWindowEntry s
  | .setupRetireEntry => Sys2Proof.Machine.execSetupRetireEntry s
  | .setupUnknownEntry => Sys2Proof.Machine.execSetupUnknownEntry s

end Sys2Proof.Machine
end

