-- ==== Sys2Proof/Machine/Lines.lean ====
section
/-! DEFINITION. The lines of the memory bus over a tenure: those of each cycle and of the idle time between (R69, R77–R83, R93, R119), and the levels of MCKE and of the chip selects in a state (R55, R94, R102, R103, R116). -/
namespace Sys2Proof.Machine

/-! ### Cycles -/

/-- MCLK of one bus cycle: a static beat its parts (R79), an SDRAM command 1 (R93), a NAND cycle 4 (R119). -/
def BusCycle.mclk : BusCycle → Nat
  | .beat _ _ _ _ a b c _ => a + b + c
  | .sd _ => 1
  | .nand _ => 4
  | .idle n => n

/-- MCLK of a tenure's work. -/
def tenureMclk (cs : List BusCycle) : Nat := (cs.map BusCycle.mclk).sum

/-- The lines in MCLK `i` of a cycle of a slot with profile `f`. Idle time in a tenure of SD holds MSELD# high (R93). -/
def BusCycle.lines (k : Slot) (f : Profile) (x : BusCycle) (i : Nat) : BusLines :=
  match x with
  | .beat write address lanes data setup strobe _ _ => beatLines k write address lanes data setup strobe i
  | .sd c => c.lines
  | .nand y => y.lines k i
  | .idle _ => (BusLines.selected k).idle k f

/-- The cycle that stands in MCLK `m` of a tenure's work, and which MCLK of it that is. -/
def cycleAt : List BusCycle → Nat → Option (BusCycle × Nat)
  | [], _ => none
  | x :: rest, m => if m < x.mclk then some (x, m) else cycleAt rest (m - x.mclk)

/-- The cycles of a tenure's work that have begun by its MCLK `m`. -/
def cyclesBegun : List BusCycle → Nat → List BusCycle
  | [], _ => []
  | x :: rest, m => if m < x.mclk then [x] else x :: cyclesBegun rest (m - x.mclk)

/-- The lines of a tenure, MCLK `m` from its grant: the bus is held idle for the recovery gap (R69), then the work is done,
and after it every chip select is high (R55, R79). -/
def Tenure.lines (t : Tenure) (f : Profile) (work : List BusCycle) (m : Nat) : BusLines :=
  if m < t.gap then BusLines.rest.idle t.slot f
  else
    match cycleAt work (m - t.gap) with
    | some (x, i) => x.lines t.slot f i
    | none => BusLines.rest

/-! ### The SDRAM's lines in a state -/

/-- The work of an SD tenure in progress. The samples that its end will bring are free until then, and with them whether an
atomic goes on to its write phase (log entry 6). -/
def State.sdWork (s : State) (t : Tenure) : List BusCycle :=
  let g := s.sdram.settings
  let e := t.entry.bind (fun r => s.find r)
  match t.purpose with
  | .chunk => (e.map (fun e => (s.sdChunk e []).cycles)).getD []
  | .atomic => (e.map (fun e => (s.sdAtomicWork e []).cycles)).getD []
  | .refreshRound n => (sdRefreshRound s.sdStart g n).cycles
  | .initPrecharge => (sdInitPrecharge s.sdStart g).cycles
  | .initRefresh => (sdInitRefresh s.sdStart g).cycles
  | .initMode => (sdInitMode s.sdStart g).cycles
  | .selfRefreshEntry n => (sdSelfRefreshEntry s.sdStart g n).cycles
  | .selfRefreshExit => (sdSelfRefreshExit s.sdStart g).cycles
  | .nandCommand | .nandLoad | .nandUnload | .nandStatus | .nandId | .nandReset | .loadChunk => []

/-- The MCLK of the tenure in progress, counted from its grant. -/
def State.tenureTime (s : State) (t : Tenure) : Nat := s.now + t.gap - t.start

/-- The level of MCKE: that of the SDRAM's state (R94), but high from the beginning of a self-refresh exit's work (R103),
and low from the SELF REFRESH command of an entry on (R102). -/
def State.mcke (s : State) : Bool :=
  match s.arbiter.tenure with
  | some t =>
    match t.purpose with
    | .selfRefreshExit => s.sdram.state.mcke || decide (s.sdStart.now ≤ s.now)
    | .selfRefreshEntry _ =>
      s.sdram.state.mcke && !(s.sdram.state == .ready && decide (t.start ≤ s.now) &&
        (cyclesBegun (s.sdWork t) (s.now - t.start)).contains (.sd .enterSelfRefresh))
    | _ => s.sdram.state.mcke
  | none => s.sdram.state.mcke

/-- MSELD# is low in the MCLK of a command of the SDRAM engine and high outside commands: in a tenure's gap and waits, in a
self-refresh exit, and whenever no SD tenure is in progress (R55, R93, R96, R99, R103, R116). -/
def State.mseldHigh (s : State) : Bool :=
  match s.arbiter.tenure with
  | some t =>
    match t.slot with
    | .sd => (t.lines Profile.off (s.sdWork t) (s.tenureTime t)).mseld
    | .chip _ => true
  | none => true

/-- The level of a chip select of S1–S4: low while a tenure of its slot is at work, and high otherwise (R79, R119). -/
def State.mselHigh (s : State) (c : Chip) : Bool :=
  match s.arbiter.tenure with
  | some t => t.slot != .chip c || decide (s.now < t.start)
  | none => true

end Sys2Proof.Machine
end

