-- ==== Sys2Proof/Safety.lean ====
section
/-! DEFINITION. What holds of the part at all times, as the manual states it law by law. Each is a condition on one state. -/
namespace Sys2Proof.Machine

/-- R6, R7, R197: at most 16 entries of a port, every one under its port, no two with the same tag. -/
def State.TableLaw (s : State) : Prop :=
  ∀ p, (s.entries p).length ≤ 16 ∧ ((s.entries p).map Entry.tag).Nodup ∧ ∀ e ∈ s.entries p, e.port = p

/-- The segments that the entries of a port hold. -/
def State.heldSegments (s : State) (p : Port) : List Nat := (s.entries p).flatMap Entry.segments

/-- R43: each of the 64 segments is free or held by exactly one entry, the free ones are in ascending order, the holdings
count the entries' segments, and the free segments never number fewer than the two unused reserves together. -/
def State.PoolLaw (s : State) : Prop :=
  (s.pool.free ++ (s.heldSegments .a ++ s.heldSegments .b)).Perm (List.range 64) ∧
    s.pool.free.Pairwise (· < ·) ∧
    (∀ p, s.pool.holding.get p = (s.heldSegments p).length) ∧
    unusedReserve s.pool.holding.a + unusedReserve s.pool.holding.b ≤ s.pool.free.length

/-- R29, R30, R36: a disabled window holds 0 in every field; an enabled one has the form of R32. -/
def Window.Formed (w : Window) : Prop :=
  w = Window.off ∨
    (w.enabled = true ∧ isPow2 12 27 w.size = true ∧ w.base % w.size = 0 ∧ w.base + w.size ≤ 2 ^ 32 ∧
      w.offset % 4096 = 0 ∧ w.target.isSome)

/-- Two windows' ranges share no address (R34). -/
def Window.Apart (x y : Window) : Prop := x.overlaps y = false

/-- R29, R34: eight windows, well formed, no two of them overlapping. -/
def State.WindowLaw (s : State) : Prop :=
  s.windows.length = 8 ∧ (∀ w ∈ s.windows, w.Formed) ∧ s.windows.Pairwise Window.Apart

/-- R33, R34: the target of an enabled window is an SRAM or NOR slot or an initialised SD, and the window lies within its
capacity. -/
def State.TargetLaw (s : State) : Prop :=
  ∀ w ∈ s.windows, w.enabled = true →
    ∃ k, w.target = some k ∧ s.targetStatus k = none ∧ w.offset + w.size ≤ s.slotCapacity k

/-- R94: the debt is at most 8, and 0 outside READY; the refresh timer runs only in READY and POWERDOWN; and a
self-refresh entry on the bus has stopped the timer and taken the debt (R102). -/
def State.DebtLaw (s : State) : Prop :=
  s.sdram.debt ≤ 8 ∧ (s.sdram.state ≠ .ready → s.sdram.debt = 0) ∧
    (s.sdram.state = .uninit ∨ s.sdram.state = .initialising ∨ s.sdram.state = .selfRefresh → s.sdram.refreshTimer = none) ∧
    (s.entryDebt.isSome → s.sdram.debt = 0 ∧ s.sdram.refreshTimer = none)

/-- R139: every retired-block list is in strictly ascending order and holds at most 32 blocks. -/
def State.RetiredLaw (s : State) : Prop :=
  ∀ c, (s.retired.get c).Pairwise (· < ·) ∧ (s.retired.get c).length ≤ 32

/-- R139: the list of a slot not typed NAND is empty, and every listed block is one of the slot's. -/
def State.ListPlaceLaw (s : State) : Prop :=
  ∀ c, ((s.profile c).type ≠ .nand → s.retired.get c = []) ∧ ∀ b ∈ s.retired.get c, b < (s.profile c).blockCount

/-- An entry that a slot queue may name (R58). -/
def EntryState.waitsOrWorks (x : EntryState) : Prop := x = .queued ∨ x = .active ∨ x = .orphaned

/-- An entry whose bus work has begun and not ended. -/
def EntryState.works (x : EntryState) : Prop := x = .active ∨ x = .orphaned

/-- R58, R111: a slot queue names no entry twice, and only QUEUED, ACTIVE and ORPHANED entries of its slot; every QUEUED
entry is in its slot's queue; each entry of the SD queue carries a bypass count from 0 to 4. -/
def State.QueueLaw (s : State) : Prop :=
  (∀ k, (s.queue k).Nodup ∧ ∀ r ∈ s.queue k, ∃ e, s.find r = some e ∧ e.slot = k ∧ e.state.waitsOrWorks) ∧
    (∀ p, ∀ e ∈ s.entries p, e.state = .queued → e.ref ∈ s.queue e.slot) ∧
    ∀ r ∈ s.queue .sd, ∃ e n, s.find r = some e ∧ e.bypass = some n ∧ n ≤ 4

/-- R10, R11, R71: an entry not yet answered is of a NAND kind exactly when its slot is typed NAND, and then its block is one
of the slot's. -/
def State.KindLaw (s : State) : Prop :=
  ∀ p, ∀ e ∈ s.entries p, e.state ≠ .replying →
    match e.slot with
    | .chip c =>
      (e.kind.isNand = true ↔ (s.profile c).type = .nand) ∧ (e.kind.isNand = true → e.block < (s.profile c).blockCount)
    | .sd => e.kind.isNand = false

/-- R17, R64, R122: a context serves an entry of its own slot and of a NAND kind that works and has left the queue; the
tenure of a chunk or an atomic serves one of another kind that works and stands in its slot's queue. -/
def State.WorkLaw (s : State) : Prop :=
  (∀ c r, (s.context c).entry = some r → r ∉ s.queue (.chip c) ∧
    ∃ e, s.find r = some e ∧ e.slot = .chip c ∧ e.kind.isNand = true ∧ e.state.works) ∧
    ∀ t r, s.arbiter.tenure = some t → t.entry = some r → t.purpose = .chunk ∨ t.purpose = .atomic →
      r ∈ s.queue t.slot ∧ ∃ e, s.find r = some e ∧ e.kind.isNand = false ∧ e.state.works

/-- The tag of an entry's REPLY (R176). -/
def Item.replyTag : Item → Option Byte
  | .entryReply tag => some tag
  | .refusal _ _ | .ctrl _ _ _ _ | .notice _ _ => none

/-- R24: an entry's REPLY stands once on its port's ready list, and the entry is REPLYING. -/
def State.ReplyLaw (s : State) : Prop :=
  ∀ p, ((s.port p).ready.filterMap Item.replyTag).Nodup ∧
    ∀ tag, Item.entryReply tag ∈ (s.port p).ready → ∃ e, s.find ⟨p, tag⟩ = some e ∧ e.state = .replying

/-- A notice frame (R156). -/
def Item.isNotice : Item → Bool
  | .notice _ _ => true
  | .entryReply _ | .refusal _ _ | .ctrl _ _ _ _ => false

/-- R156, R159, R160: at most 8 queued notices and 2 on the ready list, where they are counted; no notice waits on a port
without one on its ready list, nor on a DOWN port; a lost count is held only beside a full queue. -/
def State.NoticeLaw (s : State) : Prop :=
  ∀ p, (s.notices.get p).queue.length ≤ 8 ∧ (s.notices.get p).onList ≤ 2 ∧
    (s.notices.get p).onList = (s.port p).ready.countP Item.isNotice ∧
    ((s.port p).state = .down → (s.notices.get p).queue = []) ∧
    ((s.notices.get p).onList = 0 → (s.notices.get p).queue = []) ∧
    (0 < (s.notices.get p).lost → (s.notices.get p).queue.length = 8)

/-- The items of a ready list that hold a control reply slot (R174). -/
def Item.holdsSlot : Item → Bool
  | .refusal _ _ | .ctrl _ _ _ _ => true
  | .entryReply _ | .notice _ _ => false

/-- One deferred reply of a port, or none. -/
def deferredOf (p : Port) (d : Option Deferred) : Nat :=
  match d with
  | some x => if x.port = p then 1 else 0
  | none => 0

/-- The deferred replies that a port's slots hold (R175). -/
def State.deferredCount (s : State) (p : Port) : Nat :=
  deferredOf p s.sdram.setReply + deferredOf p s.sdram.sleepReply + deferredOf p s.nand.s1.clearReply +
    deferredOf p s.nand.s2.clearReply + deferredOf p s.nand.s3.clearReply + deferredOf p s.nand.s4.clearReply

/-- R174, R175: the slots held are those of the answers on the ready list and of the deferred replies, at most 8. -/
def State.SlotLaw (s : State) : Prop :=
  ∀ p, (s.port p).held = (s.port p).ready.countP Item.holdsSlot + s.deferredCount p ∧ (s.port p).held ≤ 8

/-- R95, R104, R137: a deferred reply is owed only while its operation runs: initialisation, a pending SDR-SLEEP, or the
clear of a NAND slot, which serves no entry and is no part of the setup load. R117: a NAND profile has no wait limit. -/
def State.DeferredLaw (s : State) : Prop :=
  (s.sdram.setReply.isSome → s.sdram.state = .initialising) ∧
    (s.sdram.sleepReply.isSome → s.sdram.sleepPending = true) ∧
    (∀ c, (s.profile c).type = .nand → (s.profile c).waitLimit = 0) ∧
    ∀ c, (s.context c).clearReply.isSome →
      (s.context c).state = .clearing ∧ (s.context c).entry = none ∧ s.health.get c = .clearing ∧
        (s.profile c).type = .nand ∧ s.startup.load = none

/-- R170, R184: the setup load runs only in STARTING, and during STARTING both ports are DOWN and the Request Table is
empty. -/
def State.StartingLaw (s : State) : Prop :=
  (s.startup.top = .running → s.startup.load = none) ∧
    (s.startup.top ≠ .running → ∀ p, (s.port p).state = .down ∧ s.entries p = [])

/-- R177, R61, R62: no transmitter is IDLE with an item to send and HOLD# high, and the bus is not idle beside a
candidate. -/
def State.Settled (s : State) : Prop :=
  (∀ p, (s.port p).tx = none → s.pins.hold.get p = true → (s.port p).ready = []) ∧
    (s.arbiter.tenure = none → s.winner = none)

/-! ### The commands of a family -/

/-- The command that takes a request frame of a kind. -/
def requestOf : ReqKind → Port → Byte → List Byte → Instr
  | .read => .read | .write => .write | .cset => .cset | .swap => .swap | .fadd => .fadd
  | .pgRead => .pgRead | .pgProg => .pgProg | .blkErase => .blkErase | .nandId => .nandId

/-- The command that takes a control message of a kind. -/
def controlOf : CtrlKind → Port → Byte → List Byte → Instr
  | .hello => .hello | .info => .info | .status => .status
  | .winSet => .winSet | .winGet => .winGet | .slotSet => .slotSet | .slotGet => .slotGet | .slotClear => .slotClear
  | .sdrSet => .sdrSet | .sdrGet => .sdrGet | .sdrSleep => .sdrSleep
  | .retireAdd => .retireAdd | .retireDrop => .retireDrop | .retireList => .retireList
  | .cancel => .cancel | .portReset => .portReset | .bridgeReset => .bridgeReset

/-- Frames of the port are processed: the top state is RUNNING and the port UP (R170). -/
def State.Serves (s : State) (p : Port) : Prop := s.startup.top = .running ∧ (s.port p).state = .up

/-- A message row's frame is the next of its port to be taken (R167): the oldest that waits or, where none waits, the one
that the row brings with it (log entry 8). -/
def State.Takes (s : State) (p : Port) (kind seq : Byte) (payload : List Byte) : Prop :=
  (s.port p).arrived = [] ∨ (s.port p).arrived.head? = some ⟨kind, seq, payload⟩

/-- A control message reaches its owning block: it is taken in its turn, the port is served, a control reply slot is free,
the payload has its length, and the CONFIG right is there where it is needed (R167, R170, R173, R174, R201). -/
def State.Reaches (s : State) (k : CtrlKind) (p : Port) (seq : Byte) (payload : List Byte) : Prop :=
  s.Takes p k.code seq payload ∧ s.Serves p ∧ (s.port p).held < 8 ∧ payload.length = k.size ∧
    (k.needsRight = true → (s.port p).config = true)

/-- The commands that take a full reset, and its cause (R179, R181, R183): power, RESET#, and for a pending bridge reset the
end of its OK's frame, a PORT-RESET that is acted on, or a break of its UP port. -/
def State.TakesFullReset (s : State) (c : Instr) (cause : Cause) : Prop :=
  (cause = .power ∧ ∃ pins, c = .powerOn pins) ∨ (cause = .pin ∧ ∃ pins, c = .resetPin pins) ∨
    ∃ p, cause = .message p ∧ s.bridgeReset = some p ∧
      ((c = .frameSent p ∧ (s.port p).tx ≠ none ∧
          ∃ token body rest, (s.port p).ready = .ctrl token .bridgeReset .ok body :: rest) ∨
        (∃ seq d, c = .portReset p seq d ∧ s.Takes p CtrlKind.portReset.code seq d ∧ s.Serves p ∧ d ≠ []) ∨
        (c = .linkBreak p ∧ (s.port p).state = .up ∧ (s.port p).receiver ≠ .inBreak))

/-- What a full reset records of the tenure that it cuts off at `s` (R57): of a chunk or an atomic, no cycle, or the first
cycles of its work as completed and the next one as the one in progress (log entry 5). -/
def State.CutOff (s t : State) : Prop :=
  (s.arbiter.tenure = none → t.arbiter.cut = none) ∧
    ∀ x, s.arbiter.tenure = some x → ∃ c, t.arbiter.cut = some c ∧ c.tenure = x ∧
      ∀ r e, x.entry = some r → s.find r = some e →
        (c.done = [] ∧ c.current = none) ∨
          ∃ k, c.done = (s.cutWork x e).take k ∧ c.current = ((s.cutWork x e)[k]?).map BusCycle.cutShort

/-- Every block at its full-reset values (R27, R30, R43, R76, R116, R118, R139, R156, R182, R183, R196). -/
def State.FullyReset (t : State) (cause : Cause) (pins : Pins) : Prop :=
  (∀ p, t.entries p = []) ∧ (∀ k, t.queue k = []) ∧ t.pool.free = List.range 64 ∧ t.pool.holding = ⟨0, 0⟩ ∧
    t.windows = List.replicate 8 Window.off ∧ (∀ c, t.health.get c = .ok ∧ t.retired.get c = []) ∧
    (∀ c, c ≠ .s1 → t.profile c = Profile.off ∧ t.context c = Context.idle) ∧
    t.sdram.state = .uninit ∧ t.sdram.settings = Settings.zero ∧ t.sdram.debt = 0 ∧ t.sdram.overruns = 0 ∧
    t.sdram.refreshTimer = none ∧ t.sdram.powerDownTimer = none ∧ t.sdram.selfRefreshTimer = none ∧
    t.sdram.rows = [] ∧ t.sdram.sleepPending = false ∧ t.mcke = false ∧ t.mseldHigh = true ∧ t.ecc = EccUnit.off ∧
    (∀ p, (t.notices.get p).queue = [] ∧ (t.notices.get p).lost = 0 ∧ (t.notices.get p).next = 0 ∧
      (t.notices.get p).onList = 0) ∧
    (∀ p, (t.port p).state = .down ∧ (t.port p).start = .full ∧ (t.port p).expected = none ∧ (t.port p).txSeq = 0 ∧
      (t.port p).receiver = (if pins.rxd.get p then .hunting else .inBreak) ∧ (t.port p).held = 0 ∧
      (t.port p).overruns = 0 ∧ (t.port p).ready = [] ∧ (t.port p).tx = none ∧ t.txd p = true) ∧
    (t.port .a).config = true ∧ (t.port .b).config = false ∧ t.bridgeReset = none ∧
    t.arbiter.lastGranted = .chip .s4 ∧ t.arbiter.tenure = none ∧ t.arbiter.lastUsed = none ∧
    t.arbiter.lastWrite = false ∧ t.arbiter.endTime = none ∧ t.startup.cause = cause ∧
    t.startup.result = SetupResult.initial ∧ t.straps = ⟨pins.boot, pins.baud, pins.mclksel⟩ ∧ t.pins = pins

/-- The fields of a profile that its type does not use hold 0, and the others lie in their ranges (R70, R75, R117). -/
def Profile.Legal (f : Profile) : Prop :=
  commonOk f.type f.width f.recovery = true ∧
    match f.type with
    | .off => f = { Profile.off with width := f.width, recovery := f.recovery, rights := f.rights }
    | .sram | .nor =>
      staticOk f.type f = true ∧
        f = { Profile.off with
              type := f.type, width := f.width, recovery := f.recovery, rights := f.rights, capacity := f.capacity
              setup := f.setup, strobe := f.strobe, hold := f.hold, waitLimit := f.waitLimit
              burstBeats := f.burstBeats, burstPitch := f.burstPitch }
    | .nand =>
      nandOk f = true ∧
        f = { Profile.off with
              type := f.type, width := f.width, recovery := f.recovery, rights := f.rights, pageSize := f.pageSize
              pagesPerBlock := f.pagesPerBlock, blockCount := f.blockCount, ecc := f.ecc, threshold := f.threshold
              readLimit := f.readLimit, programLimit := f.programLimit, eraseLimit := f.eraseLimit
              resetLimit := f.resetLimit }

/-- R70, R75, R117: every profile lies in its ranges. -/
def State.ProfileLaw (s : State) : Prop := ∀ c, (s.profile c).Legal

end Sys2Proof.Machine
end

