-- ==== Sys2Proof/Certificates/Slice0/Obligations.lean ====
section
/-! DEFINITION. The statements for the provers. `s`, `t` and `u` are states of the part; a frame row's payload is `d`, and `s'` is the state after its taking (R167, R168). Every command ends with `settle`: the transmitters begin and the arbiter grants (R177, R61). -/

open Sys2Proof Sys2Proof.Machine

/-! ### The queue of commands and what follows every event -/

/-- The command at the front of the queue is the one a step runs, with the queue's rest (the queue is the model's own, log
entry 1). With none waiting one MCLK passes and only counts move (the model's choice, log entry 1): the MCLK count, each
receiver's gap count (R166) and each transmitter's elapsed count (R177), the refresh timer up to its interval (R112); and at
every microsecond, 50 MCLK with MCLKSEL low and 100 with it high (R164), from a full reset on (log entry 17), both idle
timers (R98), the stabilisation wait up to 200 (R96) and each NAND busy timer up to its limit (R130). Stopped timers stay so. -/
def Obligations.StepTakesTheFrontCommand : Prop :=
  (∀ (c : Instr) (s : State) (rest : List Instr), s.pending = c :: rest → step s = exec c { s with pending := rest }) ∧
  ∀ s : State, s.pending = [] →
    let microsecond := (s.now + 1) % (if s.straps.mclksel then 100 else 50) = 0
    let upTo := fun (limit n : Nat) => if n < limit then n + 1 else n
    let line := fun (u : PortUnit) =>
      { u with gapTime := u.gapTime + 1, tx := u.tx.map (fun x => { x with elapsed := x.elapsed + 1 }) }
    let idle := fun (timer : Option Nat) => if microsecond then timer.map (· + 1) else timer
    let busy := fun (x : Context) =>
      if microsecond then { x with timer := x.timer.map (fun t => { t with elapsed := upTo t.limit t.elapsed }) } else x
    let d := s.sdram;
    step s = .next { s with
      now := s.now + 1
      ports := ⟨line s.ports.a, line s.ports.b⟩
      sdram := { d with
        refreshTimer := d.refreshTimer.map (upTo d.settings.refreshInterval)
        powerDownTimer := idle d.powerDownTimer
        selfRefreshTimer := idle d.selfRefreshTimer
        initWait := if microsecond ∧ d.init = .waiting then upTo 200 d.initWait else d.initWait }
      nand := ⟨busy s.nand.s1, busy s.nand.s2, busy s.nand.s3, busy s.nand.s4⟩ }

/-- Every command answers a next state in which no IDLE transmitter has an item to send with HOLD# high (R177) and the bus
is not idle beside a candidate (R61, R62); the commands that wait are untouched. The grant comes last (log entry 14). -/
def Obligations.EveryCommandEndsSettled : Prop :=
  ∀ (c : Instr) (s : State), ∃ t : State, exec c s = .next t ∧ t.Settled ∧ t.pending = s.pending

/-- The straps, the reset cause and the CONFIG rights hold until the next full reset (R164, R172, R173, R183); the PORTS
entry of the setup record alone changes a right otherwise (R192). A full reset is taken by power, by RESET#, or for a
pending bridge reset (R181); it sets the cause to its own, samples the straps again, gives A alone the right, and sets the
MCLK count to 0 (the model's choice, log entry 17). -/
def Obligations.StrapsCauseAndRightsHoldUntilAFullReset : Prop :=
  ∀ (c : Instr) (s t : State), exec c s = .next t →
    (t.straps = s.straps ∧ t.startup.cause = s.startup.cause ∧ t.now = s.now ∧
        (c ≠ .setupPortsEntry → ∀ p, (t.port p).config = (s.port p).config)) ∨
      ∃ cause, s.TakesFullReset c cause ∧ t.startup.cause = cause ∧
        t.straps = ⟨t.pins.boot, t.pins.baud, t.pins.mclksel⟩ ∧ t.now = 0 ∧ (t.port .a).config = true ∧
        (t.port .b).config = false

/-- The window table is written by a WIN-SET from an UP port with the CONFIG right, by the WINDOW entries of the setup
record, when the walk reaches them or as the deferred list at the end of initialisation, and by a full reset, which
disables every window (R30, R31, R193): power, RESET#, or the carrying out of a pending bridge reset (R181, R183). -/
def Obligations.WindowTableChangesOnlyByItsWriters : Prop :=
  ∀ (c : Instr) (s t : State), exec c s = .next t → t.windows ≠ s.windows →
    (∃ p seq d, c = .winSet p seq d ∧ s.Serves p ∧ (s.port p).config = true) ∨ c = .setupWindowEntry ∨
      c = .modeStepEnd ∨ ((∃ cause, s.TakesFullReset c cause) ∧ t.windows = List.replicate 8 Window.off)

/-- The transmitter of a port begins the oldest item of the ready list when it is IDLE with HOLD# high: the frame takes the
transmit sequence, which advances, and carries the item's KIND and payload (R165, R169, R177, R198). Otherwise nothing
changes. TXD (R164): while a frame is sent, each character has its start bit low, its 8 data bits, least significant first, and
its stop bit high, back to back at the rate of BAUD; it is high after the last one, and with the transmitter IDLE. Ten such
levels are taken as the character and a good stop bit. That the first bit begins with the frame's MCLK is the model's choice
(log entry 33). -/
def Obligations.TransmitterBeginsTheOldestItem : Prop :=
  ∀ (s : State) (p : Port),
    ((s.port p).tx = none ∧ s.pins.hold.get p = true → ∀ i rest, (s.port p).ready = i :: rest →
      s.pump p = s.setPort p { s.port p with
        tx := some { seq := (s.port p).txSeq, elapsed := 0,
                     frame := frameBytes (s.port p).txSeq (s.itemPayload p i).1 (s.itemPayload p i).2 }
        txSeq := (s.port p).txSeq + 1 }) ∧
    ((s.port p).tx ≠ none ∨ s.pins.hold.get p = false ∨ (s.port p).ready = [] → s.pump p = s) ∧
    (∀ tag st, s.itemPayload p (.refusal tag st) = (0x80, [tag, st.code])) ∧
    (∀ token k st body, s.itemPayload p (.ctrl token k st body) = (0x81, [token, k.code, st.code] ++ body)) ∧
    (∀ n x, s.itemPayload p (.notice n x) = (0x82, leBytes 2 n.toNat ++ [x.code] ++ x.fields)) ∧
    (let perMicrosecond := if s.straps.mclksel then 100 else 50
     let perMillisecond := if s.straps.baud = 0 then 500 else if s.straps.baud = 1 then 2000 else
       if s.straps.baud = 2 then 6000 else 12000
     let bit := 1000 * perMicrosecond;
     ((s.port p).tx = none → s.txd p = true) ∧
     ∀ t, (s.port p).tx = some t →
       (∀ n i c, t.frame[n]? = some c → i < 10 → (10 * n + i) * bit ≤ t.elapsed * perMillisecond →
         t.elapsed * perMillisecond < (10 * n + i + 1) * bit →
         s.txd p = if i = 0 then false else if i = 9 then true else c.getLsbD (i - 1)) ∧
       (10 * t.frame.length * bit ≤ t.elapsed * perMillisecond → s.txd p = true)) ∧
    ∀ c, characterOf (false :: (List.range 8).map c.getLsbD ++ [true]) = (c, true)

/-- When a slot is a candidate (R60): an SRAM or NOR slot, a NAND slot by its context (R122), S1 for the setup load (R187,
R188), and SD for an initialisation step, debt, an entry, or a self-refresh entry or exit due (R101, R103). That the
self-refresh timer makes an entry due by its row SELF_REFRESH_TIMER, which `srReached` records, and not by its count
alone, is the model's choice (log entry 1). The grant of R61: on an idle bus with a candidate the winner is SD when it is
urgent, and otherwise the first candidate of the ring SD, S1 to S4 that starts after the last granted slot; it becomes the
last granted slot and the tenure in progress becomes its own. With no candidate, or with a tenure in progress, the
arbiter's state stays as it is. What a grant begins (R17, R64): a static slot its queue's head, ACTIVE with progress 0 if
it was QUEUED, or a chunk of the setup load; a NAND slot what its context calls for, the head of its queue leaving it into
an IDLE context (R123, R124, R126, R128, R129), with the ECC unit set for a sector in flight (R148); SD an initialisation
step, a refresh round that takes the debt and sets it to 0 (R63, R114), or a self-refresh entry or exit, the entry also
stopping the refresh timer (R102). The gap is R69's. That the first grant of a PG-READ, PG-PROG or BLK-ERASE and the setup
load's read grant set ready seen to no is the model's reading (log entry 15), and sectors left of an erase, an ID and the
load's read its choice (log entry 35); a NAND-ID holds it at yes (R129). -/
def Obligations.GrantGoesRoundTheRing : Prop :=
  (∀ s : State,
    let d := s.sdram
    let loads := fun (c : Chip) (x : LoadPhase) => c = .s1 ∧ ∃ l, s.startup.load = some l ∧ l.phase = x
    let sleeps := s.queue .sd = [] ∧ ((d.srReached = true ∧ d.settings.selfRefreshIdle ≠ 0) ∨ d.sleepPending = true);
    (∀ c,
      ((s.profile c).type = .off → s.candidate (.chip c) = false) ∧
      ((s.profile c).type = .sram ∨ (s.profile c).type = .nor → (s.candidate (.chip c) = true ↔
        s.health.get c = .ok ∧ (s.queue (.chip c) ≠ [] ∨ loads c .norChunks))) ∧
      ((s.profile c).type = .nand → (s.candidate (.chip c) = true ↔
        match (s.context c).state with
        | .idle => s.health.get c = .ok ∧ (s.queue (.chip c) ≠ [] ∨ loads c .reading)
        | .loading | .unloading => 0 < (s.context c).left
        | .busy => (s.context c).readySeen = true
        | .checking => True
        | .recovering | .clearing => (s.context c).resetIssued = false))) ∧
    (s.candidate .sd = true ↔ d.initDue = true ∨
      (d.state = .ready ∧ (1 ≤ d.debt ∨ s.queue .sd ≠ [] ∨ sleeps)) ∨ (d.state = .selfRefresh ∧ s.queue .sd ≠ [])) ∧
    (d.initDue = true ↔ d.init = .precharge ∨ d.init = .refresh ∨ d.init = .mode) ∧
    (s.selfRefreshDue = true ↔ (d.state = .ready ∨ d.state = .powerdown) ∧ sleeps) ∧
    (s.selfRefreshExitDue = true ↔ d.state = .selfRefresh ∧ s.queue .sd ≠ []) ∧
    (∀ k, s.winner = some k ↔ s.candidate k = true ∧
      if (d.initDue ∨ 6 ≤ d.debt) ∧ s.candidate .sd = true then k = .sd
      else ∃ passed rest, ringAfter s.arbiter.lastGranted = passed ++ k :: rest ∧ ∀ x ∈ passed, s.candidate x = false) ∧
    ∀ before k after, [Slot.sd, .chip .s1, .chip .s2, .chip .s3, .chip .s4] = before ++ k :: after →
      ringAfter k = after ++ before ++ [k]) ∧
  (∀ s : State,
    (s.arbiter.tenure ≠ none → s.grant = s) ∧
    (s.arbiter.tenure = none → (∀ k, s.candidate k = false) → s.grant = s) ∧
    (s.arbiter.tenure = none → ∀ k, s.candidate k = true →
      ∃ j t, s.grant.arbiter.tenure = some t ∧ t.slot = j ∧ s.grant.arbiter.lastGranted = j ∧ s.candidate j = true ∧
        if (s.sdram.initDue ∨ 6 ≤ s.sdram.debt) ∧ s.candidate .sd = true then j = .sd
        else ∃ passed rest, ringAfter s.arbiter.lastGranted = passed ++ j :: rest ∧ ∀ x ∈ passed, s.candidate x = false)) ∧
  (∀ (s : State) (k : Slot), s.arbiter.tenure = none → s.winner = some k →
    let begins : State → Purpose → Option Ref → Prop := fun u purpose entry =>
      let gap := u.gapLeft k ⟨purpose, entry⟩
      s.grant = { u with arbiter := { u.arbiter with
        lastGranted := k
        tenure := some { slot := k, purpose := purpose, entry := entry, gap := gap, start := s.now + gap } } }
    let activated : Entry → Entry := fun e =>
      if e.state = .queued then { e with state := .active, progress := some 0 } else e;
    (∀ c, k = .chip c → (s.profile c).type ≠ .nand →
      (s.startup.loads c = true → begins s .loadChunk none) ∧
      (s.startup.loads c = false → ∀ r rest e, s.queue k = r :: rest → s.find r = some e →
        begins (s.updateEntry r activated) (if e.kind.isAtomic then .atomic else .chunk) (some r))) ∧
    (∀ c, k = .chip c → (s.profile c).type = .nand →
      let f := s.profile c
      let x := s.context c
      let encoding := fun (u : State) (e : Entry) (n : Nat) =>
        ({ u with ecc := eccEncode c f.ecc e.raw (stagingRange s.pool.bytes e.segments (n * 528) 528) } : State)
      let unloading := fun (y : Context) =>
        match x.entry.bind (fun r => s.find r) with
        | some e => begins { s with nand := s.nand.set c y, ecc := eccDecode c f.ecc e.raw } .nandUnload x.entry
        | none => begins { s with nand := s.nand.set c y, ecc := eccDecode c .h1 false } .nandUnload none;
      (x.state = .idle → s.startup.loads c = true → begins
        (s.setContext c { x with state := .busy, op := some .read, left := 1, readySeen := false }) .nandCommand none) ∧
      (x.state = .idle → s.startup.loads c = false → ∀ r rest e, s.queue k = r :: rest → s.find r = some e →
        let u := (s.dequeue k r).updateEntry r activated
        let y : Context := { x with entry := some r, readySeen := false };
        (e.kind = .pgProg → begins (encoding
          (u.setContext c { y with state := .loading, op := some .program, left := f.pageSize / 512 }) e 0)
          .nandLoad (some r)) ∧
        (e.kind = .pgRead → begins
          (u.setContext c { y with state := .busy, op := some .read, left := e.sectorCount }) .nandCommand (some r)) ∧
        (e.kind = .blkErase → begins
          (u.setContext c { y with state := .busy, op := some .erase, left := 0 }) .nandCommand (some r)) ∧
        (e.kind = .nandId → begins
          (u.setContext c { y with state := .busy, op := some .id, left := 0, readySeen := true }) .nandId (some r))) ∧
      (x.state = .loading → ∀ r e, x.entry = some r → s.find r = some e →
        begins (encoding s e e.moved) .nandLoad (some r)) ∧
      (x.state = .busy → x.op = some .read → unloading { x with state := .unloading }) ∧
      (x.state = .unloading → unloading x) ∧
      (x.state = .busy → x.op ≠ some .read → begins (s.setContext c { x with state := .checking }) .nandStatus x.entry) ∧
      (x.state = .checking → begins s .nandStatus x.entry) ∧
      (x.state = .recovering ∨ x.state = .clearing → begins s .nandReset none)) ∧
    (k = .sd →
      let d := s.sdram
      let work := d.state = .ready ∧ s.queue .sd ≠ []
      let round := begins (s.setSdram { d with debt := 0 }) (.refreshRound d.debt) none;
      (d.init = .precharge → begins s .initPrecharge none) ∧
      (d.init = .refresh → begins s .initRefresh none) ∧
      (d.init = .mode → begins s .initMode none) ∧
      (d.initDue = false → 6 ≤ d.debt → round) ∧
      (d.initDue = false → d.debt < 6 → ¬work →
        (s.selfRefreshDue = true →
          begins (s.setSdram { d with debt := 0, refreshTimer := none }) (.selfRefreshEntry d.debt) none) ∧
        (s.selfRefreshDue = false →
          (s.selfRefreshExitDue = true → begins s .selfRefreshExit none) ∧
          (s.selfRefreshExitDue = false → round)))))

/-- The entry that SD starts when none is in progress (R110): the head of the queue, unless the policy is OPEN, the head is
no row hit, and a younger entry is a hit, shares bytes with no older entry where one of the two changes memory, and every
older entry stands below 4; then the oldest such entry. At the grant for entry work an entry in progress goes on;
otherwise the selected entry becomes ACTIVE with progress 0, the bypass count of every entry of the queue that is older
than it rises by 1, and no other count and no other entry changes (R17, R63, R111). -/
def Obligations.SdSelectionPassesOnlyWithinItsLimits : Prop :=
  (∀ (d : Sdram) (h : Entry) (rest : List Entry),
    let qualifies : List Entry → Entry → Prop := fun older y =>
      d.settings.policy = .opened ∧ d.hit h.current = false ∧ d.hit y.current = true ∧
        ∀ o ∈ older, o.bypass.getD 0 < 4 ∧
          ¬((o.kind.changes = true ∨ y.kind.changes = true) ∧ o.offset < y.offset + y.length ∧
            y.offset < o.offset + o.length)
    (∀ y, sdSelect d (h :: rest) = some y →
      (y = h ∧ ∀ a z b, rest = a ++ z :: b → ¬qualifies (h :: a) z) ∨
        ∃ a b, rest = a ++ y :: b ∧ qualifies (h :: a) y ∧ ∀ a' z b', a = a' ++ z :: b' → ¬qualifies (h :: a') z) ∧
      (sdSelect d (h :: rest)).isSome) ∧
  ∀ s : State, s.TableLaw → s.QueueLaw → s.arbiter.tenure = none → s.winner = some .sd → s.sdram.initDue = false →
    s.sdram.debt < 6 → s.sdram.state = .ready → s.queue .sd ≠ [] →
    let es := (s.queue .sd).filterMap s.find
    let granted : Entry → Prop := fun e => ∃ t, s.grant.arbiter.tenure = some t ∧ t.slot = .sd ∧ t.entry = some e.ref ∧
      t.purpose = if e.kind.isAtomic then .atomic else .chunk;
    (∀ older e younger, es = older ++ e :: younger → e.state.works → (∀ x ∈ older, ¬x.state.works) →
      granted e ∧ s.grant.table = s.table) ∧
    ((∀ e ∈ es, ¬e.state.works) → ∃ older y younger, es = older ++ y :: younger ∧ sdSelect s.sdram es = some y ∧
      granted y ∧ ∀ p, s.grant.entries p = (s.entries p).map (fun x =>
        if x ∈ older then { x with bypass := x.bypass.map (· + 1) }
        else if x = y then { x with state := .active, progress := some 0 } else x))

/-! ### Resets and start-up -/

/-- A full reset, by power, by RESET# or for a pending BRIDGE-RESET when its OK has been sent or its port is reset, empties
the Request Table and the slot queues and frees every segment, with no reply made (R27, R181), and leaves every block at
its full-reset values with the straps sampled, MCKE low and MSELD# high (R30, R43, R54, R56, R116, R118, R156, R182, R183,
R196). The bytes of the segments stay on a PIN or MESSAGE reset; the tenure in progress is cut off (R57), having staged
nothing (log entry 5). What the blocks hold beyond the manual's values is log entry 24; the levels a MESSAGE reset finds
are log entries 2 and 22. -/
def Obligations.FullResetEmptiesTheTable : Prop :=
  ∀ (s : State) (p : Port),
    let reset : Instr → Cause → Pins → Prop := fun c cause pins =>
      ∃ t : State, exec c s = .next t.settle ∧ t.FullyReset cause pins ∧ s.CutOff t ∧
        (cause ≠ .power → t.pool.bytes = s.pool.bytes);
    (∀ pins, reset (.powerOn pins) .power pins) ∧
    (∀ pins, reset (.resetPin pins) .pin pins) ∧
    (∀ token body rest, (s.port p).tx ≠ none → (s.port p).ready = .ctrl token .bridgeReset .ok body :: rest →
      s.bridgeReset = some p → reset (.frameSent p) (.message p) s.messagePins) ∧
    (∀ seq d, s.Takes p CtrlKind.portReset.code seq d → s.Serves p → d ≠ [] → s.bridgeReset = some p →
      ∃ t : State, exec (.portReset p seq d) s = .next t.settle ∧ t.FullyReset (.message p) s.messagePins ∧
        t.pool.bytes = s.pool.bytes) ∧
    ((s.port p).state = .up → (s.port p).receiver ≠ .inBreak → s.bridgeReset = some p →
      let low := { s with pins := { s.pins with rxd := s.pins.rxd.set p false } }
      ∃ t : State, exec (.linkBreak p) s = .next t.settle ∧ t.FullyReset (.message p) low.messagePins ∧
        t.pool.bytes = s.pool.bytes)

/-- The BOOT strap, sampled at a full reset of any cause, chooses S1's profile and the source of the setup record (R76, R118,
R183, R184, R186, R188): with 00 the part is RUNNING at once with every slot OFF; with 01 S1 is the slowest NOR and is
granted the first chunk of the load; with 10 and 11 S1 is NAND and is granted the reset that precedes the load. That the
first tenure begins at MCLK 0 is the model's choice (log entry 17), and so is the strap level that a MESSAGE reset samples,
that of the last POWER_ON or RESET_PIN (log entry 2). -/
def Obligations.BootStrapChoosesTheSource : Prop :=
  ∀ (s : State) (c : Instr) (boot : BitVec 2),
    (∃ pins, pins.boot = boot ∧ (c = .powerOn pins ∨ c = .resetPin pins)) ∨
      (boot = s.pins.boot ∧ ∃ p, s.TakesFullReset c (.message p)) →
    ∃ t : State, exec c s = .next t ∧
      (boot = 0 → (∀ x, t.profile x = Profile.off) ∧ t.startup.top = .running ∧ t.arbiter.tenure = none) ∧
      (boot = 1 → t.profile .s1 = { Profile.off with
          type := .nor, width := 16, capacity := 67108864, setup := 7, strobe := 63, hold := 7, recovery := 15,
          waitLimit := 0, burstBeats := 1, burstPitch := 15, rights := ⟨.none, .none⟩ } ∧
        t.startup.top = .starting .load ∧
        t.arbiter.tenure = some { slot := .chip .s1, purpose := .loadChunk, entry := none, gap := 0, start := 0 }) ∧
      (boot = 2 ∨ boot = 3 → t.profile .s1 = { Profile.off with
          type := .nand, width := 8, pageSize := (if boot = 2 then 512 else 2048)
          pagesPerBlock := (if boot = 2 then 32 else 64), blockCount := (if boot = 2 then 4096 else 2048)
          ecc := .h1, threshold := 1, readLimit := 1000, programLimit := 1000, eraseLimit := 1000, resetLimit := 1000
          recovery := 15, rights := ⟨.none, .none⟩ } ∧
        t.startup.top = .starting .load ∧
        t.arbiter.tenure = some { slot := .chip .s1, purpose := .nandReset, entry := none, gap := 0, start := 0 })

/-! ### The line -/

/-- A character on RXD (R164, R166, R167). In BREAK nothing is received, and neither is anything while the line has stayed low
since a bad stop bit: no new start bit is taken until RXD has been high. In HUNTING 0xC3 begins a frame and any other value
is discarded. In IN-FRAME a LEN above 4352 drops the frame with LENGTH; a frame whose last CRC byte has come is dropped with
CRC when the CRC differs, dropped with KIND when no host message has that KIND, and taken otherwise; any other byte is kept.
The stop bit is the level that RXD is left at (log entry 22), and a frame taken waits for its message row (log entry 8). -/
def Obligations.ReceiverTakesCharacters : Prop :=
  ∀ (s : State) (p : Port) (c : Byte) (stop : Bool),
    let r := { s with pins := { s.pins with rxd := s.pins.rxd.set p stop } }
    let hunts := r.setPort p { s.port p with receiver := .hunting };
    ((s.port p).receiver = .inBreak → exec (.characterReceived p c stop) s = .next s.settle) ∧
    (s.pins.rxd.get p = false → exec (.characterReceived p c stop) s = .next s.settle) ∧
    (s.pins.rxd.get p = true →
      ((s.port p).receiver = .hunting → exec (.characterReceived p c stop) s =
        .next (r.setPort p { s.port p with
          gapTime := 0, receiver := if c = 0xC3 then .inFrame [] else .hunting }).settle) ∧
      (∀ a, (s.port p).receiver = .inFrame [a] → 4352 < a.toNat + 256 * c.toNat →
        exec (.characterReceived p c stop) s = .next (hunts.post p (.frameDrop .length)).settle) ∧
      (∀ seq kind payload x, payload.length ≤ 4352 →
        (s.port p).receiver = .inFrame (frameBody seq kind payload ++ [x]) →
        (x.toNat + 256 * c.toNat ≠ (crc16 (frameBody seq kind payload)).toNat →
          exec (.characterReceived p c stop) s = .next (hunts.post p (.frameDrop .crc)).settle) ∧
        (x.toNat + 256 * c.toNat = (crc16 (frameBody seq kind payload)).toNat → kind ∉ knownKinds →
          exec (.characterReceived p c stop) s = .next (hunts.post p (.frameDrop .kind)).settle) ∧
        (x.toNat + 256 * c.toNat = (crc16 (frameBody seq kind payload)).toNat → kind ∈ knownKinds →
          exec (.characterReceived p c stop) s = .next (r.setPort p { s.port p with
            receiver := .hunting, arrived := (s.port p).arrived ++ [⟨kind, seq, payload⟩] }).settle)) ∧
      (∀ b, (s.port p).receiver = .inFrame b →
        (b.length = 0 ∨ (b.length = 1 ∧ (at8 b 0).toNat + 256 * c.toNat ≤ 4352) ∨
          (2 ≤ b.length ∧ b.length + 1 < (at8 b 0).toNat + 256 * (at8 b 1).toNat + 6)) →
        exec (.characterReceived p c stop) s =
          .next (r.setPort p { s.port p with gapTime := 0, receiver := .inFrame (b ++ [c]) }).settle))

/-- A frame sent as R198 lays it out, with the CRC of R165, is taken whole by a receiver that hunts: every host KIND, every
SEQ and every payload of up to 4352 bytes arrives as it was sent (R166, R167), among the frames that wait (log entry 8). -/
def Obligations.HostFrameReachesThePort : Prop :=
  ∀ (s : State) (p : Port) (seq kind : Byte) (payload : List Byte),
    payload.length ≤ 4352 → kind ∈ knownKinds → (s.port p).receiver = .hunting →
    (frameBytes seq kind payload).foldl (fun s c => s.receive p c) s =
      s.setPort p { s.port p with
        receiver := .hunting, gapTime := 0, arrived := (s.port p).arrived ++ [⟨kind, seq, payload⟩] }

/-- A gap over 500 µs inside a frame drops it with TIMEOUT (R166); a rise of RXD ends BREAK (R179); a break of 1000 µs
puts the receiver in BREAK, with the port reset of cause BREAK when the port is UP (R179); PORT-RESET on an UP port in
RUNNING causes the port reset of cause MESSAGE, needing no slot and no answer (R178); and HOLD# takes its level (R177).
That a break inside a frame drops it without a notice is the model's reading (log entry 21), and so is that a gap row
outside a frame changes nothing (log entry 3). A port reset also posts PEER-RESET to the other port (R180). After it, in
the same command, the NAND queue heads that it has brought forward are examined (R123), behind its seven steps and from S1
to S4 (the model's choice, log entry 27), which may complete entries of the other port with RETIRED. -/
def Obligations.LineEventsActOnTheirPort : Prop :=
  ∀ (s : State) (p : Port),
    let examined := fun (u : State) => (((u.examine .s1).examine .s2).examine .s3).examine .s4;
    (∀ b, (s.port p).receiver = .inFrame b → exec (.frameGapTimeout p) s =
      .next ((s.setPort p { s.port p with receiver := .hunting }).post p (.frameDrop .timeout)).settle) ∧
    ((s.port p).receiver = .hunting ∨ (s.port p).receiver = .inBreak → exec (.frameGapTimeout p) s = .next s.settle) ∧
    (let high := { s with pins := { s.pins with rxd := s.pins.rxd.set p true } };
      ((s.port p).receiver = .inBreak →
        exec (.rxdRise p) s = .next (high.setPort p { s.port p with receiver := .hunting }).settle) ∧
      ((s.port p).receiver ≠ .inBreak → exec (.rxdRise p) s = .next high.settle)) ∧
    ((s.port p).receiver = .inBreak → exec (.linkBreak p) s = .next s.settle) ∧
    ((s.port p).receiver ≠ .inBreak →
      let low := { s with pins := { s.pins with rxd := s.pins.rxd.set p false } }
      let broken := low.setPort p { s.port p with receiver := .inBreak };
      ((s.port p).state = .down → exec (.linkBreak p) s = .next broken.settle) ∧
      ((s.port p).state = .up → exec (.linkBreak p) s = .next (examined (broken.portReset p .brk)).settle)) ∧
    (∀ seq d, s.Takes p CtrlKind.portReset.code seq d → s.Serves p → d ≠ [] → exec (.portReset p seq d) s =
      .next (examined ((s.takeFrame p seq).portReset p .message)).settle) ∧
    (∀ level, exec (.holdChange p level) s =
      .next ({ s with pins := { s.pins with hold := s.pins.hold.set p level } } : State).settle)

/-- A port reset (R180) with no bridge reset of the port pending. HELD, QUEUED and REPLYING entries of the port are freed,
ACTIVE ones become ORPHANED, and their segments and queue places go as R25 and R53 give; its deferred replies are dropped
(R175); its slots, ready list, transmitter, sequence numbers and notices are cleared (R156); it is DOWN with the cause as its
port start; PEER-RESET goes to the other port. The CONFIG right, the windows, the profiles, the health, the retired lists, the
other port's entries, its holding and its unused reserve stay (R43, R53), and the last lost number too (log entry 9). The
examination that follows it in the same command is no part of it (log entry 27) and stands in LineEventsActOnTheirPort. -/
def Obligations.PortResetTakesItsSevenSteps : Prop :=
  (∀ (s : State) (p : Port) (cause : PortStart), s.bridgeReset ≠ some p →
    let freed := fun (e : Entry) => decide (e.state = .held ∨ e.state = .queued ∨ e.state = .replying)
    let left := fun k => (s.queue k).filter (fun r => !(decide (r.port = p) && s.isQueued r))
    let t := s.portReset p cause
    let kept := fun (d : Option Deferred) => d.filter (fun x => decide (x.port ≠ p));
    t.table = s.table.set p (((s.entries p).filter (fun e => !freed e)).map (fun e => { e with state := .orphaned })) ∧
      t.pool = s.pool.release p (((s.entries p).filter freed).flatMap Entry.segments) ∧
      t.arbiter = { s.arbiter with
        queues := ⟨⟨left (.chip .s1), left (.chip .s2), left (.chip .s3), left (.chip .s4)⟩, left .sd⟩ } ∧
      t.sdram = { s.sdram with setReply := kept s.sdram.setReply, sleepReply := kept s.sdram.sleepReply } ∧
      ∀ c, t.context c = { s.context c with clearReply := kept (s.context c).clearReply }) ∧
  ∀ (s : State) (p : Port) (cause : PortStart), s.TableLaw → s.bridgeReset ≠ some p →
    let t := s.portReset p cause
    let freed := fun (e : Entry) => e.state = .held ∨ e.state = .queued ∨ e.state = .replying;
    (∀ e, e ∈ t.entries p ↔ ∃ o ∈ s.entries p, ¬freed o ∧ e = { o with state := .orphaned }) ∧
    t.entries p.other = s.entries p.other ∧
    (∀ k, t.queue k = (s.queue k).filter (fun r => !(decide (r.port = p) && s.isQueued r))) ∧
    (∀ n, n ∈ t.pool.free ↔ n ∈ s.pool.free ∨ ∃ e ∈ s.entries p, freed e ∧ n ∈ e.segments) ∧
    t.pool.holding.get p.other = s.pool.holding.get p.other ∧
    unusedReserve (t.pool.holding.get p.other) = unusedReserve (s.pool.holding.get p.other) ∧ t.pool.bytes = s.pool.bytes ∧
    t.deferredCount p = 0 ∧ t.deferredCount p.other = s.deferredCount p.other ∧
    t.port p = { s.port p with
      state := .down, start := cause, expected := none, txSeq := 0, held := 0, overruns := 0, ready := [], tx := none
      receiver := if (s.port p).receiver = .inBreak then .inBreak else .hunting } ∧ t.txd p = true ∧
    t.notices.get p = { s.notices.get p with queue := [], lost := 0, next := 0, onList := 0 } ∧
    t.port p.other = (s.post p.other (.peerReset p cause)).port p.other ∧
    t.notices.get p.other = (s.post p.other (.peerReset p cause)).notices.get p.other ∧
    t.windows = s.windows ∧ t.arbiter.profiles = s.arbiter.profiles ∧ t.arbiter.tenure = s.arbiter.tenure ∧
    t.health = s.health ∧ t.retired = s.retired ∧ t.sdram.state = s.sdram.state ∧ t.sdram.rows = s.sdram.rows ∧
    t.sdram.debt = s.sdram.debt ∧ t.sdram.sleepPending = s.sdram.sleepPending ∧ t.startup = s.startup

/-- The last byte of a frame leaves TXD (R177): the item leaves the list, the transmitter is IDLE, and the item's end
effects are taken. An entry's REPLY frees the entry (R19), a slot answer frees its slot (R174), and a NOTICE lowers the
count of notices on the list, after which the next may move (R161). With nothing being sent the row changes nothing (log entry 3). -/
def Obligations.FrameSentTakesItsEndEffects : Prop :=
  ∀ (s : State) (p : Port),
    ((s.port p).tx = none → exec (.frameSent p) s = .next s.settle) ∧
    (∀ i rest, (s.port p).tx ≠ none → (s.port p).ready = i :: rest →
      let u := s.setPort p { s.port p with tx := none, ready := rest };
      (∀ tag e, i = .entryReply tag → s.find ⟨p, tag⟩ = some e → exec (.frameSent p) s = .next
        { u with
          table := u.table.set p ((s.entries p).filter (fun x => x.tag != tag))
          pool := s.pool.release p e.segments }.settle) ∧
      (∀ tag st, i = .refusal tag st →
        exec (.frameSent p) s = .next (u.setPort p { u.port p with held := (u.port p).held - 1 }).settle) ∧
      (∀ token k st body, i = .ctrl token k st body → ¬(k = .bridgeReset ∧ st = .ok ∧ s.bridgeReset = some p) →
        exec (.frameSent p) s = .next (u.setPort p { u.port p with held := (u.port p).held - 1 }).settle) ∧
      (∀ n x, i = .notice n x → exec (.frameSent p) s = .next
        (({ u with notices := u.notices.set p { u.notices.get p with onList := (u.notices.get p).onList - 1 } } :
          State).moveNotice p).settle))

/-! ### Notices -/

/-- A post (R157) and the delivery that follows it (R159). On a DOWN port the notice is discarded. On an UP port it takes
the next number, which advances: with fewer than 8 queued it joins the queue, and with 8 it is lost, the lost count rises
up to 65535 and the last lost number is its own. When no NOTICE is on the ready list the oldest queued notice moves to its
tail, behind a NOTICES-LOST when the lost count is above 0, which then becomes 0. -/
def Obligations.PostIsDiscardedNumberedOrLost : Prop :=
  ∀ (s : State) (p : Port) (x : Notice),
    let n := s.notices.get p;
    ((s.port p).state = .down → s.post p x = s) ∧
    ((s.port p).state = .up → 8 ≤ n.queue.length → s.post p x = { s with notices := s.notices.set p { n with
      next := n.next + 1, lost := if n.lost < 65535 then n.lost + 1 else n.lost, lastLost := n.next } }) ∧
    ((s.port p).state = .up → n.queue.length < 8 →
      let q := n.queue ++ [(n.next, x)];
      (0 < n.onList → s.post p x = { s with notices := s.notices.set p { n with queue := q, next := n.next + 1 } }) ∧
      (n.onList = 0 → ∀ number first rest, q = (number, first) :: rest →
        let lost : List Item := if n.lost = 0 then [] else [.notice n.lastLost (.noticesLost n.lost)]
        s.post p x = { s with
          ports := s.ports.set p { s.port p with ready := (s.port p).ready ++ lost ++ [.notice number first] }
          notices := s.notices.set p { n with
            queue := rest, next := n.next + 1, lost := 0, onList := lost.length + 1 } }))

/-! ### Frames -/

/-- The taking of a frame and its sequence check (R167, R168). Frames are taken in the order in which their last bytes came: a
message row whose frame is not the oldest that waits changes nothing (log entry 8). A frame that is taken leaves the frames
that wait. On an UP port the expectation becomes SEQ + 1, and a SEQ that differs posts SEQ-GAP with both values first; on
a DOWN port SEQ is not examined. -/
def Obligations.SequenceNumbersAreChecked : Prop :=
  ∀ (s : State) (p : Port) (seq : Byte),
    let u := s.setPort p { s.port p with arrived := (s.port p).arrived.tail };
    ((s.port p).state = .down → s.takeFrame p seq = u) ∧
    ((s.port p).state = .up → (s.port p).expected = some seq →
      s.takeFrame p seq = u.setPort p { u.port p with expected := some (seq + 1) }) ∧
    (∀ x, (s.port p).state = .up → (s.port p).expected = some x → x ≠ seq →
      s.takeFrame p seq =
        (u.post p (.seqGap x seq)).setPort p { (u.post p (.seqGap x seq)).port p with expected := some (seq + 1) }) ∧
    ∀ d : List Byte,
      (∀ k : ReqKind, ¬s.Takes p k.code seq d → exec (requestOf k p seq d) s = .next s.settle) ∧
      ∀ k : CtrlKind, ¬s.Takes p k.code seq d → exec (controlOf k p seq d) s = .next s.settle

/-- The answers that the port unit makes itself, through a control reply slot (R170, R174). In STARTING every frame is
answered STARTING, and on a DOWN port in RUNNING every frame but HELLO is answered NOTUP; on an UP port a request shorter
than tag and flags, or an empty control message, is answered BADARG with tag or token 0, and a control message of another
length than its own BADARG with its token (R201), PORT-RESET apart; and a message that needs the CONFIG right is answered DENIED without it (R173), WIN-SET's with its index (log entry 11).
The answer holds a slot and joins the ready list. With no free slot the frame is not acted on, the control-overrun count
rises and CTRL-OVERRUN is posted. So it is with every control message on an UP port, whatever its length and the
port's right, PORT-RESET apart, and with a HELLO on a DOWN port. -/
def Obligations.PortUnitAnswersWhatItStops : Prop :=
  ∀ (s : State) (p : Port) (seq : Byte) (d : List Byte),
    let answers : Byte → Instr → Item → Prop := fun code c i => s.Takes p code seq d →
      let u := s.takeFrame p seq;
      ((s.port p).held < 8 → exec c s = .next (u.setPort p { u.port p with
        held := (u.port p).held + 1, ready := (u.port p).ready ++ [i] }).settle) ∧
      (8 ≤ (s.port p).held →
        let n := if (u.port p).overruns < 65535 then (u.port p).overruns + 1 else (u.port p).overruns
        exec c s = .next ((u.setPort p { u.port p with overruns := n }).post p (.ctrlOverrun n)).settle)
    let overruns : Byte → Instr → Prop := fun code c => s.Takes p code seq d → 8 ≤ (s.port p).held →
      let u := s.takeFrame p seq
      let n := if (u.port p).overruns < 65535 then (u.port p).overruns + 1 else (u.port p).overruns
      exec c s = .next ((u.setPort p { u.port p with overruns := n }).post p (.ctrlOverrun n)).settle
    let tag := if d.length < 2 then 0 else at8 d 0;
    (∀ step, s.startup.top = .starting step →
      (∀ k : ReqKind, answers k.code (requestOf k p seq d) (.refusal tag .starting)) ∧
      ∀ k : CtrlKind, answers k.code (controlOf k p seq d) (.ctrl (at8 d 0) k .starting [])) ∧
    (s.startup.top = .running → (s.port p).state = .down →
      (∀ k : ReqKind, answers k.code (requestOf k p seq d) (.refusal tag .notUp)) ∧
      ∀ k : CtrlKind, k ≠ .hello → answers k.code (controlOf k p seq d) (.ctrl (at8 d 0) k .notUp [])) ∧
    (s.Serves p → d.length < 2 → ∀ k : ReqKind, answers k.code (requestOf k p seq d) (.refusal 0 .badArg)) ∧
    (s.Serves p → ∀ k : CtrlKind, d.length ≠ k.size → (k = .portReset → d = []) →
      answers k.code (controlOf k p seq d) (.ctrl (at8 d 0) k .badArg [])) ∧
    (s.Serves p → ∀ k : CtrlKind, d.length = k.size → k.needsRight = true → (s.port p).config = false →
      answers k.code (controlOf k p seq d)
        (.ctrl (at8 d 0) k .denied (if k = .winSet then [at8 d 1] else []))) ∧
    (s.Serves p → ∀ k : CtrlKind, k ≠ .portReset → overruns k.code (controlOf k p seq d)) ∧
    (s.startup.top = .running → (s.port p).state = .down → overruns CtrlKind.hello.code (.hello p seq d))

/-! ### Admission -/

/-- Checks 3 to 9 of admission in their order, the first that fails giving the refusal (R8), and the refusal REPLY through
a control reply slot with everything else left as it was (R13). -/
def Obligations.FirstFailedCheckRefuses : Prop :=
  ∀ (s : State) (p : Port) (seq : Byte) (d : List Byte) (k : ReqKind), s.Takes p k.code seq d → s.Serves p →
    2 ≤ d.length →
    let q := readRequest k d
    let u := s.takeFrame p seq
    let refuses : Status → Prop := fun st =>
      ((s.port p).held < 8 → exec (requestOf k p seq d) s = .next (u.setPort p { u.port p with
        held := (u.port p).held + 1, ready := (u.port p).ready ++ [.refusal (at8 d 0) st] }).settle) ∧
      (8 ≤ (s.port p).held → exec (requestOf k p seq d) s = .next (u.overrun p).settle);
    (16 ≤ (s.entries p).length → refuses .noCredit) ∧
    ((s.entries p).length < 16 →
      (at8 d 0 ∈ (s.entries p).map Entry.tag → refuses .tagInUse) ∧
      (at8 d 0 ∉ (s.entries p).map Entry.tag →
        (q.wellFormed = false → refuses .badArg) ∧
        (q.wellFormed = true →
          (∀ st, s.target p q = .error st → refuses st) ∧
          (∀ slot offset, s.target p q = .ok (slot, offset) →
            (k.isAtomic = true ∧ s.isNor slot = true → refuses .badKind) ∧
            (¬(k.isAtomic = true ∧ s.isNor slot = true) →
              (s.healthy slot = false → refuses .slotStall) ∧
              (s.healthy slot = true → s.pool.canClaim p (segmentNeed q (s.profileOf slot).sectors) = false →
                refuses .noBuffer))))))

/-- Check 5 (R4, R9, R200): the payload length and the fields that each kind calls for. -/
def Obligations.RequestFormIsWhatItsKindCallsFor : Prop :=
  ∀ d : List Byte,
    let plain := at8 d 1 = 0 ∨ at8 d 1 = 1
    let raw := at8 d 1 = 2 ∨ at8 d 1 = 3
    let address := field d 2 4
    let length := field d 6 2
    let chip := 1 ≤ (at8 d 2).toNat ∧ (at8 d 2).toNat ≤ 4
    let aligned := (length = 1 ∨ length = 2 ∨ length = 4) ∧ length ∣ address;
    ((readRequest .read d).wellFormed = true ↔ d.length = 8 ∧ plain ∧ 1 ≤ length ∧ length ≤ 1024) ∧
    ((readRequest .write d).wellFormed = true ↔ d.length = 8 + length ∧ plain ∧ 1 ≤ length ∧ length ≤ 1024) ∧
    ((readRequest .cset d).wellFormed = true ↔ d.length = 16 ∧ plain ∧ aligned) ∧
    ((readRequest .swap d).wellFormed = true ↔ d.length = 12 ∧ plain ∧ aligned) ∧
    ((readRequest .fadd d).wellFormed = true ↔ d.length = 12 ∧ plain ∧ aligned) ∧
    ((readRequest .pgRead d).wellFormed = true ↔ d.length = 8 ∧ (plain ∨ raw) ∧ chip ∧ at8 d 7 ≠ 0 ∧
      (at8 d 6).toNat + (at8 d 7).toNat ≤ 8) ∧
    ((readRequest .pgProg d).wellFormed = true ↔ 8 ≤ d.length ∧ (plain ∨ raw) ∧ chip) ∧
    ((readRequest .blkErase d).wellFormed = true ↔ d.length = 8 ∧ plain ∧ chip) ∧
    ((readRequest .nandId d).wellFormed = true ↔ d.length = 8 ∧ plain ∧ chip)

/-- The decode of a window kind (R10, R39–R41), for a table that keeps the window laws: the one enabled window that holds
the start address, then the bounds, then the rights of the sending port; it yields the window's target and its slot
offset plus the distance from its base. -/
def Obligations.WindowDecodeSearchesBoundsAndRights : Prop :=
  ∀ (s : State) (p : Port) (q : Request), s.WindowLaw →
    let holds : Window → Prop := fun w => w.enabled = true ∧ w.base ≤ q.address ∧ q.address < w.base + w.size
    let allowed : Window → Prop := fun w =>
      (w.rights.get p = .read ∧ q.kind.changes = false) ∨ w.rights.get p = .readWrite;
    ((∀ w ∈ s.windows, ¬holds w) → s.decodeWindow p q = .error .noWindow) ∧
    ∀ w ∈ s.windows, holds w →
      (w.base + w.size < q.address + q.length → s.decodeWindow p q = .error .bounds) ∧
      (q.address + q.length ≤ w.base + w.size →
        (¬allowed w → s.decodeWindow p q = .error .denied) ∧
        (allowed w → ∃ k, w.target = some k ∧
          s.decodeWindow p q = .ok (k, w.offset + (q.address - w.base))))

/-- Check 6 of a NAND kind, its tests in turn (R11). -/
def Obligations.NandTargetIsTestedInTurn : Prop :=
  ∀ (s : State) (p : Port) (q : Request) (c : Chip), chipOfCode q.slotCode = some c → q.kind.isNand = true →
    let f := s.profile c
    let changing := q.kind = .pgProg ∨ q.kind = .blkErase
    let right := f.rights.get p = .readWrite ∨ (f.rights.get p = .read ∧ ¬changing)
    let inside :=
      (q.kind ≠ .nandId → q.block < f.blockCount) ∧
      (q.kind = .pgRead ∨ q.kind = .pgProg → q.page < f.pagesPerBlock) ∧
      (q.kind = .pgRead → q.firstSector + q.sectorCount ≤ f.pageSize / 512)
    let spare := if q.raw then 16 else match f.ecc with | .none => 16 | .h1 => 13 | .b8 => 2
    let sized := q.kind = .pgProg → q.size = 8 + f.pageSize / 512 * (512 + spare);
    (f.type ≠ .nand → s.target p q = .error .badKind) ∧
    (f.type = .nand →
      (¬right → s.target p q = .error .denied) ∧
      (right →
        (¬(inside ∧ sized) → s.target p q = .error .badArg) ∧
        (inside ∧ sized →
          (changing ∧ q.block ∈ s.retired.get c → s.target p q = .error .retired) ∧
          (¬(changing ∧ q.block ∈ s.retired.get c) → s.target p q = .ok (.chip c, 0)))))

/-- An admitted READ, WRITE, CSET, SWAP or FADD (R1, R2, R5, R41, R44, R45, R48, R58). The entry joins the tail of its
port's admission list, its segments are the lowest free ones, and a WRITE's data bytes are in them. It is HELD behind an
older unfinished entry where it or that entry is ORDERED (R15); otherwise it is QUEUED at the tail of its slot's queue,
and on SD it has a bypass count of 0 and the engine takes the join (R98, R100). -/
def Obligations.WindowRequestBecomesAnEntry : Prop :=
  ∀ (s : State) (p : Port) (seq : Byte) (d : List Byte) (k : ReqKind) (slot : Slot) (offset : Nat),
    let q := readRequest k d
    let n := if k.isAtomic then 1 else (q.length + 255) / 256
    k.isNand = false → s.Takes p k.code seq d → s.Serves p → 2 ≤ d.length → (s.entries p).length < 16 →
    at8 d 0 ∉ (s.entries p).map Entry.tag → q.wellFormed = true → s.decodeWindow p q = .ok (slot, offset) →
    ¬(k.isAtomic = true ∧ s.isNor slot = true) → s.healthy slot = true → s.pool.canClaim p n = true →
    let u := s.takeFrame p seq
    let fenced := ∃ o ∈ s.entries p, (o.state = .held ∨ o.state = .queued ∨ o.state = .active) ∧
      ((at8 d 1).getLsbD 0 = true ∨ o.ordered = true)
    let e : Entry :=
      { tag := at8 d 0, port := p, kind := k, ordered := (at8 d 1).getLsbD 0, raw := (at8 d 1).getLsbD 1, slot := slot
        offset := offset, length := q.length, page := 0, block := 0, firstSector := 0, sectorCount := 0, ecc := .none
        compare := if k = .cset then q.compare else 0, operand := if k.isAtomic then q.operand else 0
        segments := s.pool.free.take n, progress := none, bypass := none, state := .held, status := none, sectors := [] }
    let bytes := if k = .write then stagingWrite s.pool.bytes e.segments 0 (d.drop 8) else s.pool.bytes
    let pool : Pool :=
      { free := s.pool.free.drop n, holding := s.pool.holding.set p (s.pool.holding.get p + n), bytes := bytes };
    (fenced → exec (requestOf k p seq d) s =
      .next ({ u with table := s.table.set p (s.entries p ++ [e]), pool := pool } : State).settle) ∧
    (¬fenced → exec (requestOf k p seq d) s = .next ({ u with
      table := s.table.set p (s.entries p ++
        [{ e with state := .queued, bypass := if slot = .sd then some 0 else none }])
      pool := pool
      arbiter := { s.arbiter with queues := s.arbiter.queues.set slot (s.queue slot ++ [⟨p, at8 d 0⟩]) }
      sdram := if slot = .sd then s.sdram.joined s.now else s.sdram } : State).settle)

/-- An admitted PG-READ, PG-PROG, BLK-ERASE or NAND-ID (R3, R5, R44, R45, R50, R58, R123). The fields that the kind does
not use are 0, a PG-PROG covers every sector of the page, the ECC mode is the slot's, and a BLK-ERASE holds no segment.
Sector x of a PG-PROG has its 512 data bytes at staging bytes x × 528 on and its host spare bytes, in frame order, at the
positions that the mode leaves to the host (R146), or all 16 with RAW; the check positions, the staging bytes after the
last sector and every other segment stay. It is HELD or QUEUED as R15 and R5 give; a block on the list was refused, so the
head examination leaves it. -/
def Obligations.NandRequestBecomesAnEntry : Prop :=
  ∀ (s : State) (p : Port) (seq : Byte) (d : List Byte) (k : ReqKind) (c : Chip),
    let q := readRequest k d
    let f := s.profile c
    let count := if k = .pgRead then q.sectorCount else if k = .pgProg then f.pageSize / 512 else 0
    let n := if k = .nandId then 1 else (count * 528 + 255) / 256
    k.isNand = true → s.Takes p k.code seq d → s.Serves p → 2 ≤ d.length → (s.entries p).length < 16 →
    at8 d 0 ∉ (s.entries p).map Entry.tag → q.wellFormed = true → s.target p q = .ok (.chip c, 0) →
    s.health.get c = .ok → s.pool.canClaim p n = true →
    let u := s.takeFrame p seq
    let fenced := ∃ o ∈ s.entries p, (o.state = .held ∨ o.state = .queued ∨ o.state = .active) ∧
      ((at8 d 1).getLsbD 0 = true ∨ o.ordered = true)
    let paged := k = .pgRead ∨ k = .pgProg
    let e : Entry :=
      { tag := at8 d 0, port := p, kind := k, ordered := (at8 d 1).getLsbD 0, raw := (at8 d 1).getLsbD 1
        slot := .chip c, offset := 0, length := 0, page := if paged then q.page else 0
        block := if k = .nandId then 0 else q.block, firstSector := if k = .pgRead then q.firstSector else 0
        sectorCount := count, ecc := if paged then f.ecc else .none, compare := 0, operand := 0
        segments := s.pool.free.take n, progress := none, bypass := none, state := .held, status := none, sectors := [] }
    let bytes := if k = .pgProg
      then stageSectors s.pool.bytes e.segments (frameSpare f.ecc e.raw) 0 count (d.drop 8) else s.pool.bytes
    let pool : Pool :=
      { free := s.pool.free.drop n, holding := s.pool.holding.set p (s.pool.holding.get p + n), bytes := bytes };
    (k = .pgProg → s.PoolLaw → Memory.wf s.pool.bytes = true →
      let spares := if e.raw = true ∨ f.ecc = .none then List.range 16
        else if f.ecc = .h1 then [0, 1, 5, 6, 7, 8, 9, 10, 11, 12, 13, 14, 15] else [0, 1]
      let width := 512 + spares.length
      let unchanged := fun i => stagingRead bytes e.segments i = stagingRead s.pool.bytes e.segments i;
      d.length = 8 + count * width ∧
      (∀ x < count,
        (∀ i < 512, stagingRead bytes e.segments (x * 528 + i) = at8 d (8 + x * width + i)) ∧
        (∀ j i, spares[j]? = some i →
          stagingRead bytes e.segments (x * 528 + 512 + i) = at8 d (8 + x * width + 512 + j)) ∧
        (∀ i < 16, i ∉ spares → unchanged (x * 528 + 512 + i))) ∧
      (∀ i, count * 528 ≤ i → unchanged i) ∧
      ∀ g i, g ∉ e.segments → i < 256 → Memory.read bytes (g * 256 + i) = Memory.read s.pool.bytes (g * 256 + i)) ∧
    (fenced → exec (requestOf k p seq d) s =
      .next ({ u with table := s.table.set p (s.entries p ++ [e]), pool := pool } : State).settle) ∧
    (¬fenced → exec (requestOf k p seq d) s = .next ({ u with
      table := s.table.set p (s.entries p ++ [{ e with state := .queued }])
      pool := pool
      arbiter := { s.arbiter with queues := s.arbiter.queues.set (.chip c) (s.queue (.chip c) ++ [⟨p, at8 d 0⟩]) } } :
        State).settle)

/-! ### The Request Table -/

/-- The end of an entry (R18, R24, R26, R52, R53). An entry that is not ORPHANED becomes REPLYING with the status, its REPLY
joins the tail of its port's ready list once, and its segments are released at once for a WRITE or PG-PROG and for
CANCELLED, FLUSHED and SLOTSTALL, and otherwise kept. An ORPHANED entry leaves the table with its segments released and
no reply. -/
def Obligations.FinishedEntryIsAnsweredOnce : Prop :=
  ∀ (s : State) (r : Ref) (e : Entry) (st : Status), s.TableLaw → s.find r = some e →
    let released := e.kind = .write ∨ e.kind = .pgProg ∨ st = .cancelled ∨ st = .flushed ∨ st = .slotStall
    let u := s.port r.port;
    (e.state ≠ .orphaned → ∃ older younger,
      s.entries r.port = older ++ e :: younger ∧
      s.finish r st = { s with
        table := s.table.set r.port (older ++
          { e with state := .replying, status := some st, segments := if released then [] else e.segments } :: younger)
        pool := if released then s.pool.release r.port e.segments else s.pool
        ports := s.ports.set r.port { u with ready := u.ready ++ [.entryReply r.tag] } }) ∧
    (e.state = .orphaned → ∃ older younger,
      s.entries r.port = older ++ e :: younger ∧
      s.finish r st = { s with
        table := s.table.set r.port (older ++ younger), pool := s.pool.release r.port e.segments })

/-- The evaluation of a port's fences (R15, R16). The oldest HELD entry that no older unfinished one fences is released: on a
healthy slot it joins the tail of its queue as QUEUED (on SD with bypass count 0 and both idle timers restarted, R98, R100,
R111; at the head of a NAND queue with its block retired it completes with RETIRED, R123), and otherwise it completes with
SLOTSTALL; then the evaluation goes on. With no such entry nothing changes: a fenced entry stays HELD. No entry becomes
HELD, and where none is ORPHANED none leaves the table. -/
def Obligations.FenceEvaluationLeavesOnlyFencedEntries : Prop :=
  ∀ (s : State) (p : Port),
    let t := s.evalFences p
    let fenced : List Entry → Entry → Prop := fun older e =>
      ∃ o ∈ older, (o.state = .held ∨ o.state = .queued ∨ o.state = .active) ∧ (e.ordered = true ∨ o.ordered = true);
    (∀ older e younger, t.entries p = older ++ e :: younger → e.state = .held → fenced older e) ∧
    ((∀ e ∈ s.entries p, e.state ≠ .orphaned) → (∀ e ∈ s.entries p.other, e.state ≠ .orphaned) →
      ∀ q, (t.entries q).map Entry.tag = (s.entries q).map Entry.tag) ∧
    (∀ q e, e ∈ t.entries q → e.state = .held → e ∈ s.entries q) ∧
    ((∀ older e younger, s.entries p = older ++ e :: younger → e.state = .held → fenced older e) → t = s) ∧
    (s.TableLaw → ∀ older e younger, s.entries p = older ++ e :: younger → e.state = .held → ¬fenced older e →
      (∀ a x b, older = a ++ x :: b → x.state = .held → fenced a x) →
      let r : Ref := ⟨p, e.tag⟩
      let joined := fun (y : Entry) => ({ s with
        table := s.table.set p (older ++ y :: younger)
        arbiter := { s.arbiter with queues := s.arbiter.queues.set e.slot (s.queue e.slot ++ [r]) } } : State)
      let waits := joined { e with state := .queued };
      (s.healthy e.slot = false → t = (s.finish r .slotStall).evalFences p) ∧
      (e.slot = .sd → t = (({ joined { e with state := .queued, bypass := some 0 } with
        sdram := s.sdram.joined s.now } : State)).evalFences p) ∧
      (∀ c, e.slot = .chip c → s.healthy e.slot = true →
        let retires := s.queue (.chip c) = [] ∧ (s.profile c).type = .nand ∧ (s.context c).state = .idle ∧
          (e.kind = .pgProg ∨ e.kind = .blkErase) ∧ e.block ∈ s.retired.get c;
        (¬retires → t = waits.evalFences p) ∧
        (retires → t = ((waits.dequeue (.chip c) r).finish r .retired).evalFences p)))

/-- The flush of a slot that is not OK (R20), for a queue that names QUEUED or ACTIVE entries of that slot: each QUEUED one
is answered FLUSHED in queue order, ahead of what the fences then complete; it is REPLYING, holds no segment and has left the
queue; and no entry of the queue is QUEUED. -/
def Obligations.FlushAnswersEveryQueuedEntry : Prop :=
  ∀ (s : State) (k : Slot), s.TableLaw → s.healthy k = false → (s.queue k).Nodup →
    (∀ r ∈ s.queue k, ∃ e, s.find r = some e ∧ e.slot = k ∧ (e.state = .queued ∨ e.state = .active)) →
    let t := s.flush k;
    (∀ r ∈ t.queue k, t.isQueued r = false) ∧
    (∀ r ∈ s.queue k, s.isQueued r = true → r ∉ t.queue k ∧ ∃ e, t.find r = some e ∧ e.state = .replying ∧
      e.status = some .flushed ∧ e.segments = []) ∧
    (∀ p, ∃ more, (t.port p).ready = (s.port p).ready ++
      ((s.queue k).filter (fun r => decide (r.port = p) && s.isQueued r)).map (fun r => Item.entryReply r.tag) ++ more)

/-- The data of a REPLY after tag and status, by kind and status (R23, R202): a READ its byte count and bytes, a WRITE its
byte count, an atomic its old value, a PG-READ its result list and then each sector's data and spare bytes, a NAND-ID its
8 bytes, and nothing in every other case. A sector's bytes are its 512 data bytes and then, in ascending order, the spare
bytes that the mode leaves to the host, or all 16 with RAW, from the sector's place in staging (R50). -/
def Obligations.ReplyDataFollowsKindAndStatus : Prop :=
  ∀ (s : State) (p : Port) (tag : Byte) (e : Entry) (st : Status), s.find ⟨p, tag⟩ = some e → e.status = some st →
    let staged := fun n => stagingRange s.pool.bytes e.segments 0 n
    let carries : List Byte → Prop := fun data => s.itemPayload p (.entryReply tag) = (0x80, [tag, st.code] ++ data)
    let moved := e.progress.getD 0;
    (e.kind = .read ∧ (st = .ok ∨ st = .busTimeout) → carries (leBytes 2 moved ++ staged moved)) ∧
    (e.kind = .write ∧ (st = .ok ∨ st = .busTimeout) → carries (leBytes 2 moved)) ∧
    (e.kind = .cset ∧ (st = .ok ∨ st = .cmpMiss) ∨ (e.kind = .swap ∨ e.kind = .fadd) ∧ st = .ok →
      carries (staged e.length)) ∧
    (e.kind = .pgRead ∧ (st = .ok ∨ st = .correctedHigh ∨ st = .eccFail) → ∃ sectors : List (List Byte),
      sectors.length = e.sectorCount ∧ carries (e.sectors.map SectorResult.code ++ sectors.flatten) ∧
      ∀ i x, sectors[i]? = some x →
        x.take 512 = stagingRange s.pool.bytes e.segments (i * 528) 512 ∧
        let spares := if e.raw then List.range 16 else match e.ecc with
          | .none => List.range 16
          | .h1 => [0, 1, 5, 6, 7, 8, 9, 10, 11, 12, 13, 14, 15]
          | .b8 => [0, 1]
        x.drop 512 = spares.map (fun j => stagingRead s.pool.bytes e.segments (i * 528 + 512 + j))) ∧
    (e.kind = .nandId ∧ st = .ok → carries (staged 8)) ∧
    (e.kind = .pgProg ∨ e.kind = .blkErase ∨ st = .cancelled ∨ st = .flushed ∨ st = .slotStall ∨ st = .retired ∨
      st = .nandFail ∨ st = .nandTimeout ∨ ((e.kind = .cset ∨ e.kind = .swap ∨ e.kind = .fadd) ∧ st = .busTimeout) →
      carries [])

/-! ### Segments, chunks and beats -/

/-- The claim of `n` segments (R44, R45): met exactly when what is left free covers the other port's unused reserve and the
port's own after the claim, or when `n` is 0; it takes the lowest-numbered free segments in ascending order; and under the
pool's law a claim that stays within the port's 8 is always met and the law holds after every claim that is met. -/
def Obligations.ClaimsKeepTheReserves : Prop :=
  ∀ (x : Pool) (p : Port) (n : Nat),
    let mine := x.holding.get p
    let others := x.holding.get p.other;
    (x.canClaim p n = true ↔ n = 0 ∨ (n ≤ x.free.length ∧ (8 - others) + (8 - (mine + n)) ≤ x.free.length - n)) ∧
    (x.free.Pairwise (· < ·) → (8 - mine) + (8 - others) ≤ x.free.length →
      (mine + n ≤ 8 → x.canClaim p n = true) ∧
      (x.canClaim p n = true →
        let y := (x.claim p n).2;
        (x.claim p n).1 ++ y.free = x.free ∧ (x.claim p n).1.length = n ∧ y.holding.get p = mine + n ∧
          y.holding.get p.other = others ∧ y.bytes = x.bytes ∧ (8 - (mine + n)) + (8 - others) ≤ y.free.length ∧
          ∀ a ∈ (x.claim p n).1, ∀ b ∈ y.free, a < b))

/-- Staging (R47, R49): in a canonical memory, for distinct segments, the bytes written from staging byte `j` on are read
back, every other staging byte of the area stays, and so does every byte of a segment that the area does not hold. Staging
byte i is byte i mod 256 of the segment at position i div 256. -/
def Obligations.StagingReadsBackWhatIsWritten : Prop :=
  ∀ (m : List Host.Cell) (segments : List Nat) (j : Nat) (bytes : List Byte),
    Memory.wf m = true → segments.Nodup → j + bytes.length ≤ 256 * segments.length →
    let t := stagingWrite m segments j bytes;
    stagingRange t segments j bytes.length = bytes ∧
    (∀ i, i < j ∨ j + bytes.length ≤ i → stagingRead t segments i = stagingRead m segments i) ∧
    (∀ n i, n ∉ segments → i < 256 → Memory.read t (n * 256 + i) = Memory.read m (n * 256 + i)) ∧ Memory.wf t = true ∧
    (∀ i n, segments[i / 256]? = some n → stagingRead m segments i = Memory.read m (n * 256 + i % 256) ∧
      stagingRead t segments i = Memory.read t (n * 256 + i % 256))

/-- The chunk of R65 for an entry with bytes left: it is 1 to 64 bytes, it ends at the next multiple of 64 or at the end of the
range, whichever comes first, and on SD it lies in one bank and one row (R92). -/
def Obligations.ChunkEndsAtSixtyFourOrAtTheRange : Prop :=
  ∀ e : Entry, e.moved < e.length →
    let o := e.current
    let n := e.chunkLength;
    1 ≤ n ∧ n ≤ 64 ∧ n ≤ e.length - e.moved ∧ ((o + n) % 64 = 0 ∨ e.moved + n = e.length) ∧ o / 64 = (o + n - 1) / 64 ∧
    ∀ t : Settings, t.inRanges = true → ∀ i < n, t.bankOf (o + i) = t.bankOf o ∧ t.rowOf (o + i) = t.rowOf o

/-- The beats of a range on a static slot (R77–R82), the first `k` complete and, where the WAIT limit is reached, the next one
not: one for each beat address from the one that holds its first byte to the one that holds its last, in ascending order.
Each byte of the range has its own lane, enabled, and every other lane is disabled. A write beat drives each enabled lane's
byte and 0 on the others, and takes setup, strobe and hold. A read beat samples the lanes of MD. On a NOR slot the read beats
of one aligned block of burst beats are a group: the first takes the setup and the strobe, a later one the burst pitch, and
the hold follows the last (R81); elsewhere every beat is a group of its own. A complete beat is stretched as sampled, at most
by the wait limit; the one that reaches the limit by all of it, and it samples nothing (R80, R85). Throughout a beat MBE# is
low on the enabled lanes alone, and high on every line above the slot's width. -/
def Obligations.BeatsCarryTheRange : Prop :=
  ∀ (f : Profile) (w o m base k : Nat) (d : List Byte) (xs : List Sample) (failed : Bool), 0 < w → 0 < m → d.length = m →
    let count := (o + m - 1) / w - o / w + 1
    let reads := readBeats f w o m xs k failed
    let writes := writeBeats f w o d xs base k failed
    let n := k + if failed then 1 else 0;
    beatCount w o m = count ∧ reads.length = n ∧ writes.length = n ∧
    (n ≤ count → ∀ i < n,
      let beat := o / w + i
      let inside := fun j => o ≤ beat * w + j ∧ beat * w + j < o + m
      let stretch := fun (x : Sample) => if i < k then min x.stretch f.waitLimit else f.waitLimit
      let first := i = 0 ∨ f.type ≠ .nor ∨ f.burstBeats ∣ beat
      let last := i + 1 = count ∨ f.type ≠ .nor ∨ f.burstBeats ∣ beat + 1 ∨ k ≤ i
      ∃ lanes driven sampled,
        writes[i]? = some (.beat true beat lanes driven f.setup (f.strobe + stretch (sampleAt xs (base + i))) f.hold
          (decide (i < k))) ∧
        reads[i]? = some (.beat false beat lanes sampled (if first then f.setup else 0)
          ((if first then f.strobe else f.burstPitch) + stretch (sampleAt xs i)) (if last then f.hold else 0)
          (decide (i < k))) ∧
        lanes.length = w ∧ driven.length = w ∧ sampled.length = (if i < k then w else 0) ∧
        (∀ j < w, (inside j → lanes[j]? = some true ∧ driven[j]? = d[beat * w + j - o]?) ∧
          (¬inside j → lanes[j]? = some false ∧ driven[j]? = some 0)) ∧
        (∀ j < sampled.length, sampled[j]? = some (((sampleAt xs i).md >>> (8 * j)).setWidth 8)) ∧
        ∀ x, reads[i]? = some x ∨ writes[i]? = some x → ∀ (c : Chip) (t j : Nat), j < 4 →
          (x.lines (.chip c) f t).mbe[j]? = some (some (decide (w ≤ j ∨ ¬inside j))))

/-! ### Control messages -/

/-- HELLO in RUNNING with a free control reply slot (R171, R202): on a DOWN port the port becomes UP and expects SEQ + 1;
on an UP port nothing but the sequence check changes. The answer gives the token, protocol version 1, the reset cause,
the port start (UP on an UP port), the CONFIG right and the setup result (R196). Nothing else brings a port UP (R170). A longer
payload on a DOWN port is a HELLO all the same (the model's reading, log entry 10). -/
def Obligations.HelloAloneBringsThePortUp : Prop :=
  (∀ (s : State) (p : Port) (seq token : Byte) (more : List Byte), s.startup.top = .running → (s.port p).held < 8 →
    s.Takes p CtrlKind.hello.code seq (token :: more) →
    let r := s.startup.result
    let u := s.takeFrame p seq
    let body := fun (start : Byte) =>
      [1, s.startup.cause.code, start, if (s.port p).config then 1 else 0, r.source.code, r.primary.code, r.fallback.code,
        byte r.applied, byte r.skipped, match r.firstSkipped with | some i => byte i | none => 0xFF];
    ((s.port p).state = .down → exec (.hello p seq (token :: more)) s = .next
      ((u.setPort p { u.port p with state := .up, expected := some (seq + 1) }).reply p token .hello .ok
        (body (s.port p).start.code)).settle) ∧
    ((s.port p).state = .up → more = [] →
      exec (.hello p seq [token]) s = .next (u.reply p token .hello .ok (body 3)).settle)) ∧
  (∀ (c : Instr) (s t : State) (p : Port), exec c s = .next t → (t.port p).state = .up →
    (s.port p).state = .up ∨
      (s.startup.top = .running ∧ (s.port p).held < 8 ∧ ∃ seq d, d ≠ [] ∧ c = .hello p seq d))

/-- The messages that read are answered at once and change nothing else: INFO (R172), STATUS (R28, R202), WIN-GET (R38),
SLOT-GET (R74), SDR-GET (R105) and RETIRE-LIST (R141). An index above 7, a code that names none of S1–S4, or for
RETIRE-LIST a slot not typed NAND, is answered BADARG with no body. STATUS gives for each port the entries in each state
and their total, the free segments and both holdings, the type and health of each static slot, the SDRAM's state, debt and
overruns, each port's notice depth and lost count, the control-overrun counts, and the control reply slots held, that of
its own reply included. The characters of INFO's part code are their ASCII values (the model's, log entry 30), and 1 for
MCLKSEL high, 0 for low, with BOOT and BAUD as numbers is the model's choice of their codes (log entry 34). The totals are
the sums of the state counts, and under the pool's law its items make 64. -/
def Obligations.QueriesAnswerAndChangeNothing : Prop :=
  ∀ (s : State) (p : Port) (seq token x : Byte),
    let answers : CtrlKind → List Byte → Status → List Byte → Prop := fun k d st body =>
      s.Reaches k p seq d → exec (controlOf k p seq d) s = .next
        ((s.takeFrame p seq).reply p token k st body).settle
    let count := fun q y => ((s.entries q).filter (fun e => e.state == y)).length
    let counts := fun q => [byte (count q .held), byte (count q .queued), byte (count q .active), byte (count q .replying),
      byte (count q .orphaned), byte (s.entries q).length]
    let slot := fun c => [(s.profile c).type.code, (s.health.get c).code]
    let slots := fun q => (s.port q).held + if q = p then 1 else 0
    let notices := fun q => let n := (s.takeFrame p seq).notices.get q;
      [byte n.queue.length] ++ leBytes 2 n.lost
    let body := counts .a ++ counts .b ++ [byte s.pool.free.length, byte s.pool.holding.a, byte s.pool.holding.b] ++
      slot .s1 ++ slot .s2 ++ slot .s3 ++ slot .s4 ++ [s.sdram.state.code, byte s.sdram.debt] ++
      leBytes 2 s.sdram.overruns ++ notices .a ++ notices .b ++ leBytes 2 (s.port .a).overruns ++
      leBytes 2 (s.port .b).overruns ++ [byte (slots .a), byte (slots .b)];
    answers .status [token] .ok body ∧ body.length = 39 ∧
    (∀ q, count q .held + count q .queued + count q .active + count q .replying + count q .orphaned =
      (s.entries q).length) ∧
    (s.PoolLaw → s.pool.free.length + s.pool.holding.a + s.pool.holding.b = 64) ∧
    answers .info [token] .ok ([0x4B, 0x5A, 0x32, 0x34, 0x30, 0x36, 1, 1, s.straps.boot.setWidth 8, s.straps.baud.setWidth 8,
      if s.straps.mclksel then 1 else 0, 32, 16, 64] ++ leBytes 2 256 ++ [8, 8, 8] ++ leBytes 2 4352) ∧
    (∀ w, s.windows[x.toNat]? = some w → answers .winGet [token, x] .ok (x :: w.block)) ∧
    (s.windows.length ≤ x.toNat → answers .winGet [token, x] .badArg []) ∧
    (∀ c, chipOfCode x = some c →
      answers .slotGet [token, x] .ok ([x] ++ (s.profile c).block ++ [(s.health.get c).code]) ∧
      ((s.profile c).type = .nand → answers .retireList [token, x] .ok
        ([x, byte (s.retired.get c).length] ++ (s.retired.get c).flatMap (leBytes 2))) ∧
      ((s.profile c).type ≠ .nand → answers .retireList [token, x] .badArg [])) ∧
    (chipOfCode x = none → answers .slotGet [token, x] .badArg [] ∧ answers .retireList [token, x] .badArg []) ∧
    answers .sdrGet [token] .ok (s.sdram.settings.block ++ leBytes 4 s.sdram.settings.capacity ++
      [s.sdram.state.code, if s.sdram.sleepPending then 1 else 0])

/-- WIN-SET at its owner (R31–R35). With enabled neither 0 nor 1 it is refused BADARG. With enabled 1 it is accepted exactly when the index is at most 7, the record has the
form of R32, the target passes R33, the window lies within the capacity and it overlaps no other enabled window (R34);
then the whole entry is the record carried and the answer is OK with the index. Refused, it changes nothing and is
answered with the first of BADARG, BADARG or NOTREADY for the target, BADARG for the capacity, and CONFLICT. -/
def Obligations.WinSetJudgesTheWholeRecord : Prop :=
  ∀ (s : State) (p : Port) (seq token i : Byte) (block : List Byte),
    s.Reaches .winSet p seq (token :: i :: block) → at8 block 0 ≠ 0 →
    let base := field block 4 4
    let size := field block 8 4
    let offset := field block 12 4
    let formed := at8 block 0 = 1 ∧ i.toNat ≤ 7 ∧ (∃ k, 12 ≤ k ∧ k ≤ 27 ∧ size = 2 ^ k) ∧ size ∣ base ∧ 4096 ∣ offset ∧
      1 ≤ (at8 block 1).toNat ∧ (at8 block 1).toNat ≤ 5 ∧ (at8 block 2).toNat ≤ 2 ∧ (at8 block 3).toNat ≤ 2
    let u := s.takeFrame p seq
    let refused := fun st => exec (.winSet p seq (token :: i :: block)) s =
      .next (u.reply p token .winSet st [i]).settle;
    (¬formed → refused .badArg) ∧
    ∀ k a b, slotOfCode (at8 block 1) = some k → rightsOfCode (at8 block 2) = some a →
      rightsOfCode (at8 block 3) = some b → formed →
      let targetOk := match k with
        | .chip c => (s.profile c).type = .sram ∨ (s.profile c).type = .nor
        | .sd => s.sdram.state = .ready ∨ s.sdram.state = .powerdown ∨ s.sdram.state = .selfRefresh
      let overlapping := ∃ j w, j ≠ i.toNat ∧ s.windows[j]? = some w ∧ w.enabled = true ∧ w.base < base + size ∧
        base < w.base + w.size;
      (¬targetOk → refused (if k = .sd then .notReady else .badArg)) ∧
      (targetOk →
        (s.slotCapacity k < offset + size → refused .badArg) ∧
        (offset + size ≤ s.slotCapacity k →
          (overlapping → refused .conflict) ∧
          (¬overlapping →
            let w : Window :=
              { enabled := true, base := base, size := size, target := some k, offset := offset, rights := ⟨a, b⟩ }
            exec (.winSet p seq (token :: i :: block)) s = .next
              (({ u with windows := s.windows.set i.toNat w } : State).reply p token .winSet .ok [i]).settle)))

/-- WIN-SET with enabled 0 (R36): with an index from 0 to 7 it is accepted whatever the other fields hold, the entry at the
index is disabled with its other six fields 0, and the answer is OK; with an index above 7 it is refused BADARG and the
table is unchanged. A disabled entry covers no address, overlaps no window and targets no slot. -/
def Obligations.WinSetDisablesWhateverTheOtherFieldsHold : Prop :=
  ∀ (s : State) (p : Port) (seq token i : Byte) (block : List Byte),
    s.Reaches .winSet p seq (token :: i :: block) → at8 block 0 = 0 →
    let u := s.takeFrame p seq
    let off : Window := { enabled := false, base := 0, size := 0, target := none, offset := 0, rights := ⟨.none, .none⟩ };
    (i.toNat ≤ 7 → exec (.winSet p seq (token :: i :: block)) s = .next
      (({ u with windows := s.windows.set i.toNat off } : State).reply p token .winSet .ok [i]).settle) ∧
    (7 < i.toNat → exec (.winSet p seq (token :: i :: block)) s = .next (u.reply p token .winSet .badArg [i]).settle) ∧
    (∀ a, off.covers a = false) ∧ (∀ w, off.overlaps w = false ∧ w.overlaps off = false) ∧ off.target = none

/-- SLOT-SET at its owner (R71, R72, R139): the checks in order, each refusal changing nothing; accepted, the whole
profile is replaced, the health stays, the context is IDLE (its other fields are the model's choice, log entry 35), and
the retired-block list is kept exactly when the slot stays NAND with the same page size, pages per block and block count.
-/
def Obligations.SlotSetReplacesTheProfile : Prop :=
  ∀ (s : State) (p : Port) (seq token x : Byte) (block : List Byte), s.Reaches .slotSet p seq (token :: x :: block) →
    let u := s.takeFrame p seq
    let refused := fun st => exec (.slotSet p seq (token :: x :: block)) s =
      .next (u.reply p token .slotSet st []).settle;
    (chipOfCode x = none → refused .badArg) ∧
    ∀ c, chipOfCode x = some c →
      let targeted := ∃ w ∈ s.windows, w.enabled = true ∧ w.target = some (.chip c)
      let live := ∃ q, ∃ e ∈ s.entries q, e.slot = .chip c ∧ e.state ≠ .replying
      let working := (s.profile c).type = .nand ∧ ((s.context c).state ≠ .idle ∨ s.health.get c = .clearing);
      (targeted → refused .conflict) ∧
      (¬targeted → live ∨ working → refused .busy) ∧
      (¬targeted → ¬(live ∨ working) →
        (profileOfBlock block = none → refused .badArg) ∧
        ∀ f, profileOfBlock block = some f →
          let kept := (s.profile c).type = .nand ∧ f.type = .nand ∧ (s.profile c).pageSize = f.pageSize ∧
            (s.profile c).pagesPerBlock = f.pagesPerBlock ∧ (s.profile c).blockCount = f.blockCount
          exec (.slotSet p seq (token :: x :: block)) s = .next
            (({ u with
                arbiter := { s.arbiter with profiles := s.arbiter.profiles.set c f }
                nand := s.nand.set c Context.idle
                retired := s.retired.set c (if kept then s.retired.get c else []) } : State).reply p token .slotSet .ok
              []).settle)

/-- The blocks of 12.4 (R201, R202) read back as the record they were made from: a profile that SLOT-SET can hold (R70, R75, R117), a
settings record in the ranges of R91, and an enabled window of the form of R32. -/
def Obligations.BlocksReadBackAsTheRecord : Prop :=
  (∀ f : Profile, f.Legal → profileOfBlock f.block = some f ∧ f.block.length = 32) ∧
  (∀ d f, profileOfBlock d = some f → f.Legal) ∧
  (∀ t : Settings, t.inRanges = true → settingsOfBlock t.block = some t ∧ t.block.length = 17) ∧
  (∀ w : Window, w.Formed → w.enabled = true → w.offset < 2 ^ 32 →
    windowOfBlock w.block = some w ∧ w.block.length = 16)

/-- SLOT-CLEAR at its owner (R88, R137): on a slot typed SRAM, NOR or OFF the health becomes OK and the answer is OK at
once; on a NAND slot it is OK with no change when the health is OK, BUSY when CLEARING, and when STALLED the clear begins
and its answer is deferred in the slot it holds (R175); sectors left 0 and ready seen no are the model's choice (log entry
35). -/
def Obligations.SlotClearReturnsTheHealth : Prop :=
  ∀ (s : State) (p : Port) (seq token x : Byte), s.Reaches .slotClear p seq [token, x] →
    let u := s.takeFrame p seq
    let answered := fun (v : State) st body => exec (.slotClear p seq [token, x]) s =
      .next (v.reply p token .slotClear st body).settle;
    (chipOfCode x = none → answered u .badArg []) ∧
    ∀ c, chipOfCode x = some c →
      ((s.profile c).type ≠ .nand →
        answered { u with health := s.health.set c .ok } .ok [chipCode c, Health.ok.code]) ∧
      ((s.profile c).type = .nand →
        (s.health.get c = .ok → answered u .ok [chipCode c, Health.ok.code]) ∧
        (s.health.get c = .clearing → answered u .busy []) ∧
        (s.health.get c = .stalled → exec (.slotClear p seq [token, x]) s = .next
          (({ u with
              health := s.health.set c .clearing
              nand := s.nand.set c { Context.idle with
                state := .clearing, op := some .reset, clearReply := some ⟨p, token⟩ } } : State).holdSlot p).settle))

/-- SDR-SET and SDR-SLEEP at their owner (R95, R104). SDR-SET is refused CONFLICT, BUSY or BADARG in that order, changing
nothing; accepted, it replaces the settings, closes every bank, sets the debt to 0, stops the three timers, raises MCKE,
begins the stabilisation wait in INITIALISING, and holds its slot for the deferred reply; in READY MCKE is high already
(R94), and the moment it last rose stands (the model's reading, log entry 23). SDR-SLEEP becomes pending in READY or
POWERDOWN with the SD queue empty and none pending, which makes self-refresh due and so leaves POWERDOWN (R100). -/
def Obligations.SdrSetAndSdrSleepActByState : Prop :=
  ∀ (s : State) (p : Port) (seq token : Byte) (block : List Byte),
    (s.Reaches .sdrSet p seq (token :: block) →
      let u := s.takeFrame p seq
      let refused := fun st => exec (.sdrSet p seq (token :: block)) s = .next (u.reply p token .sdrSet st []).settle
      let targeted := ∃ w ∈ s.windows, w.enabled = true ∧ w.target = some .sd
      let live := ∃ q, ∃ e ∈ s.entries q, e.slot = .sd ∧ e.state ≠ .replying
      let busy := s.sdram.state = .initialising ∨ live ∨ s.sdram.sleepPending = true;
      (targeted → refused .conflict) ∧ (¬targeted → busy → refused .busy) ∧
      (¬targeted → ¬busy → settingsOfBlock block = none → refused .badArg) ∧
      (∀ t, ¬targeted → ¬busy → settingsOfBlock block = some t → exec (.sdrSet p seq (token :: block)) s = .next
        (({ u with sdram := { s.sdram with
              settings := t, state := .initialising, init := .waiting, initWait := 0
              rows := List.replicate t.banks none, debt := 0, refreshTimer := none, powerDownTimer := none
              selfRefreshTimer := none, srReached := false, setReply := some ⟨p, token⟩
              mckeRoseAt := if s.sdram.state = .ready then s.sdram.mckeRoseAt else s.now } } : State).holdSlot p).settle)) ∧
    (s.Reaches .sdrSleep p seq [token] →
      let u := s.takeFrame p seq
      let answered := fun st => exec (.sdrSleep p seq [token]) s = .next (u.reply p token .sdrSleep st []).settle
      let d := s.sdram
      let awake := d.state = .ready ∨ d.state = .powerdown;
      (d.state = .uninit ∨ d.state = .initialising → answered .notReady) ∧
      (d.state = .selfRefresh → answered .ok) ∧
      (awake → d.sleepPending = true ∨ s.queue .sd ≠ [] → answered .busy) ∧
      (awake → d.sleepPending = false → s.queue .sd = [] → exec (.sdrSleep p seq [token]) s = .next
        (({ u with sdram := { d with
              sleepPending := true, sleepReply := some ⟨p, token⟩, state := .ready
              powerDownTimer := if d.state = .powerdown then some 0 else d.powerDownTimer
              mckeRoseAt := if d.state = .powerdown then s.now else d.mckeRoseAt } } : State).holdSlot p).settle))

/-- RETIRE-ADD and RETIRE-DROP at their owner (R140, R141): BADARG for a slot not typed NAND and, for an addition, a block not
below the block count. An addition of a listed block is OK with no change, at 32 blocks FULL, and otherwise the block takes
its place in ascending order and the queue's head is examined ahead of the OK. A drop of an absent block is NOTFOUND; a
listed block is removed and the list closes up. The examination (R123): at a NAND slot with its context IDLE and its health OK,
a head that is a PG-PROG or BLK-ERASE of a listed block leaves the queue and completes with RETIRED, the fences of its port are
evaluated, and the new head is examined in turn; any other head, context or health leaves the state as it is. -/
def Obligations.RetiredListTakesItsMessages : Prop :=
  ∀ (s : State) (p : Port) (seq token x lo hi : Byte),
    let block := lo.toNat + 256 * hi.toNat
    let d := [token, x, lo, hi];
    (s.Reaches .retireAdd p seq d →
      let u := s.takeFrame p seq
      let answered := fun (v : State) st => exec (.retireAdd p seq d) s =
        .next (v.reply p token .retireAdd st []).settle;
      (chipOfCode x = none → answered u .badArg) ∧
      ∀ c, chipOfCode x = some c →
        let usable := (s.profile c).type = .nand ∧ block < (s.profile c).blockCount;
        (¬usable → answered u .badArg) ∧
        (usable → block ∈ s.retired.get c → answered u .ok) ∧
        (usable → block ∉ s.retired.get c → 32 ≤ (s.retired.get c).length → answered u .full) ∧
        (usable → block ∉ s.retired.get c → (s.retired.get c).length < 32 →
          answered (({ u with retired := s.retired.set c (insertAsc block (s.retired.get c)) } : State).examine c) .ok)) ∧
    (s.Reaches .retireDrop p seq d →
      let u := s.takeFrame p seq
      let answered := fun (v : State) st => exec (.retireDrop p seq d) s =
        .next (v.reply p token .retireDrop st []).settle;
      (chipOfCode x = none → answered u .badArg) ∧
      ∀ c, chipOfCode x = some c →
        ((s.profile c).type ≠ .nand → answered u .badArg) ∧
        ((s.profile c).type = .nand → block ∉ s.retired.get c → answered u .notFound) ∧
        ((s.profile c).type = .nand → block ∈ s.retired.get c →
          answered { u with retired := s.retired.set c ((s.retired.get c).filter (fun b => b != block)) } .ok)) ∧
    (∀ l : List Nat, l.Pairwise (· < ·) → (insertAsc block l).Pairwise (· < ·) ∧
      ∀ b, b ∈ insertAsc block l ↔ b = block ∨ b ∈ l) ∧
    ∀ c,
      let examines := (s.profile c).type = .nand ∧ (s.context c).state = .idle ∧ s.health.get c = .ok
      let retires := fun (e : Entry) => (e.kind = .pgProg ∨ e.kind = .blkErase) ∧ e.block ∈ s.retired.get c;
      (s.TableLaw → examines → ∀ r rest e, s.queue (.chip c) = r :: rest → s.find r = some e → retires e →
        s.examine c = (((s.dequeue (.chip c) r).finish r .retired).evalFences r.port).examine c) ∧
      (¬(examines ∧ ∃ r rest e, s.queue (.chip c) = r :: rest ∧ s.find r = some e ∧ retires e) → s.examine c = s)

/-- CANCEL and BRIDGE-RESET at their owner (R21, R181). CANCEL of a HELD or QUEUED entry of the sending port takes it from
its queue and completes it with CANCELLED, its segments released, before the answer OK; of an ACTIVE, REPLYING or ORPHANED
one it is answered TOO-LATE, and with no live entry NOTFOUND. The fences come before the head examination (log entry 13). BRIDGE-RESET is answered OK and becomes pending, or BUSY when
one is pending. -/
def Obligations.CancelAndBridgeResetAnswerOnce : Prop :=
  ∀ (s : State) (p : Port) (seq token tag : Byte),
    (s.Reaches .cancel p seq [token, tag] →
      let u := s.takeFrame p seq
      let answered := fun (v : State) st => exec (.cancel p seq [token, tag]) s =
        .next (v.reply p token .cancel st []).settle
      let examined := fun (v : State) (k : Slot) => match k with | .chip c => v.examine c | .sd => v;
      (s.find ⟨p, tag⟩ = none → answered u .notFound) ∧
      ∀ e, s.find ⟨p, tag⟩ = some e → e.port = p →
        (e.state = .active ∨ e.state = .replying ∨ e.state = .orphaned → answered u .tooLate) ∧
        (e.state = .held → answered (examined ((u.finish ⟨p, tag⟩ .cancelled).evalFences p) e.slot) .ok) ∧
        (e.state = .queued →
          answered (examined (((u.dequeue e.slot ⟨p, tag⟩).finish ⟨p, tag⟩ .cancelled).evalFences p) e.slot) .ok)) ∧
    (s.Reaches .bridgeReset p seq [token] →
      let u := s.takeFrame p seq;
      (s.bridgeReset = none → exec (.bridgeReset p seq [token]) s = .next
        (({ u with bridgeReset := some p } : State).reply p token .bridgeReset .ok []).settle) ∧
      (s.bridgeReset ≠ none → exec (.bridgeReset p seq [token]) s =
        .next (u.reply p token .bridgeReset .busy []).settle))

/-! ### Tenure ends on static slots and SD -/

/-- The end of a tenure (R57, R98, R148): the slot becomes the last used, the direction and the end time are recorded, the bus
is free and the ECC unit holds no sector; the end of an SD tenure restarts the power-down timer. A granted tenure is held
idle for the recovery gap of R69, less the idle time since the last tenure's end. -/
def Obligations.TenureEndIsRecordedAndGapsAreCounted : Prop :=
  (∀ (s : State) (t : Tenure) (write : Bool) (cycles : List BusCycle), s.arbiter.tenure = some t →
    s.endTenure write cycles = { s with
      arbiter := { s.arbiter with
        lastUsed := some t.slot, lastWrite := write, endTime := some s.now, tenure := none, cycles := cycles }
      ecc := EccUnit.off
      sdram := if t.slot = .sd
        then { s.sdram with powerDownTimer := s.sdram.powerDownTimer.map (fun _ => 0) } else s.sdram }) ∧
  (∀ (s : State) (k : Slot), s.arbiter.tenure = none → s.winner = some k → ∃ t, s.grant.arbiter.tenure = some t ∧
    t.slot = k ∧ t.start = s.now + t.gap ∧
    (s.arbiter.endTime = none ∨ s.arbiter.lastUsed = none → t.gap = 0) ∧
    ∀ since, s.arbiter.endTime = some since →
      let idle := s.now - since;
      (s.arbiter.lastUsed = some .sd → t.gap = if k = .sd then 0 else 1 - idle) ∧
      (∀ c, s.arbiter.lastUsed = some (.chip c) →
        let gap := (s.profile c).recovery - idle;
        (k ≠ .chip c → t.gap = gap) ∧
        (k = .chip c →
          (s.arbiter.lastWrite = true → t.gap = 0) ∧
          (s.arbiter.lastWrite = false →
            (t.purpose = .loadChunk ∨ t.purpose = .atomic → t.gap = 0) ∧
            (∀ r e, t.purpose = .chunk → t.entry = some r → s.find r = some e →
              t.gap = if e.kind = .write then gap else 0) ∧
            (t.purpose = .nandUnload → t.gap = if (s.profile c).pageSize = 512 then 0 else gap) ∧
            (t.purpose = .nandCommand ∨ t.purpose = .nandLoad ∨ t.purpose = .nandStatus ∨ t.purpose = .nandId ∨
              t.purpose = .nandReset → t.gap = gap)))))

/-- The end of a chunk on a static slot (R49, R57, R65, R78, R82). A WRITE drives its bytes from staging and a READ stages the
bytes sampled on their lanes; progress rises by the chunk's bytes; after the last chunk the entry leaves the queue and
completes with OK. A sample that the command does not give is free (log entry 6). -/
def Obligations.StaticChunkMovesItsBytes : Prop :=
  ∀ (s : State) (xs : List Sample) (t : Tenure) (c : Chip) (r : Ref) (e : Entry), s.TableLaw →
    s.arbiter.tenure = some t → t.purpose = .chunk → t.slot = .chip c → t.entry = some r → s.find r = some e →
    let f := s.profile c
    let w := f.width / 8
    let o := e.offset + e.moved
    let n := e.chunkLength
    let write := decide (e.kind = .write)
    let data := (List.range n).map (fun i => lane (sampleAt xs ((o + i) / w - o / w)).md ((o + i) % w))
    let cycles := if write
      then writeBeats f w o (stagingRange s.pool.bytes e.segments e.moved n) xs 0 (beatCount w o n) false
      else readBeats f w o n xs (beatCount w o n) false
    let moved := (if write then s else s.stage e.segments e.moved data).endTenure write cycles
    let u := moved.updateEntry r (fun y => { y with progress := some (e.moved + n) });
    (e.moved + n ≠ e.length → exec (.chunkEnd xs) s = .next u.settle) ∧
    (e.moved + n = e.length → exec (.chunkEnd xs) s = .next ((u.dequeue e.slot r).complete r .ok).settle)

/-- The end of a chunk on SD (R49, R98, R107, R108): bytes, progress and completion as on a static slot, and both idle timers
restart. The bus work is the row work, the beats of the chunk's range with a WRITE's bytes from staging, and the policy's
end (R107). The chunk's bank is left open with its row under OPEN and closed under CLOSED; a row hit keeps its activation
mark, a write sets the last-write mark, and no other bank changes. -/
def Obligations.SdChunkMovesItsBytesAndKeepsTheRowTable : Prop :=
  ∀ (s : State) (xs : List Sample) (t : Tenure) (r : Ref) (e : Entry), s.TableLaw →
    s.arbiter.tenure = some t → t.purpose = .chunk → t.slot = .sd → t.entry = some r → s.find r = some e →
    s.sdram.settings.inRanges = true → s.sdram.rows.length = s.sdram.settings.banks →
    let g := s.sdram.settings
    let w := g.width / 8
    let o := e.offset + e.moved
    let n := e.chunkLength
    let write := decide (e.kind = .write)
    let data := (List.range n).map (fun i => lane (sampleAt xs ((o + i) / w - o / w)).md ((o + i) % w))
    let work := if write then sdWriteChunk s.sdStart g o (stagingRange s.pool.bytes e.segments e.moved n)
      else sdReadChunk s.sdStart g o n xs
    let rows := work.rows
    let moved := (({ (if write then s else s.stage e.segments e.moved data) with
      sdram := { s.sdram with rows := rows } } : State).endTenure write work.cycles)
    let u := (moved.setSdram { moved.sdram with
      selfRefreshTimer := s.sdram.selfRefreshTimer.map (fun _ => 0), srReached := false }).updateEntry r
        (fun y => { y with progress := some (e.moved + n) });
    (∀ b, b ≠ g.bankOf o → rows[b]? = s.sdram.rows[b]?) ∧
    (g.policy = .closed → rows[g.bankOf o]? = some none) ∧
    (g.policy = .opened → ∃ x, rows[g.bankOf o]? = some (some x) ∧ x.row = g.rowOf o ∧
      (write = true → x.lastWriteAt.isSome) ∧
      (s.sdram.hit o = true → ∃ y, s.sdram.rows[g.bankOf o]? = some (some y) ∧ x.activatedAt = y.activatedAt ∧
        (write = false → x = y))) ∧
    (∀ i < beatCount w o n, ∃ c ∈ work.cycles, ∃ column, column = g.columnOf ((o / w + i) * w) ∧
      if write then ∃ lanes d, c = .sd (.write (g.bankOf o) column lanes d) ∧ lanes.length = w ∧ d.length = w ∧
          ∀ j < w, let byte := (o / w + i) * w + j;
            lanes[j]? = some (decide (o ≤ byte ∧ byte < o + n)) ∧
            (o ≤ byte → byte < o + n →
              d[j]? = (stagingRange s.pool.bytes e.segments e.moved n)[byte - o]?)
      else c = .sd (.read (g.bankOf o) column (sampleAt xs i).md)) ∧
    (e.moved + n ≠ e.length → exec (.chunkEnd xs) s = .next u.settle) ∧
    (e.moved + n = e.length → exec (.chunkEnd xs) s = .next ((u.dequeue e.slot r).complete r .ok).settle)

/-- The end of an atomic (R2, R67, R83, R109). The old value is the bytes read, least significant at the lowest offset, and is
staged; SWAP writes its operand, FADD the sum modulo 2 to the power 8 × length, and CSET its operand when the old value
equals compare; the last direction is write when a value was written. The entry leaves its queue and completes with OK, or
with CMP-MISS where a CSET wrote nothing, its progress being its length (the model's reading, log entry 16). On SD the bus
work and the row table are those of R109's row work, read beats and, where a value is written, write beats, and both idle
timers restart (R98). -/
def Obligations.AtomicReadsDecidesAndWrites : Prop :=
  ∀ (s : State) (xs : List Sample) (t : Tenure) (r : Ref) (e : Entry), s.TableLaw →
    s.arbiter.tenure = some t → t.purpose = .atomic → t.entry = some r → s.find r = some e →
    let w := match t.slot with | .chip c => (s.profile c).width / 8 | .sd => s.sdram.settings.width / 8
    let data := (List.range e.length).map (fun i =>
      lane (sampleAt xs ((e.offset + i) / w - e.offset / w)).md ((e.offset + i) % w))
    let old := leValue data
    let missed := e.kind = .cset ∧ old ≠ e.compare
    let value := if e.kind = .cset ∨ e.kind = .swap then e.operand else (old + e.operand) % 2 ^ (8 * e.length)
    let done := fun (u : State) =>
      ((u.updateEntry r (fun y => { y with progress := some e.length })).dequeue e.slot r).complete r
        (if missed then .cmpMiss else .ok);
    (∀ c, t.slot = .chip c →
      let f := s.profile c
      let n := beatCount w e.offset e.length
      let written := [BusCycle.idle f.recovery] ++ writeBeats f w e.offset (leBytes e.length value) xs n n false
      let cycles := readBeats f w e.offset e.length xs n false ++ if missed then [] else written
      exec (.atomicEnd xs) s = .next (done ((s.stage e.segments 0 data).endTenure (!decide missed) cycles)).settle) ∧
    (t.slot = .sd →
      let g := s.sdram.settings
      let read := (s.sdStart.openRow g e.offset).readBeats g e.offset (beatCount w e.offset e.length) xs
      let work := (if missed then read else (read.wait 1).writeBeats g e.offset (leBytes e.length value)).policyEnd g e.offset
      let u := ({ (s.stage e.segments 0 data) with sdram := { s.sdram with rows := work.rows } } : State).endTenure
        (!decide missed) work.cycles
      exec (.atomicEnd xs) s = .next (done (u.setSdram { u.sdram with
        selfRefreshTimer := s.sdram.selfRefreshTimer.map (fun _ => 0), srReached := false })).settle)

/-- The WAIT limit reached in a beat of a tenure that has it (R80, R83, R85, R86), in the order of R85: the slot is STALLED, the
tenure ends with the direction of the beat that failed and the next grant is made, the entry completes with BUSTIMEOUT at
the bytes of its completed beats, the slot is flushed, and SLOT-STALL with cause WAIT goes to both ports. The beats of an
atomic are its read beats and then, where a value is written, its write beats; the read beats count. On a slot with
wait limit 0 nothing happens. That the grant comes before the completion is the model's reading (log entry 14), and so is
that an atomic's progress counts its read beats (log entry 16). -/
def Obligations.WaitLimitStallsTheSlot : Prop :=
  ∀ (s : State) (xs : List Sample) (k : Nat) (t : Tenure) (c : Chip) (r : Ref) (e : Entry), s.TableLaw →
    s.arbiter.tenure = some t → t.slot = .chip c → t.entry = some r → s.find r = some e →
    let f := s.profile c
    let w := f.width / 8
    let o := e.offset + e.moved
    let bytesIn := fun (n beats : Nat) => if beats = 0 then 0 else min n ((o / w + beats) * w - o)
    let stalls := fun (write staged : Bool) (bytes : Nat) (cycles : List BusCycle) =>
      let stalled := { s with health := s.health.set c .stalled }
      let data := (List.range bytes).map (fun i => lane (sampleAt xs ((o + i) / w - o / w)).md ((o + i) % w))
      let u := ((if staged then stalled.stage e.segments e.moved data else stalled).endTenure write cycles).grant
      let v := u.updateEntry r (fun y => { y with progress := some (e.moved + bytes) })
      exec (.waitLimitReached k xs) s = .next
        ((((v.dequeue e.slot r).complete r .busTimeout).flush (.chip c)).postBoth (.slotStall c .wait)).settle;
    (t.purpose = .chunk ∨ t.purpose = .atomic → f.waitLimit = 0 → exec (.waitLimitReached k xs) s = .next s.settle) ∧
    (t.purpose = .chunk → f.waitLimit ≠ 0 →
      let n := e.chunkLength;
      k < beatCount w o n →
      (e.kind = .write → stalls true false (bytesIn n k)
        (writeBeats f w o (stagingRange s.pool.bytes e.segments e.moved n) xs 0 k true)) ∧
      (e.kind = .read → stalls false true (bytesIn n k) (readBeats f w o n xs k true))) ∧
    (t.purpose = .atomic → f.waitLimit ≠ 0 → e.kind.isAtomic = true → e.moved = 0 →
      let n := beatCount w o e.length
      let new := e.newBytes w xs;
      (k < n → stalls false true (bytesIn e.length k) (readBeats f w o e.length xs k true)) ∧
      (n ≤ k → k < 2 * n → ∀ d, new = some d → stalls true true (bytesIn e.length n)
        (readBeats f w o e.length xs n false ++
          [BusCycle.idle f.recovery] ++ writeBeats f w o d xs n (k - n) true)))

/-! ### NAND slots -/

/-- The ends of the command and loading tenures (R124, R126, R128, R130, R131). A command tenure arms the busy timer with the
read or the erase limit. A loading tenure sends its sector with the check bytes of R149 and raises the entry's progress; the
last one arms the timer with the program limit. A ready line that is high at the arming is the ready rise, taken at once. The
cycles are those of R119–R121: 00, or 60, or 80 before the first sector; column 0 and the row of block and page, or the row
alone, least significant byte first; the sector, one byte a cycle at width 8 and two at width 16; 30 on large pages, D0, or
10 after the last sector; and the 10 MCLK wait. -/
def Obligations.BusyPeriodsBeginAtTenureEnds : Prop :=
  (∀ (f : Profile) (block page : Nat) (first last : Bool) (d : List Byte),
    let cmd := fun (b : Byte) => BusCycle.nand (.command b)
    let rows := fun n => (leBytes (if f.blockCount * f.pagesPerBlock ≤ 65536 then 2 else 3) n).map (fun b =>
      BusCycle.nand (.address b))
    let place := (if f.pageSize = 512 then [BusCycle.nand (.address 0)] else [.nand (.address 0), .nand (.address 0)]) ++
      rows (block * f.pagesPerBlock + page)
    let data := if f.width = 16
      then (List.range (d.length / 2)).map (fun i => BusCycle.nand (.dataIn [at8 d (2 * i), at8 d (2 * i + 1)]))
      else d.map (fun b => BusCycle.nand (.dataIn [b]));
    readCommandCycles f block page =
      [cmd 0x00] ++ place ++ (if f.pageSize = 512 then [.idle 10] else [cmd 0x30, .idle 10]) ∧
    eraseCommandCycles f block = [cmd 0x60] ++ rows (block * f.pagesPerBlock) ++ [cmd 0xD0, .idle 10] ∧
    loadingCycles f block page first last d =
      (if first then [cmd 0x80] ++ place else []) ++ data ++ if last then [cmd 0x10, .idle 10] else []) ∧
  ∀ (s : State) (ready : Bool) (t : Tenure) (c : Chip) (r : Ref) (e : Entry), s.TableLaw →
    s.arbiter.tenure = some t → t.slot = .chip c → (s.context c).entry = some r → s.find r = some e →
    let f := s.profile c
    let x := s.context c
    let armed := fun (u : State) (y : Context) (limit : Nat) =>
      { u with
        pins := { s.pins with ready := s.pins.ready.set c ready }
        nand := s.nand.set c { y with
          state := .busy, timer := if ready then none else some ⟨limit, 0⟩, readySeen := ready } };
    (t.purpose = .nandCommand → x.state = .busy → x.op = some .erase →
      exec (.nandCommandEnd ready) s =
        .next (armed (s.endTenure true (eraseCommandCycles f e.block)) x f.eraseLimit).settle) ∧
    (t.purpose = .nandCommand → x.state = .busy → x.op = some .read →
      exec (.nandCommandEnd ready) s =
        .next (armed (s.endTenure true (readCommandCycles f e.block e.page)) x f.readLimit).settle) ∧
    (t.purpose = .nandLoad → x.state = .loading →
      let sector := loadSector f.ecc e.raw (stagingRange s.pool.bytes e.segments (e.moved * 528) 528)
      let u := (s.endTenure true (loadingCycles f e.block e.page (e.moved == 0) (x.left == 1) sector)).updateEntry r
        (fun e => { e with progress := some (e.moved + 1) });
      (x.left = 1 → exec (.loadingTenureEnd ready) s = .next (armed u { x with left := 0 } f.programLimit).settle) ∧
      (x.left ≠ 1 → exec (.loadingTenureEnd ready) s = .next
        ({ u with nand := s.nand.set c { x with left := x.left - 1 } } : State).settle))

/-- The ends of the unloading, status and read-ID tenures (R124, R125, R127, R129, R142, R154). A sector goes to its
staging bytes as the ECC unit delivers it, with its result recorded there and in the unit (R148, log entry 28); the last
one completes the PG-READ with the status of its results. A status byte with bit 0 = 0 completes the entry with OK; with
bit 0 = 1 the block is retired where the list has room and the entry completes with NANDFAIL, the notice being posted
after the next head's examination. The other fields of the IDLE context are the model's choice (log entry 35). Beyond the
detection range the outcome is the free choice of log entry 7. The cycles are those of R119–R121: on large pages 05, the
column of the sector's first position, in bytes at width 8 and in words at width 16, E0 and the 8 MCLK wait, and then the
sector; 70, the 4 MCLK wait and the status; 90, the address 00, the 4 MCLK wait and the ID bytes. -/
def Obligations.NandOperationsEndWithTheirStatus : Prop :=
  (∀ (f : Profile) (sector : Nat) (status : Byte) (d : List Byte),
    let cmd := fun (b : Byte) => BusCycle.nand (.command b)
    let out := fun (x : List Byte) => BusCycle.nand (.dataOut x)
    let data := if f.width = 16 then (List.range (d.length / 2)).map (fun i => out [at8 d (2 * i), at8 d (2 * i + 1)])
      else d.map (fun b => out [b])
    let column := sector * if f.width = 16 then 264 else 528;
    unloadingCycles f sector d = (if f.pageSize = 512 then [] else
      [cmd 0x05] ++ (leBytes 2 column).map (fun b => BusCycle.nand (.address b)) ++ [cmd 0xE0, .idle 8]) ++ data ∧
    statusCycles status = [cmd 0x70, .idle 4, out [status]] ∧
    idCycles d = [cmd 0x90, .nand (.address 0x00), .idle 4] ++ d.map (fun b => out [b])) ∧
  ∀ (s : State) (t : Tenure) (c : Chip) (r : Ref) (e : Entry), s.TableLaw →
    s.arbiter.tenure = some t → t.slot = .chip c → (s.context c).entry = some r → s.find r = some e →
    let f := s.profile c
    let x := s.context c
    let ended := fun (u : State) st => ((u.complete r st).setContext c Context.idle).examine c;
    (t.purpose = .nandUnload → ∀ bytes, bytes.length = 528 →
      let decoded := if e.raw = true ∨ f.ecc = .none then (SectorResult.clean, bytes, false)
        else decodeSector f.ecc (Config.beyondRange s.fresh) bytes
      let u := { s.endTenure false (unloadingCycles f (e.firstSector + e.moved) bytes) with
        fresh := if decoded.2.2 then s.fresh + 1 else s.fresh
        ecc := if e.raw = true ∨ f.ecc = EccMode.none then EccUnit.off else
          { work := .none, slot := some c, mode := f.ecc, check := heldCheck f.ecc bytes, zeroBits := zeroBits bytes
            result := some decoded.1 } }
      let v := (u.stage e.segments (e.moved * 528) decoded.2.1).updateEntry r (fun e =>
        { e with progress := some (e.moved + 1), sectors := e.sectors ++ [decoded.1] })
      let v' := v.setContext c { x with left := x.left - 1 };
      (x.left ≠ 1 → exec (.unloadingTenureEnd bytes) s = .next v'.settle) ∧
      (x.left = 1 → exec (.unloadingTenureEnd bytes) s =
        .next (ended v' (readStatus (e.sectors ++ [decoded.1]) f.threshold)).settle)) ∧
    (t.purpose = .nandStatus → ∀ b : Byte,
      let u := s.endTenure false (statusCycles b)
      let l := s.retired.get c;
      (b.getLsbD 0 = false → exec (.statusTenureEnd b) s = .next (ended u .ok).settle) ∧
      (b.getLsbD 0 = true →
        (e.block ∈ l → exec (.statusTenureEnd b) s = .next (ended u .nandFail).settle) ∧
        (e.block ∉ l → l.length < 32 → exec (.statusTenureEnd b) s = .next
          ((ended (u.setRetired c (insertAsc e.block l)) .nandFail).postBoth (.blockRetired c e.block)).settle) ∧
        (e.block ∉ l → 32 ≤ l.length → exec (.statusTenureEnd b) s = .next
          ((ended u .nandFail).postBoth (.retireFull c e.block)).settle))) ∧
    (t.purpose = .nandId → ∀ bytes, bytes.length = 8 → exec (.idTenureEnd bytes) s =
      .next (ended ((s.stage e.segments 0 bytes).endTenure false (idCycles bytes)) .ok).settle)

/-- The reset tenure, the ready rise and the expiries of the busy timer (R131, R133–R135, R137), for a slot that the setup
load does not drive. The reset tenure arms the timer with the reset limit; a ready line that is high then is the rise,
taken at once. A rise with the timer armed ends a recovery or a clear and otherwise makes ready seen; with the timer
stopped it changes the line's level alone. An expiry in BUSY completes the entry with NANDTIMEOUT and begins the recovery,
in RECOVERING it stalls and flushes the slot, and in CLEARING it ends the clear with STILLBUSY. A row of a timer that is
stopped, or of another phase, changes nothing (log entry 3). The fields of a context as it becomes IDLE or RECOVERING that
the rules leave open are the model's choice (log entry 35). The reset tenure carries FF and the 10 MCLK wait (R119, R121).
-/
def Obligations.ResetsRisesAndExpiriesMoveTheContext : Prop :=
  resetCycles = [.nand (.command 0xFF), .idle 10] ∧
  ∀ (s : State) (c : Chip), s.startup.load = none →
    let x := s.context c
    let line := fun (u : State) level => ({ u with pins := { u.pins with ready := u.pins.ready.set c level } } : State)
    let idled := fun (u : State) => u.setContext c Context.idle
    let cleared := fun (u : State) h st =>
      (idled (u.setHealth c h)).deferredReply x.clearReply .slotClear st [chipCode c, h.code];
    (∀ t, s.arbiter.tenure = some t → t.purpose = .nandReset → t.slot = .chip c →
      exec (.resetTenureEnd false) s = .next ((line (s.endTenure true resetCycles) false).setContext c { x with
        resetIssued := true, timer := some ⟨(s.profile c).resetLimit, 0⟩, readySeen := false }).settle ∧
      (x.state = .recovering → exec (.resetTenureEnd true) s =
        .next ((idled (line (s.endTenure true resetCycles) true)).examine c).settle) ∧
      (x.state = .clearing → exec (.resetTenureEnd true) s =
        .next (cleared (line (s.endTenure true resetCycles) true) .ok .ok).settle)) ∧
    (x.timer = none → exec (.nandReadyRise c) s = .next (line s true).settle) ∧
    (x.timer ≠ none →
      (x.state = .recovering → exec (.nandReadyRise c) s = .next ((idled (line s true)).examine c).settle) ∧
      (x.state = .clearing → exec (.nandReadyRise c) s = .next (cleared (line s true) .ok .ok).settle) ∧
      (x.state = .busy → exec (.nandReadyRise c) s =
        .next ((line s true).setContext c { x with timer := none, readySeen := true }).settle) ∧
      (∀ r op, x.state = .busy → x.entry = some r → x.op = some op →
        let u := s.complete r .nandTimeout
        exec (.nandTimeout c) s = .next ((u.setContext c { x with
          state := .recovering, entry := none, op := some .reset, left := 0, timer := none, readySeen := false
          resetIssued := false }).post r.port (.nandTimeout c r.tag op)).settle) ∧
      (x.state = .recovering → exec (.recoveryResetExpiry c) s =
        .next (((idled (s.setHealth c .stalled)).flush (.chip c)).postBoth (.slotStall c .nandReset)).settle) ∧
      (x.state = .clearing → exec (.clearResetExpiry c) s = .next (cleared s .stalled .stillBusy).settle)) ∧
    (x.state ≠ .busy ∨ x.timer = none → exec (.nandTimeout c) s = .next s.settle) ∧
    (x.state ≠ .recovering ∨ x.timer = none → exec (.recoveryResetExpiry c) s = .next s.settle) ∧
    (x.state ≠ .clearing ∨ x.timer = none → exec (.clearResetExpiry c) s = .next s.settle)

/-- The ECC unit (R146, R147, R149, R151–R154). A sector loaded under H1 or B8 without RAW is a codeword with the mark
byte and the host bytes as supplied; read back unchanged it is CLEAN, or ERASED by the erased test. Any read sector, a
codeword or not, with no more zero bits than the code corrects is ERASED, with 0xFF everywhere but the mark byte. Any
other, read k bits from a codeword, with k from 1 to t, is CORRECTED(k) and delivered as that codeword; one more than t
bits from every codeword and at most d from one is FAILED, as is one t + 1 bits from any codeword, 2 under H1 and 9 under
B8 (Detection as far as a code of B8's size is known to have it, log entry 7); beyond that the outcome is FAILED or a
CORRECTED codeword, a free choice (R152, log entry 7). Under NONE, and with RAW, a sector passes unchanged as CLEAN. The
status of a PG-READ is ECC-FAIL with a FAILED sector, else CORRECTED-HIGH with a correction at or above the threshold. -/
def Obligations.EncodedSectorsReadBackClean : Prop :=
  (∀ (m : EccMode) (sector : List Byte) (choice : Option (Nat × List Byte)), sector.length = 528 → m ≠ .none →
    let held := loadSector m false sector
    let spares := if m = .h1 then [0, 1, 5, 6, 7, 8, 9, 10, 11, 12, 13, 14, 15] else [0, 1];
    held.length = 528 ∧ held.take 512 = sector.take 512 ∧ (∀ i ∈ spares, held[512 + i]? = sector[512 + i]?) ∧
    (m.t < zeroBits held → decodeSector m choice held = (.clean, held, false)) ∧
    (zeroBits held ≤ m.t → decodeSector m choice held =
      (.erased, List.replicate 512 0xFF ++ at8 sector 512 :: List.replicate 15 0xFF, false))) ∧
  (∀ (m : EccMode) (sector : List Byte) (choice : Option (Nat × List Byte)), sector.length = 528 → m ≠ .none →
    zeroBits sector ≤ m.t → decodeSector m choice sector =
      (.erased, List.replicate 512 0xFF ++ at8 sector 512 :: List.replicate 15 0xFF, false)) ∧
  (∀ (m : EccMode) (sector : List Byte) (choice : Option (Nat × List Byte)), sector.length = 528 → m ≠ .none →
    m.t < zeroBits sector →
    let messages := 512 + (coveredSpare m).length
    let apart := fun (msg : List Byte) =>
      bitDistance (protectedMessage m sector ++ heldCheck m sector) (msg ++ checkBytes m msg)
    let delivered := fun (msg y : List Byte) => y.length = 528 ∧ y.take 512 = msg.take 512 ∧ y[512]? = sector[512]? ∧
      protectedMessage m y = msg ∧ heldCheck m y = checkBytes m msg;
    (∀ msg : List Byte, msg.length = messages → 1 ≤ apart msg → apart msg ≤ m.t →
      ∃ y, decodeSector m choice sector = (.corrected (apart msg), y, false) ∧ delivered msg y) ∧
    ((∀ msg : List Byte, msg.length = messages → m.t < apart msg) →
      (∃ msg : List Byte, msg.length = messages ∧ apart msg ≤ m.d) →
      decodeSector m choice sector = (.failed, sector, false)) ∧
    (∀ msg : List Byte, msg.length = messages → apart msg = m.t + 1 →
      decodeSector m choice sector = (.failed, sector, false)) ∧
    ((decodeSector m none sector).2.2 = true ↔ ∀ msg : List Byte, msg.length = messages → m.d < apart msg) ∧
    (decodeSector m choice sector = if (decodeSector m none sector).2.2
      then ((beyondRange m choice sector).1, (beyondRange m choice sector).2, true)
      else decodeSector m none sector) ∧
    beyondRange m none sector = (.failed, sector) ∧
    ∀ k (msg : List Byte), msg.length = messages → ∃ y, 1 + k % m.t ≤ m.t ∧
      beyondRange m (some (k, msg)) sector = (.corrected (1 + k % m.t), y) ∧ delivered msg y) ∧
  (∀ (m : EccMode) (raw : Bool) (sector : List Byte) (choice : Option (Nat × List Byte)), m = .none ∨ raw = true →
    loadSector m raw sector = sector ∧ unloadSector m raw choice sector = (.clean, sector, false)) ∧
  (∀ (results : List SectorResult) (threshold : Nat),
    (SectorResult.failed ∈ results → readStatus results threshold = .eccFail) ∧
    (SectorResult.failed ∉ results → (∃ k, SectorResult.corrected k ∈ results ∧ threshold ≤ k) →
      readStatus results threshold = .correctedHigh) ∧
    (SectorResult.failed ∉ results → (∀ k, SectorResult.corrected k ∈ results → k < threshold) →
      readStatus results threshold = .ok))

/-! ### The SDRAM engine -/

/-- The refresh timer and the rounds (R94, R100, R112–R115). An expiry starts the next interval; below debt 8 the debt rises
by 1, waking the SDRAM from POWERDOWN; at debt 8 the overrun count rises, up to 65535, and REFRESH-OVERRUN goes to both
ports. A stopped timer does not expire (R115). A round pays its debt with that many AUTO REFRESH and leaves every bank closed. -/
def Obligations.RefreshDebtRisesAndIsPaid : Prop :=
  ∀ s : State,
    let d := s.sdram;
    (d.refreshTimer = none → exec .refreshExpiry s = .next s.settle) ∧
    (d.refreshTimer ≠ none →
      (d.debt < 8 → exec .refreshExpiry s = .next ({ s with sdram := { d with
        refreshTimer := some 0, debt := d.debt + 1
        state := if d.state = .powerdown then .ready else d.state
        powerDownTimer := if d.state = .powerdown then some 0 else d.powerDownTimer
        mckeRoseAt := if d.state = .powerdown then s.now else d.mckeRoseAt } } : State).settle) ∧
      (8 ≤ d.debt →
        let n := if d.overruns < 65535 then d.overruns + 1 else d.overruns
        exec .refreshExpiry s = .next ((({ s with sdram := { d with refreshTimer := some 0, overruns := n } } :
          State).postBoth (.refreshOverrun d.debt))).settle)) ∧
    (∀ t n, s.arbiter.tenure = some t → t.purpose = .refreshRound n →
      let cycles := (sdRefreshRound s.sdStart d.settings n).cycles;
      cycles.count (.sd .autoRefresh) = n ∧
      exec .refreshRoundEnd s = .next ((({ s with sdram := { d with rows := d.rows.map (fun _ => none) } } :
        State).endTenure true cycles)).settle)

/-- POWERDOWN and SELFREFRESH (R94, R98–R104). POWERDOWN is entered when every condition of R99 holds, and not otherwise;
a self-refresh entry is due there as soon as its timer stands at a non-zero threshold, its row taken or not. MCKE is high
in INITIALISING and READY alone. The row SELF_REFRESH_TIMER, with the timer at or past a non-zero threshold, makes the
entry due, which leaves POWERDOWN (that its row does so and not the count alone is the model's choice, log entry 1); below
it, as after a join that restarted the timer, nothing falls due (R115). The entry pays its debt and ends in SELFREFRESH
with the idle timers stopped, answering a pending SDR-SLEEP (from READY: log entry 23); the exit, with MSELD# high
throughout, ends in READY with the three timers started and every bank closed, MCKE having risen when the exit's work
began (log entry 18). -/
def Obligations.IdleSdramPowersDownAndSleeps : Prop :=
  ∀ s : State,
    let d := s.sdram
    let awake := d.state = .ready ∨ d.state = .powerdown
    let closed := fun (cycles : List BusCycle) =>
      ({ s with sdram := { d with rows := d.rows.map (fun _ => none) } } : State).endTenure true cycles
    let quiet := d.state = .ready ∧ d.settings.powerDownIdle ≠ 0 ∧
      (∃ n, d.powerDownTimer = some n ∧ d.settings.powerDownIdle ≤ n) ∧ s.queue .sd = [] ∧
      (∀ t, s.arbiter.tenure = some t → t.slot ≠ .sd) ∧ (∀ r ∈ d.rows, r = none) ∧ d.debt = 0 ∧
      d.sleepPending = false ∧ ¬(d.settings.selfRefreshIdle ≠ 0 ∧
        (d.srReached = true ∨ ∃ n, d.selfRefreshTimer = some n ∧ d.settings.selfRefreshIdle ≤ n));
    (quiet → exec .powerdownEntry s = .next
      ({ s with sdram := { d with state := .powerdown, powerDownTimer := none } } : State).settle) ∧
    (¬quiet → exec .powerdownEntry s = .next s.settle) ∧
    (∀ x : SdState, x.mcke = true ↔ x = .initialising ∨ x = .ready) ∧
    (∀ n, d.selfRefreshTimer = some n → awake → d.settings.selfRefreshIdle ≠ 0 → d.settings.selfRefreshIdle ≤ n →
      let wakes := d.state = .powerdown ∧ s.queue .sd = []
      exec .selfRefreshTimer s = .next ({ s with sdram := { d with
        srReached := true
        state := if wakes then .ready else d.state
        powerDownTimer := if wakes then some 0 else d.powerDownTimer
        mckeRoseAt := if wakes then s.now else d.mckeRoseAt } } : State).settle) ∧
    (d.selfRefreshTimer = none ∨ ¬awake ∨ d.settings.selfRefreshIdle = 0 ∨
        (∃ n, d.selfRefreshTimer = some n ∧ n < d.settings.selfRefreshIdle) →
      exec .selfRefreshTimer s = .next s.settle) ∧
    (∀ t n, s.arbiter.tenure = some t → t.purpose = .selfRefreshEntry n → d.state = .ready →
      let cycles := (sdSelfRefreshEntry s.sdStart d.settings n).cycles;
      cycles.count (.sd .autoRefresh) = n ∧ cycles.count (.sd .enterSelfRefresh) = 1 ∧
        let u := closed cycles
        exec .selfRefreshEntryEnd s = .next ((u.setSdram { u.sdram with
          state := .selfRefresh, powerDownTimer := none, selfRefreshTimer := none, srReached := false
          sleepPending := false, sleepReply := none }).deferredReply d.sleepReply .sdrSleep .ok []).settle) ∧
    (∀ t, s.arbiter.tenure = some t → t.purpose = .selfRefreshExit → d.state = .selfRefresh →
      let cycles := (sdSelfRefreshExit s.sdStart d.settings).cycles;
      cycles.getLast? = some (.idle (d.settings.tRFC + 2)) ∧ s.mseldHigh = true ∧
        (s.mcke = true ↔ max t.start (d.mckeRoseAt + 1) ≤ s.now) ∧
        let u := closed cycles
        exec .selfRefreshExitEnd s = .next (u.setSdram { u.sdram with
          state := .ready, debt := 0, refreshTimer := some 0, powerDownTimer := some 0, selfRefreshTimer := some 0
          srReached := false, mckeRoseAt := max t.start (d.mckeRoseAt + 1) }).settle)

/-- Initialisation (R93, R96, R97, R195): the stabilisation wait ends in the precharge step, that in the refresh step with
its 8 refreshes, that in the mode step with the CAS latency in the mode word, and that in READY with debt 0, every bank
closed and the three timers started. A held SDR-SET reply becomes OK; in STARTING the deferred windows are judged (R193)
and the move to RUNNING is tried. A stabilisation row outside the wait changes nothing (log entry 3). The cycles of the
steps are the model's reading (DEDUCED, log entry 18): the mode step ends after MODE SET and 2 idle MCLK beyond the
command's own MCLK, and tRP and tRFC are counted from the MCLK of their command and include it. -/
def Obligations.InitialisationStepsEndInReady : Prop :=
  ∀ (s : State) (t : Tenure),
    let d := s.sdram
    let at' := fun (u : State) step => u.setSdram { u.sdram with init := step };
    (d.init = .waiting → exec .stabilisationWaitEnd s = .next (at' s .precharge).settle) ∧
    (d.init ≠ .waiting → exec .stabilisationWaitEnd s = .next s.settle) ∧
    (s.arbiter.tenure = some t →
      (t.purpose = .initPrecharge →
        let cycles := (s.sdStart.timed .prechargeAll d.settings.tRP).cycles;
        cycles.count (.sd .prechargeAll) = 1 ∧
        exec .prechargeStepEnd s = .next (at' (s.endTenure true cycles) .refresh).settle) ∧
      (t.purpose = .initRefresh →
        let cycles := (s.sdStart.refreshes d.settings 8).cycles;
        cycles.count (.sd .autoRefresh) = 8 ∧
        exec .refreshStepEnd s = .next (at' (s.endTenure true cycles) .mode).settle) ∧
      (t.purpose = .initMode →
        let cycles := ((s.sdStart.command (.modeSet (d.settings.cas * 16))).wait 2).cycles;
        cycles.count (.sd (.modeSet (d.settings.cas * 16))) = 1 ∧
        let u := s.endTenure true cycles
        let v := (u.setSdram { u.sdram with
          state := .ready, init := .none, debt := 0, rows := d.rows.map (fun _ => none), refreshTimer := some 0
          powerDownTimer := some 0, selfRefreshTimer := some 0, srReached := false, setReply := none }).deferredReply
            d.setReply .sdrSet .ok [];
        (s.startup.top = .running → exec .modeStepEnd s = .next v.settle) ∧
        (s.startup.top ≠ .running → exec .modeStepEnd s = .next v.applyDeferred.tryRun.settle)))

/-! ### Start-up -/

/-- The setup load (R186–R190). A NOR chunk puts the 64 bytes of its place in the copy, from 0 or from 65536 on, at its
place in the record buffer, and after the eighth the copy is judged. Under a NAND boot a reset's end, by rise or expiry,
makes the read due; the read command takes page 0 of the copy's block, and its first sector is decoded under H1 (R155). A
timeout in the read's busy period begins a reset, at whose end the reason TIMEOUT enters the result (the model's choice:
log entry 32). A judged copy is the source when valid; otherwise the fallback copy is read after the primary one, its
bytes then replacing the primary's, and after the fallback the defaults stand. A copy is valid when marker, version,
length and CRC-32 are right. A row of a stopped timer, of another phase or outside the load changes nothing (log entry 3).
At the end of the unloading tenure the ECC unit's items stand, the model's choice (log entry 28), the fields of S1's
context as it becomes IDLE or RECOVERING are so too (log entry 35), and an outcome beyond the detection range is the free
choice of log entry 7. The first test that fails, in the order of R189, gives the reason. -/
def Obligations.SetupLoadEndsInACopyOrTheDefaults : Prop :=
  (∀ (s : State) (l : Load), s.startup.load = some l →
    let u := s.startup
    let f := s.profile .s1
    let x := s.context .s1
    let line := fun (v : State) level => ({ v with pins := { v.pins with ready := v.pins.ready.set .s1 level } } : State)
    let idled := fun (v : State) => v.setContext .s1 Context.idle
    let resetDone := fun (v : State) =>
      if l.phase = .timeoutReset then (idled v).copyEnded l .timeout
      else (idled v).setStartup { u with load := some { l with phase := .reading } }
    let judged := fun (reason : CopyReason) =>
      if l.second then { u.result with fallback := reason } else { u.result with primary := reason };
    (∀ t xs, s.arbiter.tenure = some t → t.purpose = .loadChunk →
      let w := f.width / 8
      let o := (if l.second then 65536 else 0) + 64 * l.chunk
      let data := (List.range 64).map (fun i => lane (sampleAt xs ((o + i) / w - o / w)).md ((o + i) % w))
      let buffer := u.buffer.take (64 * l.chunk) ++ data ++ u.buffer.drop (64 * (l.chunk + 1))
      let v := (s.endTenure false (readBeats f w o 64 xs (beatCount w o 64) false)).setStartup
        { u with buffer := buffer, load := some { l with chunk := l.chunk + 1 } };
      (l.chunk < 7 → exec (.chunkEnd xs) s = .next v.settle) ∧
      (7 ≤ l.chunk → exec (.chunkEnd xs) s = .next (v.copyEnded l (recordReason buffer)).settle)) ∧
    (∀ t, s.arbiter.tenure = some t → t.slot = .chip .s1 → t.purpose = .nandReset →
      exec (.resetTenureEnd false) s = .next ((line (s.endTenure true resetCycles) false).setContext .s1 { x with
        resetIssued := true, timer := some ⟨f.resetLimit, 0⟩, readySeen := false }).settle ∧
      (x.state = .recovering → exec (.resetTenureEnd true) s =
        .next (resetDone (line (s.endTenure true resetCycles) true)).settle)) ∧
    (x.timer = none → exec (.nandReadyRise .s1) s = .next (line s true).settle) ∧
    (x.timer ≠ none →
      (x.state = .recovering → exec (.nandReadyRise .s1) s = .next (resetDone (line s true)).settle) ∧
      (x.state = .busy → exec (.nandReadyRise .s1) s =
        .next ((line s true).setContext .s1 { x with timer := none, readySeen := true }).settle)) ∧
    (∀ t ready, s.arbiter.tenure = some t → t.slot = .chip .s1 → t.purpose = .nandCommand → x.entry = none →
      x.state = .busy → exec (.nandCommandEnd ready) s = .next ({
        s.endTenure true (readCommandCycles f (if l.second then 1 else 0) 0) with
        pins := { s.pins with ready := s.pins.ready.set .s1 ready }
        nand := s.nand.set .s1 { x with
          timer := if ready then none else some ⟨f.readLimit, 0⟩, readySeen := ready } } : State).settle) ∧
    (∀ t bytes, s.arbiter.tenure = some t → t.slot = .chip .s1 → t.purpose = .nandUnload → x.entry = none →
      bytes.length = 528 →
      let read := decodeSector .h1 (Config.beyondRange s.fresh) bytes
      let v := { s.endTenure false (unloadingCycles f 0 bytes) with
        nand := s.nand.set .s1 Context.idle, fresh := if read.2.2 then s.fresh + 1 else s.fresh
        ecc := { work := .none, slot := some .s1, mode := .h1, check := heldCheck .h1 bytes, zeroBits := zeroBits bytes
                 result := some read.1 }
        startup := { u with buffer := read.2.1.take 512 } }
      exec (.unloadingTenureEnd bytes) s = .next (v.copyEnded l (match read.1 with
        | .failed => .ecc
        | .erased => .erased
        | .clean | .corrected _ => recordReason (read.2.1.take 512))).settle) ∧
    (x.timer ≠ none →
      (x.state = .busy → (∀ p, (s.port p).state = .down) → exec .loadBusyTimeout s = .next ({ s with
        nand := s.nand.set .s1 { x with
          state := .recovering, entry := none, op := some .reset, left := 0, timer := none, readySeen := false
          resetIssued := false }
        startup := { u with load := some { l with phase := .timeoutReset } } } : State).settle) ∧
      (x.state = .recovering → exec .loadBusyTimeout s = .next (resetDone s).settle)) ∧
    (x.timer = none ∨ (x.state ≠ .busy ∧ x.state ≠ .recovering) → exec .loadBusyTimeout s = .next s.settle) ∧
    (∀ reason, reason ≠ .valid →
      (l.second = false → s.copyEnded l reason = { s with startup := { u with
        result := judged reason
        load := some { second := true, phase := if l.phase = .norChunks then .norChunks else .reading, chunk := 0 } } }) ∧
      (l.second = true → s.copyEnded l reason = ({ s with startup := { u with
        result := { judged reason with source := .defaults }, load := none, buffer := [] } } : State).tryRun)) ∧
    (s.copyEnded l .valid = ({ s with startup := { u with
      top := .starting .apply, load := none
      result := { judged .valid with source := if l.second then .fallback else .primary }
      walk := if at8 u.buffer 5 = 0 then none else some ⟨8, 0⟩ } } : State).tryRun)) ∧
  (∀ s : State, s.startup.load = none → exec .loadBusyTimeout s = .next s.settle) ∧
  (∀ d : List Byte, recordReason d =
    if d.take 4 ≠ [0x5A, 0xC3, 0x24, 0x06] then .marker
    else if at8 d 4 ≠ 1 then .version
    else if field d 6 2 < 12 ∨ 512 < field d 6 2 then .length
    else if (crc32 (d.take (field d 6 2 - 4))).toNat ≠ field d (field d 6 2 - 4) 4 then .crc
    else .valid) ∧
  (∀ d : List Byte, recordReason d = .valid ↔ d.take 4 = [0x5A, 0xC3, 0x24, 0x06] ∧ at8 d 4 = 1 ∧
    12 ≤ field d 6 2 ∧ field d 6 2 ≤ 512 ∧
    (crc32 (d.take (field d 6 2 - 4))).toNat = field d (field d 6 2 - 4) 4)

/-- The walk of the setup record and the move to RUNNING (R191–R196). The entry the walk stands at takes its effect when its
size is that of its type: PORTS sets both CONFIG rights, SLOT and SDRAM are judged as SLOT-SET and SDR-SET, WINDOW as
WIN-SET or put off while the SDRAM is INITIALISING, RETIRE adds the blocks that can be added. It is counted applied, or
skipped when refused, when a block was not added, of a wrong size or of an unknown type; a size below 4 or past the entry
area ends the walk. A WINDOW entry first takes a deferred one of its index off the deferred list, which is skipped (not
where its own size is wrong: log entry 20); the deferred ones are judged in record order (R193). After the last entry the
part is RUNNING, unless the SDRAM is INITIALISING or windows are put off. A broken entry, of whatever type, is
SETUP_UNKNOWN_ENTRY's (log entry 20). -/
def Obligations.SetupWalkAppliesOrSkipsEachEntry : Prop :=
  (∀ (s : State) (w : Walk), s.startup.walk = some w →
    let d := s.startup.buffer
    let size := (at8 d (w.pos + 1)).toNat
    let count := (at8 d 5).toNat
    let e := (d.drop w.pos).take size
    let type := (at8 d w.pos).toNat
    let reached := 4 ≤ size ∧ w.pos + size ≤ field d 6 2 - 4 ∧ w.pos + size ≤ d.length
    let onward := fun (u : State) => (u.setStartup { u.startup with
      walk := if w.index + 1 < count then some ⟨w.pos + size, w.index + 1⟩ else none }).tryRun
    let applied := fun (u : State) => onward (u.setStartup { u.startup with
      result := { u.startup.result with applied := u.startup.result.applied + 1 } })
    let skips := fun (u : State) (n at' : Nat) => u.setStartup { u.startup with result := { u.startup.result with
      skipped := u.startup.result.skipped + n
      firstSkipped := match u.startup.result.firstSkipped with | some i => some (min i at') | none => some at' } }
    let skipped := fun (u : State) => onward (skips u 1 w.index);
    (reached → type = 1 → size = 4 →
      (∀ a b, grantOfCode (at8 e 2) = some a → grantOfCode (at8 e 3) = some b → exec .setupPortsEntry s = .next
        (applied { s with ports := ⟨{ s.ports.a with config := a }, { s.ports.b with config := b }⟩ }).settle) ∧
      (1 < (at8 e 2).toNat ∨ 1 < (at8 e 3).toNat → exec .setupPortsEntry s = .next (skipped s).settle)) ∧
    (reached → type = 2 → size = 35 →
      (∀ c f, s.judgeSlot (at8 e 2) (e.drop 3) = .ok (c, f) →
        exec .setupSlotEntry s = .next (applied (s.applySlot c f)).settle) ∧
      (∀ st, s.judgeSlot (at8 e 2) (e.drop 3) = .error st → exec .setupSlotEntry s = .next (skipped s).settle)) ∧
    (reached → type = 3 → size = 19 →
      (∀ t, s.judgeSdr (e.drop 2) = .ok t → exec .setupSdramEntry s = .next (applied (s.applySdr t none)).settle) ∧
      (∀ st, s.judgeSdr (e.drop 2) = .error st → exec .setupSdramEntry s = .next (skipped s).settle)) ∧
    (reached → type = 4 → size = 19 → (∀ x ∈ s.startup.deferred, x.index ≠ (at8 e 2).toNat) →
      let index := (at8 e 2).toNat
      let put := at8 e 3 = 1 ∧ at8 e 4 = 5 ∧ s.sdram.state = .initialising;
      (put → exec .setupWindowEntry s = .next (onward (s.setStartup { s.startup with
        deferred := s.startup.deferred ++ [⟨w.index, index, e.drop 3⟩] })).settle) ∧
      (¬put →
        (∀ v, s.judgeWindow index (e.drop 3) = .ok v →
          exec .setupWindowEntry s = .next (applied { s with windows := s.windows.set index v }).settle) ∧
        (∀ st, s.judgeWindow index (e.drop 3) = .error st →
          exec .setupWindowEntry s = .next (skipped s).settle))) ∧
    (reached → type = 4 → size = 19 → ∀ before x after, s.startup.deferred = before ++ x :: after →
      x.index = (at8 e 2).toNat → (∀ y ∈ before ++ after, y.index ≠ x.index) →
      let u := skips s 1 x.entry
      exec .setupWindowEntry s =
        exec .setupWindowEntry (u.setStartup { u.startup with deferred := before ++ after })) ∧
    (reached → type = 5 → size = 4 + 2 * (at8 e 3).toNat → (at8 e 3).toNat ≤ 32 →
      (∀ c, chipOfCode (at8 e 2) = some c → (s.profile c).type = .nand →
        (∀ b ∈ s.retired.get c, b < (s.profile c).blockCount) →
        let added := (retireBlocks e).foldl (fun l b =>
          if b ∈ l then l else if b < (s.profile c).blockCount ∧ l.length < 32 then insertAsc b l else l) (s.retired.get c)
        let u : State := { s with retired := s.retired.set c added };
        ((∀ b ∈ retireBlocks e, b ∈ added) → exec .setupRetireEntry s = .next (applied u).settle) ∧
        (¬(∀ b ∈ retireBlocks e, b ∈ added) → exec .setupRetireEntry s = .next (skipped u).settle)) ∧
      ((∀ c, chipOfCode (at8 e 2) = some c → (s.profile c).type ≠ .nand) →
        exec .setupRetireEntry s = .next (skipped s).settle)) ∧
    (reached →
      (type = 1 → size ≠ 4 → exec .setupPortsEntry s = .next (skipped s).settle) ∧
      (type = 2 → size ≠ 35 → exec .setupSlotEntry s = .next (skipped s).settle) ∧
      (type = 3 → size ≠ 19 → exec .setupSdramEntry s = .next (skipped s).settle) ∧
      (type = 4 → size ≠ 19 → exec .setupWindowEntry s = .next (skipped s).settle) ∧
      (type = 5 → size ≠ 4 + 2 * (at8 e 3).toNat ∨ 32 < (at8 e 3).toNat →
        exec .setupRetireEntry s = .next (skipped s).settle)) ∧
    (reached → type = 0 ∨ 5 < type → exec .setupUnknownEntry s = .next (skipped s).settle) ∧
    (size < 4 ∨ field d 6 2 - 4 < w.pos + size → exec .setupUnknownEntry s = .next
      ((skips s (count - w.index) w.index).setStartup { (skips s (count - w.index) w.index).startup with
        walk := none }).tryRun.settle)) ∧
  (∀ s : State, (s.startup.deferred = [] → s.applyDeferred = s) ∧
    ∀ x rest, s.startup.deferred = x :: rest →
      let u := s.setStartup { s.startup with deferred := rest }
      let r := s.startup.result;
      (∀ v, s.judgeWindow x.index x.block = .ok v → s.applyDeferred = ({ u with
        windows := s.windows.set x.index v
        startup := { u.startup with result := { r with applied := r.applied + 1 } } } : State).applyDeferred) ∧
      (∀ st, s.judgeWindow x.index x.block = .error st → s.applyDeferred = (u.setStartup { u.startup with
        result := { r with
          skipped := r.skipped + 1
          firstSkipped := match r.firstSkipped with | some i => some (min i x.entry) | none => some x.entry } }).applyDeferred)) ∧
  (∀ (s : State) (step : StartStep), s.startup.top = .starting step → s.startup.load = none → s.startup.walk = none →
    let held := s.sdram.state = .initialising ∨ s.startup.deferred ≠ [];
    (held → s.tryRun = { s with startup := { s.startup with top := .starting .settle } }) ∧
    (¬held → s.tryRun = { s with startup := { s.startup with top := .running, buffer := [], deferred := [] } })) ∧
  ∀ s : State, s.startup.load ≠ none ∨ s.startup.walk ≠ none ∨ s.startup.top = .running → s.tryRun = s

/-! ### What every step keeps -/

/-- The part after power-on keeps every law: table, pool and staging memory (R6, R7, R43), slot queues, entries at work and
replies (R27, R58), windows and their targets (R30), profiles (R76, R118), retired lists (R139), SDRAM debt (R116), notices
(R156), control reply slots, deferred replies and start-up (R182). Its BOOT strap is 00, the model's choice (log entry 2). -/
def Obligations.ResetMeetsEveryLaw : Prop :=
  State.reset.TableLaw ∧ State.reset.PoolLaw ∧ Memory.wf State.reset.pool.bytes = true ∧ State.reset.QueueLaw ∧
    State.reset.KindLaw ∧ State.reset.WorkLaw ∧ State.reset.ReplyLaw ∧ State.reset.WindowLaw ∧ State.reset.TargetLaw ∧
    State.reset.ProfileLaw ∧ State.reset.RetiredLaw ∧ State.reset.ListPlaceLaw ∧ State.reset.DebtLaw ∧
    State.reset.NoticeLaw ∧ State.reset.SlotLaw ∧ State.reset.DeferredLaw ∧ State.reset.StartingLaw

/-- Every step keeps the tags of a port's live entries distinct and at most 16 (R6, R7), every one of the 64 segments free or
held by exactly one entry with the two unused reserves left free (R43), and the staging memory in canonical form. Every
step also keeps the slot queues (R58): no queue names an entry twice, each names only QUEUED, ACTIVE and ORPHANED entries
of its slot, every QUEUED entry is in its slot's queue, and no bypass count is above 4 (R111). With them it keeps what they
rest on: the kinds that a slot's entries have (R10, R11, R71), the entries that contexts and tenures serve (R17, R64, R122),
and each entry's one REPLY (R24). -/
def Obligations.EveryStepKeepsTableAndPool : Prop :=
  (∀ s t : State, step s = .next t → s.TableLaw → s.PoolLaw → Memory.wf s.pool.bytes = true →
    t.TableLaw ∧ t.PoolLaw ∧ Memory.wf t.pool.bytes = true) ∧
  ∀ s t : State, step s = .next t → s.TableLaw → s.TargetLaw → s.ProfileLaw → s.QueueLaw → s.KindLaw → s.WorkLaw →
    s.ReplyLaw → t.QueueLaw ∧ t.KindLaw ∧ t.WorkLaw ∧ t.ReplyLaw

/-- Every step keeps the eight windows well formed and apart (R29, R30, R32, R34), each enabled one within an SRAM, NOR or
initialised SDRAM target (R33, R34, R71, R95), and every retired-block list ascending with at most 32 blocks (R139). Every
step also keeps every profile in its ranges (R70, R75, R117), the list of a slot not typed NAND empty, and every listed
block below its slot's block count (R139), where the entries that the contexts serve are the slot's own. -/
def Obligations.EveryStepKeepsWindowsAndRetiredLists : Prop :=
  (∀ s t : State, step s = .next t → s.WindowLaw → s.TargetLaw → s.RetiredLaw →
    t.WindowLaw ∧ t.TargetLaw ∧ t.RetiredLaw) ∧
  ∀ s t : State, step s = .next t → s.ProfileLaw →
    t.ProfileLaw ∧ (s.TableLaw → s.KindLaw → s.WorkLaw → s.ListPlaceLaw → t.ListPlaceLaw)

/-- Every step keeps the refresh debt at most 8, and 0 outside READY, and the refresh timer stopped outside READY and
POWERDOWN (R94, R112, R113, R115). -/
def Obligations.EveryStepKeepsTheRefreshDebt : Prop := ∀ s t : State, step s = .next t → s.DebtLaw → t.DebtLaw

/-- Every step keeps the notice queues and their counts (R156, R159, R160), the control reply slots held equal to the answers
and deferred replies that hold them, at most 8 (R174, R175), the deferred replies owed only while their operations run, and
both ports DOWN with an empty table in STARTING (R170, R184). -/
def Obligations.EveryStepKeepsNoticesAndReplySlots : Prop :=
  ∀ s t : State, step s = .next t → s.NoticeLaw → s.SlotLaw → s.DeferredLaw → s.StartingLaw →
    t.NoticeLaw ∧ t.SlotLaw ∧ t.DeferredLaw ∧ t.StartingLaw
end

