-- ==== Sys2Proof/Laws/Codes.lean ====
section
/-! SUPPORT. What is known of the codes of R147: the length of check bytes, the erased codeword, how far apart two codewords are, and that bit distances add up. -/
namespace Sys2Proof

/-- Differences add up along a third list of bits. -/
theorem countP_zip_triangle : ∀ x y z : List Bool, x.length = y.length → y.length = z.length →
    (x.zip z).countP (fun p => p.1 != p.2) ≤
      (x.zip y).countP (fun p => p.1 != p.2) + (y.zip z).countP (fun p => p.1 != p.2)
  | [], _, _, _, _ => by simp
  | a :: x, b :: y, c :: z, h, h' => by
    have ih := countP_zip_triangle x y z (by simpa using h) (by simpa using h')
    simp only [List.zip_cons_cons, List.countP_cons]
    cases a <;> cases b <;> cases c <;> simp <;> omega
  | _ :: _, [], _, h, _ => by cases h
  | _ :: _, _ :: _, [], _, h => by cases h

theorem bitDistance_triangle {x y z : List Byte} (h : x.length = y.length) (h' : y.length = z.length) :
    bitDistance x z ≤ bitDistance x y + bitDistance y z :=
  countP_zip_triangle _ _ _ (by rw [bitsOf_length, bitsOf_length, h]) (by rw [bitsOf_length, bitsOf_length, h'])

theorem countP_zip_comm : ∀ x y : List Bool,
    (x.zip y).countP (fun p => p.1 != p.2) = (y.zip x).countP (fun p => p.1 != p.2)
  | [], y => by simp
  | _ :: _, [] => by simp
  | a :: x, b :: y => by
    simp only [List.zip_cons_cons, List.countP_cons, countP_zip_comm x y]
    cases a <;> cases b <;> rfl

theorem bitDistance_comm (x y : List Byte) : bitDistance x y = bitDistance y x := countP_zip_comm _ _

namespace Machine

/-- The check bytes of every message are as many as the mode has places for (R146, R147). -/
theorem checkBytes_length (m : EccMode) (msg : List Byte) : (checkBytes m msg).length = (checkSpare m).length := by
  cases m
  · rfl
  · exact (@Config.h1 ⟨CheckCode.first h1Code_exists⟩).size msg
  · exact (@Config.b8 ⟨CheckCode.first b8Code_exists⟩).size msg

/-- The erased image is a codeword (R147). -/
theorem checkBytes_erased (m : EccMode) (h : m ≠ .none) :
    checkBytes m (List.replicate (512 + (coveredSpare m).length) 0xFF) = List.replicate (checkSpare m).length 0xFF := by
  cases m
  · exact absurd rfl h
  · exact (@Config.h1 ⟨CheckCode.first h1Code_exists⟩).erased
  · exact (@Config.b8 ⟨CheckCode.first b8Code_exists⟩).erased

/-- Two H1 codewords differ in 4 bits or more: Correction of 1 and Detection of 2 (R147). -/
theorem h1_apart {x y : List Byte} (hx : x.length = 524) (hy : y.length = 524) (h : x ≠ y) :
    4 ≤ bitDistance (x ++ checkBytes .h1 x) (y ++ checkBytes .h1 y) :=
  (@Config.h1 ⟨CheckCode.first h1Code_exists⟩).apart x y hx hy h

/-- Two B8 codewords differ in 18 bits or more: Correction of 8 and Detection of 9 (R147, log entry 7). -/
theorem b8_apart {x y : List Byte} (hx : x.length = 513) (hy : y.length = 513) (h : x ≠ y) :
    18 ≤ bitDistance (x ++ checkBytes .b8 x) (y ++ checkBytes .b8 y) :=
  (@Config.b8 ⟨CheckCode.first b8Code_exists⟩).apart x y hx hy h

end Machine
end Sys2Proof
end

