-- ==== Sys2Proof/Laws/Lines.lean ====
section
/-! SUPPORT. The lines of the memory bus, command by command and cycle by cycle, when MSELD# is high, and the bits of a frame on TXD. -/
namespace Sys2Proof.Machine

/-! ### Byte lanes and strobes -/

/-- Every one of MBE[0]# to MBE[3]# is low exactly on an enabled lane (R77). -/
theorem laneEnables_get (lanes : List Bool) {j : Nat} (h : j < 4) :
    (laneEnables lanes)[j]? = some (some !(lanes.getD j false)) := by simp [laneEnables, h]

/-- A beat enables the lanes it names and no line above them, in every MCLK (R77, R79). -/
@[simp] theorem beatLines_mbe (k : Slot) (write : Bool) (a : Nat) (lanes : List Bool) (d : List Byte) (x y i : Nat) :
    (beatLines k write a lanes d x y i).mbe = laneEnables lanes := rfl

/-- A beat strobes MRD# when it reads and MWR# when it writes, for the strobe's time after the setup only (R79). -/
theorem beatLines_strobes (k : Slot) (write : Bool) (a : Nat) (lanes : List Bool) (d : List Byte) (x y i : Nat) :
    ((beatLines k write a lanes d x y i).mrd = some false ↔ (x ≤ i ∧ i < x + y) ∧ write = false) ∧
      ((beatLines k write a lanes d x y i).mwr = some false ↔ (x ≤ i ∧ i < x + y) ∧ write = true) := by
  cases write <;> simp [beatLines]

/-- Only a WRITE's MBE# levels name lanes; a READ holds every MBE# low (R107, R109). -/
theorem SdCommand.read_lines (bank column : Nat) (data : BitVec 32) :
    (SdCommand.read bank column data).lines.mbe = [some false, some false, some false, some false] ∧
      (SdCommand.read bank column data).lines.mwr = some true := ⟨rfl, rfl⟩

/-- Every command has MSELD# low, and MCKE high but in SELF REFRESH (R93). -/
theorem SdCommand.lines_select (c : SdCommand) :
    c.lines.mseld = false ∧ c.lines.mcke = some (decide (c ≠ .enterSelfRefresh)) := by
  cases c <;> exact ⟨rfl, by simp [SdCommand.lines, BusLines.command]⟩

/-- A NAND cycle strobes MRD# in a data-out cycle and MWR# in the others, in its two middle MCLK only (R119). -/
theorem NandCycle.lines_strobes (x : NandCycle) (k : Slot) (i : Nat) :
    ((x.lines k i).mrd = some false ↔ (i = 1 ∨ i = 2) ∧ x.reads = true) ∧
      ((x.lines k i).mwr = some false ↔ (i = 1 ∨ i = 2) ∧ x.reads = false) := by
  simp only [NandCycle.lines]
  cases x.reads <;> simp <;> omega

/-! ### MSELD# -/

/-- MSELD# is low in the commands of the SDRAM engine and in nothing else (R93). -/
theorem BusCycle.lines_mseld (k : Slot) (f : Profile) (x : BusCycle) (i : Nat) :
    (x.lines k f i).mseld = false ↔ ∃ c, x = .sd c := by
  cases x with
  | sd c => simp [BusCycle.lines, (SdCommand.lines_select c).1]
  | beat => cases k <;> simp [BusCycle.lines, beatLines, BusLines.selected, BusLines.rest]
  | nand => cases k <;> simp [BusCycle.lines, NandCycle.lines, BusLines.selected, BusLines.rest]
  | idle => cases k <;> simp [BusCycle.lines, BusLines.idle, BusLines.selected, BusLines.rest]

/-- The cycle that stands in an MCLK is one of the work's. -/
theorem cycleAt_mem {work : List BusCycle} {m i : Nat} {x : BusCycle} (h : cycleAt work m = some (x, i)) : x ∈ work := by
  induction work generalizing m with
  | nil => simp [cycleAt] at h
  | cons y rest ih =>
    rw [cycleAt] at h
    split at h
    · simp only [Option.some.injEq, Prod.mk.injEq] at h; simp [h.1]
    · exact List.mem_cons_of_mem _ (ih h)

/-- All that a tenure's MSELD# can be: low where a command stands in that MCLK of its work, and high otherwise (R93). -/
theorem Tenure.lines_mseld (t : Tenure) (f : Profile) (work : List BusCycle) (m : Nat) :
    (t.lines f work m).mseld = false ↔ t.gap ≤ m ∧ ∃ c i, cycleAt work (m - t.gap) = some (.sd c, i) := by
  unfold Tenure.lines
  split
  · simp [BusLines.idle, BusLines.rest]; omega
  · cases h : cycleAt work (m - t.gap) with
    | none => simp [BusLines.rest]
    | some y => obtain ⟨x, i⟩ := y; simp [BusCycle.lines_mseld]; omega

/-- With no command in its work a tenure leaves MSELD# high. -/
theorem Tenure.lines_mseld_high {t : Tenure} {f : Profile} {work : List BusCycle} (m : Nat)
    (h : ∀ c, .sd c ∉ work) : (t.lines f work m).mseld = true := by
  rw [← Bool.not_eq_false, Tenure.lines_mseld]
  rintro ⟨-, c, i, hc⟩
  exact h c (cycleAt_mem hc)

/-- A self-refresh exit issues no command: MSELD# is high through its tenure (R103). -/
theorem State.mseldHigh_exit {s : State} {t : Tenure} (h : s.arbiter.tenure = some t) (hp : t.purpose = .selfRefreshExit) :
    s.mseldHigh = true := by
  have hw : ∀ c, .sd c ∉ s.sdWork t := by
    intro c
    simp only [State.sdWork, hp, sdSelfRefreshExit, State.sdStart, h, SdTrace.waitUntil, SdTrace.wait]
    split_ifs <;> simp
  rw [State.mseldHigh, h]
  cases hk : t.slot with
  | sd => simpa [hk] using Tenure.lines_mseld_high _ hw
  | chip => simp [hk]

/-! ### TXD -/

@[simp] theorem characterBits_length (c : Byte) : (characterBits c).length = 10 := by simp [characterBits]

/-- A character's start bit is low, its stop bit high, and its data bits stand between, least significant first (R164). -/
theorem characterBits_get (c : Byte) {i : Nat} (h : i < 10) :
    (characterBits c)[i]? = some (if i = 0 then false else if i = 9 then true else c.getLsbD (i - 1)) := by
  match i, h with
  | 0, _ | 1, _ | 2, _ | 3, _ | 4, _ | 5, _ | 6, _ | 7, _ | 8, _ | 9, _ => rfl

/-- The characters of a frame stand back to back: bit `10 n + i` is bit `i` of character `n` (R164). -/
theorem frameBits_get (d : List Byte) (n : Nat) {i : Nat} (h : i < 10) :
    (d.flatMap characterBits)[10 * n + i]? = d[n]?.bind (fun c => (characterBits c)[i]?) := by
  induction d generalizing n with
  | nil => simp
  | cons c rest ih =>
    rw [List.flatMap_cons]
    cases n with
    | zero => rw [List.getElem?_append_left (by simpa using h)]; simp
    | succ n =>
      rw [List.getElem?_append_right (by simp; omega), characterBits_length,
        show 10 * (n + 1) + i - 10 = 10 * n + i by omega, ih]
      rfl

/-- At rest TXD is high (R164, R182). -/
@[simp] theorem State.txd_idle {s : State} {p : Port} (h : (s.port p).tx = none) : s.txd p = true := by simp [State.txd, h]

end Sys2Proof.Machine
end

