-- ==== Sys2Proof/Laws/Memory.lean ====
section
/-! SUPPORT. The staging memory keeps its canonical form, and a byte written is the byte read. -/
namespace Sys2Proof.Machine

/-- A canonical memory above a bound is canonical above every lower one. -/
theorem Memory.wfFrom_mono {lo lo' : Nat} (h : lo' ≤ lo) : ∀ {m : List Host.Cell}, wfFrom lo m = true → wfFrom lo' m = true
  | [], _ => rfl
  | (k, b) :: m, hm => by
    simp only [wfFrom, Bool.and_eq_true, decide_eq_true_eq] at hm ⊢
    exact ⟨⟨by omega, hm.1.2⟩, hm.2⟩

/-- Every address below the bound of a canonical memory reads 0. -/
theorem Memory.read_below {lo a : Nat} (h : a < lo) : ∀ {m : List Host.Cell}, wfFrom lo m = true → read m a = 0
  | [], _ => rfl
  | (k, b) :: m, hm => by
    simp only [wfFrom, Bool.and_eq_true, decide_eq_true_eq] at hm
    have : a ≠ k := by omega
    simp only [read, if_neg this]
    exact read_below (lo := k + 1) (by omega) hm.2

theorem Memory.wfFrom_write {lo a : Nat} {v : Byte} (ha : lo ≤ a) :
    ∀ {m : List Host.Cell}, wfFrom lo m = true → wfFrom lo (write m a v) = true
  | [], _ => by
    unfold write
    split <;> simp_all [wfFrom]
  | (k, b) :: m, hm => by
    simp only [wfFrom, Bool.and_eq_true, decide_eq_true_eq] at hm
    unfold write
    split
    · split
      · simp_all [wfFrom]
      · simp_all [wfFrom]
    · split
      · rename_i h1 h2
        split
        · exact wfFrom_mono (by omega) hm.2
        · simp_all [wfFrom]
      · simp only [wfFrom, Bool.and_eq_true, decide_eq_true_eq]
        exact ⟨hm.1, wfFrom_write (by omega) hm.2⟩

/-- A write keeps the canonical form. -/
theorem Memory.wf_write {m : List Host.Cell} (a : Nat) (v : Byte) (h : wf m = true) : wf (write m a v) = true :=
  wfFrom_write (Nat.zero_le a) h

theorem Memory.read_write_from {lo a : Nat} {v : Byte} (x : Nat) :
    ∀ {m : List Host.Cell}, wfFrom lo m = true → read (write m a v) x = if x = a then v else read m x
  | [], _ => by
    unfold write
    split <;> split <;> simp_all [read]
  | (k, b) :: m, hm => by
    simp only [wfFrom, Bool.and_eq_true, decide_eq_true_eq] at hm
    unfold write
    split
    · rename_i hlt
      split
      · split
        · rename_i hx
          have : read m x = 0 := read_below (lo := k + 1) (by omega) hm.2
          rw [read, if_neg (by omega), this]
          simp_all
        · rfl
      · rfl
    · split
      · rename_i h1 h2
        subst h2
        split
        · split
          · rename_i hx
            rw [hx, read_below (lo := a + 1) (by omega) hm.2]
            simp_all
          · simp_all [read]
        · rw [read, read]
          split <;> rfl
      · rename_i h1 h2
        rw [read, read, read_write_from x hm.2]
        split
        · rename_i hx
          rw [if_neg (by omega)]
        · rfl

/-- A byte written is read back, and every other byte reads as before. -/
theorem Memory.read_write {m : List Host.Cell} (h : wf m = true) (a : Nat) (v : Byte) (x : Nat) :
    read (write m a v) x = if x = a then v else read m x := read_write_from x h

/-- Staging writes keep the canonical form. -/
theorem stagingWrite_wf (segments : List Nat) :
    ∀ (bytes : List Byte) (m : List Host.Cell) (j : Nat), Memory.wf m = true → Memory.wf (stagingWrite m segments j bytes) = true
  | [], _, _, h => h
  | b :: bs, m, j, h => by
    unfold stagingWrite
    split
    · exact stagingWrite_wf segments bs _ _ (Memory.wf_write _ _ h)
    · exact stagingWrite_wf segments bs _ _ h

/-- A staging write leaves every cell outside its own cells as it was. -/
theorem stagingWrite_frame (segments : List Nat) (x : Nat) :
    ∀ (bytes : List Byte) (m : List Host.Cell) (j : Nat), Memory.wf m = true →
      (∀ i, i < bytes.length → stagingCell segments (j + i) ≠ some x) →
      Memory.read (stagingWrite m segments j bytes) x = Memory.read m x
  | [], _, _, _, _ => rfl
  | b :: bs, m, j, h, hx => by
    have h0 := hx 0 (by simp)
    have hs : ∀ i, i < bs.length → stagingCell segments (j + 1 + i) ≠ some x := fun i hi => by
      have := hx (i + 1) (by simpa using hi)
      rwa [show j + (i + 1) = j + 1 + i by omega] at this
    unfold stagingWrite
    split
    · rename_i a ha
      rw [stagingWrite_frame segments x bs _ _ (Memory.wf_write _ _ h) hs, Memory.read_write h]
      rw [if_neg]
      rintro rfl
      exact h0 (by simpa using ha)
    · exact stagingWrite_frame segments x bs _ _ h hs

theorem length_stagingRange (m : List Host.Cell) (segments : List Nat) (j n : Nat) :
    (stagingRange m segments j n).length = n := by simp [stagingRange]

/-- Insertion keeps what is there and adds the number once. -/
theorem mem_insertAsc (n x : Nat) : ∀ l : List Nat, x ∈ insertAsc n l ↔ x = n ∨ x ∈ l
  | [] => by simp [insertAsc]
  | m :: ms => by
    unfold insertAsc
    split
    · simp
    · split
      · subst_vars; simp
      · simp [mem_insertAsc n x ms]; tauto

/-- Insertion keeps strictly ascending order. -/
theorem pairwise_insertAsc (n : Nat) : ∀ l : List Nat, l.Pairwise (· < ·) → (insertAsc n l).Pairwise (· < ·)
  | [], _ => by simp [insertAsc]
  | m :: ms, h => by
    rw [List.pairwise_cons] at h
    unfold insertAsc
    split
    · rename_i hlt
      refine List.pairwise_cons.2 ⟨?_, List.pairwise_cons.2 h⟩
      intro x hx
      rcases List.mem_cons.1 hx with rfl | hx
      · exact hlt
      · exact Nat.lt_trans hlt (h.1 x hx)
    · split
      · exact List.pairwise_cons.2 h
      · refine List.pairwise_cons.2 ⟨?_, pairwise_insertAsc n ms h.2⟩
        intro x hx
        rcases (mem_insertAsc n x ms).1 hx with rfl | hx
        · omega
        · exact h.1 x hx

theorem length_insertAsc_le (n : Nat) : ∀ l : List Nat, (insertAsc n l).length ≤ l.length + 1
  | [] => by simp [insertAsc]
  | m :: ms => by
    unfold insertAsc
    split
    · simp
    · split
      · simp
      · simpa using length_insertAsc_le n ms

end Sys2Proof.Machine
end

