-- ==== Sys2Proof/Laws/State.lean ====
section
/-! SUPPORT. What each update of the part leaves and what it changes, field by field. -/
namespace Sys2Proof

/-! ### Collections -/

@[simp] theorem ByPort.get_set {α : Type} (x : ByPort α) (p q : Port) (v : α) :
    (x.set p v).get q = if q = p then v else x.get q := by cases p <;> cases q <;> rfl

@[simp] theorem ByChip.get_set {α : Type} (x : ByChip α) (c d : Chip) (v : α) :
    (x.set c v).get d = if d = c then v else x.get d := by cases c <;> cases d <;> rfl

@[simp] theorem BySlot.get_set {α : Type} (x : BySlot α) (k j : Slot) (v : α) :
    (x.set k v).get j = if j = k then v else x.get j := by
  cases k with
  | sd => cases j <;> simp [BySlot.get, BySlot.set]
  | chip c => cases j <;> simp [BySlot.get, BySlot.set]

@[simp] theorem ByChip.get_all {α : Type} (v : α) (c : Chip) : (ByChip.all v).get c = v := by cases c <;> rfl

@[simp] theorem ByPort.set_get {α : Type} (x : ByPort α) (p : Port) : x.set p (x.get p) = x := by cases p <;> rfl

@[simp] theorem ByPort.set_set {α : Type} (x : ByPort α) (p : Port) (u v : α) : (x.set p u).set p v = x.set p v := by
  cases p <;> rfl

theorem ByPort.ext_get {α : Type} {x y : ByPort α} (h : ∀ p, x.get p = y.get p) : x = y := by
  cases x; cases y; exact congr (congrArg ByPort.mk (h .a)) (h .b)

theorem ByChip.ext_get {α : Type} {x y : ByChip α} (h : ∀ c, x.get c = y.get c) : x = y := by
  cases x; cases y
  exact congr (congr (congr (congrArg ByChip.mk (h .s1)) (h .s2)) (h .s3)) (h .s4)

@[simp] theorem Port.other_ne (p : Port) : p.other ≠ p := by cases p <;> decide

@[simp] theorem Port.ne_other (p : Port) : p ≠ p.other := by cases p <;> decide

@[simp] theorem Port.other_other (p : Port) : p.other.other = p := by cases p <;> rfl

theorem Port.eq_or_other (p q : Port) : q = p ∨ q = p.other := by cases p <;> cases q <;> decide

namespace Machine

/-! ### Updates, field by field -/

@[simp] theorem State.setPort_pins (s : State) (p : Port) (u : PortUnit) : (s.setPort p u).pins = s.pins := rfl

@[simp] theorem State.setPort_straps (s : State) (p : Port) (u : PortUnit) : (s.setPort p u).straps = s.straps := rfl

@[simp] theorem State.setPort_now (s : State) (p : Port) (u : PortUnit) : (s.setPort p u).now = s.now := rfl

@[simp] theorem State.setPort_table (s : State) (p : Port) (u : PortUnit) : (s.setPort p u).table = s.table := rfl

@[simp] theorem State.setPort_windows (s : State) (p : Port) (u : PortUnit) : (s.setPort p u).windows = s.windows := rfl

@[simp] theorem State.setPort_pool (s : State) (p : Port) (u : PortUnit) : (s.setPort p u).pool = s.pool := rfl

@[simp] theorem State.setPort_arbiter (s : State) (p : Port) (u : PortUnit) : (s.setPort p u).arbiter = s.arbiter := rfl

@[simp] theorem State.setPort_health (s : State) (p : Port) (u : PortUnit) : (s.setPort p u).health = s.health := rfl

@[simp] theorem State.setPort_nand (s : State) (p : Port) (u : PortUnit) : (s.setPort p u).nand = s.nand := rfl

@[simp] theorem State.setPort_retired (s : State) (p : Port) (u : PortUnit) : (s.setPort p u).retired = s.retired := rfl

@[simp] theorem State.setPort_sdram (s : State) (p : Port) (u : PortUnit) : (s.setPort p u).sdram = s.sdram := rfl

@[simp] theorem State.setPort_ecc (s : State) (p : Port) (u : PortUnit) : (s.setPort p u).ecc = s.ecc := rfl

@[simp] theorem State.setPort_notices (s : State) (p : Port) (u : PortUnit) : (s.setPort p u).notices = s.notices := rfl

@[simp] theorem State.setPort_startup (s : State) (p : Port) (u : PortUnit) : (s.setPort p u).startup = s.startup := rfl

@[simp] theorem State.setPort_bridgeReset (s : State) (p : Port) (u : PortUnit) : (s.setPort p u).bridgeReset = s.bridgeReset := rfl

@[simp] theorem State.setPort_fresh (s : State) (p : Port) (u : PortUnit) : (s.setPort p u).fresh = s.fresh := rfl

@[simp] theorem State.setPort_pending (s : State) (p : Port) (u : PortUnit) : (s.setPort p u).pending = s.pending := rfl

@[simp] theorem State.setEntries_pins (s : State) (p : Port) (es : List Entry) : (s.setEntries p es).pins = s.pins := rfl

@[simp] theorem State.setEntries_straps (s : State) (p : Port) (es : List Entry) : (s.setEntries p es).straps = s.straps := rfl

@[simp] theorem State.setEntries_now (s : State) (p : Port) (es : List Entry) : (s.setEntries p es).now = s.now := rfl

@[simp] theorem State.setEntries_ports (s : State) (p : Port) (es : List Entry) : (s.setEntries p es).ports = s.ports := rfl

@[simp] theorem State.setEntries_windows (s : State) (p : Port) (es : List Entry) : (s.setEntries p es).windows = s.windows := rfl

@[simp] theorem State.setEntries_pool (s : State) (p : Port) (es : List Entry) : (s.setEntries p es).pool = s.pool := rfl

@[simp] theorem State.setEntries_arbiter (s : State) (p : Port) (es : List Entry) : (s.setEntries p es).arbiter = s.arbiter := rfl

@[simp] theorem State.setEntries_health (s : State) (p : Port) (es : List Entry) : (s.setEntries p es).health = s.health := rfl

@[simp] theorem State.setEntries_nand (s : State) (p : Port) (es : List Entry) : (s.setEntries p es).nand = s.nand := rfl

@[simp] theorem State.setEntries_retired (s : State) (p : Port) (es : List Entry) : (s.setEntries p es).retired = s.retired := rfl

@[simp] theorem State.setEntries_sdram (s : State) (p : Port) (es : List Entry) : (s.setEntries p es).sdram = s.sdram := rfl

@[simp] theorem State.setEntries_ecc (s : State) (p : Port) (es : List Entry) : (s.setEntries p es).ecc = s.ecc := rfl

@[simp] theorem State.setEntries_notices (s : State) (p : Port) (es : List Entry) : (s.setEntries p es).notices = s.notices := rfl

@[simp] theorem State.setEntries_startup (s : State) (p : Port) (es : List Entry) : (s.setEntries p es).startup = s.startup := rfl

@[simp] theorem State.setEntries_bridgeReset (s : State) (p : Port) (es : List Entry) : (s.setEntries p es).bridgeReset = s.bridgeReset := rfl

@[simp] theorem State.setEntries_fresh (s : State) (p : Port) (es : List Entry) : (s.setEntries p es).fresh = s.fresh := rfl

@[simp] theorem State.setEntries_pending (s : State) (p : Port) (es : List Entry) : (s.setEntries p es).pending = s.pending := rfl

@[simp] theorem State.setQueue_pins (s : State) (k : Slot) (q : List Ref) : (s.setQueue k q).pins = s.pins := rfl

@[simp] theorem State.setQueue_straps (s : State) (k : Slot) (q : List Ref) : (s.setQueue k q).straps = s.straps := rfl

@[simp] theorem State.setQueue_now (s : State) (k : Slot) (q : List Ref) : (s.setQueue k q).now = s.now := rfl

@[simp] theorem State.setQueue_ports (s : State) (k : Slot) (q : List Ref) : (s.setQueue k q).ports = s.ports := rfl

@[simp] theorem State.setQueue_table (s : State) (k : Slot) (q : List Ref) : (s.setQueue k q).table = s.table := rfl

@[simp] theorem State.setQueue_windows (s : State) (k : Slot) (q : List Ref) : (s.setQueue k q).windows = s.windows := rfl

@[simp] theorem State.setQueue_pool (s : State) (k : Slot) (q : List Ref) : (s.setQueue k q).pool = s.pool := rfl

@[simp] theorem State.setQueue_health (s : State) (k : Slot) (q : List Ref) : (s.setQueue k q).health = s.health := rfl

@[simp] theorem State.setQueue_nand (s : State) (k : Slot) (q : List Ref) : (s.setQueue k q).nand = s.nand := rfl

@[simp] theorem State.setQueue_retired (s : State) (k : Slot) (q : List Ref) : (s.setQueue k q).retired = s.retired := rfl

@[simp] theorem State.setQueue_sdram (s : State) (k : Slot) (q : List Ref) : (s.setQueue k q).sdram = s.sdram := rfl

@[simp] theorem State.setQueue_ecc (s : State) (k : Slot) (q : List Ref) : (s.setQueue k q).ecc = s.ecc := rfl

@[simp] theorem State.setQueue_notices (s : State) (k : Slot) (q : List Ref) : (s.setQueue k q).notices = s.notices := rfl

@[simp] theorem State.setQueue_startup (s : State) (k : Slot) (q : List Ref) : (s.setQueue k q).startup = s.startup := rfl

@[simp] theorem State.setQueue_bridgeReset (s : State) (k : Slot) (q : List Ref) : (s.setQueue k q).bridgeReset = s.bridgeReset := rfl

@[simp] theorem State.setQueue_fresh (s : State) (k : Slot) (q : List Ref) : (s.setQueue k q).fresh = s.fresh := rfl

@[simp] theorem State.setQueue_pending (s : State) (k : Slot) (q : List Ref) : (s.setQueue k q).pending = s.pending := rfl

@[simp] theorem State.setProfile_pins (s : State) (c : Chip) (f : Profile) : (s.setProfile c f).pins = s.pins := rfl

@[simp] theorem State.setProfile_straps (s : State) (c : Chip) (f : Profile) : (s.setProfile c f).straps = s.straps := rfl

@[simp] theorem State.setProfile_now (s : State) (c : Chip) (f : Profile) : (s.setProfile c f).now = s.now := rfl

@[simp] theorem State.setProfile_ports (s : State) (c : Chip) (f : Profile) : (s.setProfile c f).ports = s.ports := rfl

@[simp] theorem State.setProfile_table (s : State) (c : Chip) (f : Profile) : (s.setProfile c f).table = s.table := rfl

@[simp] theorem State.setProfile_windows (s : State) (c : Chip) (f : Profile) : (s.setProfile c f).windows = s.windows := rfl

@[simp] theorem State.setProfile_pool (s : State) (c : Chip) (f : Profile) : (s.setProfile c f).pool = s.pool := rfl

@[simp] theorem State.setProfile_health (s : State) (c : Chip) (f : Profile) : (s.setProfile c f).health = s.health := rfl

@[simp] theorem State.setProfile_nand (s : State) (c : Chip) (f : Profile) : (s.setProfile c f).nand = s.nand := rfl

@[simp] theorem State.setProfile_retired (s : State) (c : Chip) (f : Profile) : (s.setProfile c f).retired = s.retired := rfl

@[simp] theorem State.setProfile_sdram (s : State) (c : Chip) (f : Profile) : (s.setProfile c f).sdram = s.sdram := rfl

@[simp] theorem State.setProfile_ecc (s : State) (c : Chip) (f : Profile) : (s.setProfile c f).ecc = s.ecc := rfl

@[simp] theorem State.setProfile_notices (s : State) (c : Chip) (f : Profile) : (s.setProfile c f).notices = s.notices := rfl

@[simp] theorem State.setProfile_startup (s : State) (c : Chip) (f : Profile) : (s.setProfile c f).startup = s.startup := rfl

@[simp] theorem State.setProfile_bridgeReset (s : State) (c : Chip) (f : Profile) : (s.setProfile c f).bridgeReset = s.bridgeReset := rfl

@[simp] theorem State.setProfile_fresh (s : State) (c : Chip) (f : Profile) : (s.setProfile c f).fresh = s.fresh := rfl

@[simp] theorem State.setProfile_pending (s : State) (c : Chip) (f : Profile) : (s.setProfile c f).pending = s.pending := rfl

@[simp] theorem State.setHealth_pins (s : State) (c : Chip) (h : Health) : (s.setHealth c h).pins = s.pins := rfl

@[simp] theorem State.setHealth_straps (s : State) (c : Chip) (h : Health) : (s.setHealth c h).straps = s.straps := rfl

@[simp] theorem State.setHealth_now (s : State) (c : Chip) (h : Health) : (s.setHealth c h).now = s.now := rfl

@[simp] theorem State.setHealth_ports (s : State) (c : Chip) (h : Health) : (s.setHealth c h).ports = s.ports := rfl

@[simp] theorem State.setHealth_table (s : State) (c : Chip) (h : Health) : (s.setHealth c h).table = s.table := rfl

@[simp] theorem State.setHealth_windows (s : State) (c : Chip) (h : Health) : (s.setHealth c h).windows = s.windows := rfl

@[simp] theorem State.setHealth_pool (s : State) (c : Chip) (h : Health) : (s.setHealth c h).pool = s.pool := rfl

@[simp] theorem State.setHealth_arbiter (s : State) (c : Chip) (h : Health) : (s.setHealth c h).arbiter = s.arbiter := rfl

@[simp] theorem State.setHealth_nand (s : State) (c : Chip) (h : Health) : (s.setHealth c h).nand = s.nand := rfl

@[simp] theorem State.setHealth_retired (s : State) (c : Chip) (h : Health) : (s.setHealth c h).retired = s.retired := rfl

@[simp] theorem State.setHealth_sdram (s : State) (c : Chip) (h : Health) : (s.setHealth c h).sdram = s.sdram := rfl

@[simp] theorem State.setHealth_ecc (s : State) (c : Chip) (h : Health) : (s.setHealth c h).ecc = s.ecc := rfl

@[simp] theorem State.setHealth_notices (s : State) (c : Chip) (h : Health) : (s.setHealth c h).notices = s.notices := rfl

@[simp] theorem State.setHealth_startup (s : State) (c : Chip) (h : Health) : (s.setHealth c h).startup = s.startup := rfl

@[simp] theorem State.setHealth_bridgeReset (s : State) (c : Chip) (h : Health) : (s.setHealth c h).bridgeReset = s.bridgeReset := rfl

@[simp] theorem State.setHealth_fresh (s : State) (c : Chip) (h : Health) : (s.setHealth c h).fresh = s.fresh := rfl

@[simp] theorem State.setHealth_pending (s : State) (c : Chip) (h : Health) : (s.setHealth c h).pending = s.pending := rfl

@[simp] theorem State.setContext_pins (s : State) (c : Chip) (x : Context) : (s.setContext c x).pins = s.pins := rfl

@[simp] theorem State.setContext_straps (s : State) (c : Chip) (x : Context) : (s.setContext c x).straps = s.straps := rfl

@[simp] theorem State.setContext_now (s : State) (c : Chip) (x : Context) : (s.setContext c x).now = s.now := rfl

@[simp] theorem State.setContext_ports (s : State) (c : Chip) (x : Context) : (s.setContext c x).ports = s.ports := rfl

@[simp] theorem State.setContext_table (s : State) (c : Chip) (x : Context) : (s.setContext c x).table = s.table := rfl

@[simp] theorem State.setContext_windows (s : State) (c : Chip) (x : Context) : (s.setContext c x).windows = s.windows := rfl

@[simp] theorem State.setContext_pool (s : State) (c : Chip) (x : Context) : (s.setContext c x).pool = s.pool := rfl

@[simp] theorem State.setContext_arbiter (s : State) (c : Chip) (x : Context) : (s.setContext c x).arbiter = s.arbiter := rfl

@[simp] theorem State.setContext_health (s : State) (c : Chip) (x : Context) : (s.setContext c x).health = s.health := rfl

@[simp] theorem State.setContext_retired (s : State) (c : Chip) (x : Context) : (s.setContext c x).retired = s.retired := rfl

@[simp] theorem State.setContext_sdram (s : State) (c : Chip) (x : Context) : (s.setContext c x).sdram = s.sdram := rfl

@[simp] theorem State.setContext_ecc (s : State) (c : Chip) (x : Context) : (s.setContext c x).ecc = s.ecc := rfl

@[simp] theorem State.setContext_notices (s : State) (c : Chip) (x : Context) : (s.setContext c x).notices = s.notices := rfl

@[simp] theorem State.setContext_startup (s : State) (c : Chip) (x : Context) : (s.setContext c x).startup = s.startup := rfl

@[simp] theorem State.setContext_bridgeReset (s : State) (c : Chip) (x : Context) : (s.setContext c x).bridgeReset = s.bridgeReset := rfl

@[simp] theorem State.setContext_fresh (s : State) (c : Chip) (x : Context) : (s.setContext c x).fresh = s.fresh := rfl

@[simp] theorem State.setContext_pending (s : State) (c : Chip) (x : Context) : (s.setContext c x).pending = s.pending := rfl

@[simp] theorem State.setRetired_pins (s : State) (c : Chip) (l : List Nat) : (s.setRetired c l).pins = s.pins := rfl

@[simp] theorem State.setRetired_straps (s : State) (c : Chip) (l : List Nat) : (s.setRetired c l).straps = s.straps := rfl

@[simp] theorem State.setRetired_now (s : State) (c : Chip) (l : List Nat) : (s.setRetired c l).now = s.now := rfl

@[simp] theorem State.setRetired_ports (s : State) (c : Chip) (l : List Nat) : (s.setRetired c l).ports = s.ports := rfl

@[simp] theorem State.setRetired_table (s : State) (c : Chip) (l : List Nat) : (s.setRetired c l).table = s.table := rfl

@[simp] theorem State.setRetired_windows (s : State) (c : Chip) (l : List Nat) : (s.setRetired c l).windows = s.windows := rfl

@[simp] theorem State.setRetired_pool (s : State) (c : Chip) (l : List Nat) : (s.setRetired c l).pool = s.pool := rfl

@[simp] theorem State.setRetired_arbiter (s : State) (c : Chip) (l : List Nat) : (s.setRetired c l).arbiter = s.arbiter := rfl

@[simp] theorem State.setRetired_health (s : State) (c : Chip) (l : List Nat) : (s.setRetired c l).health = s.health := rfl

@[simp] theorem State.setRetired_nand (s : State) (c : Chip) (l : List Nat) : (s.setRetired c l).nand = s.nand := rfl

@[simp] theorem State.setRetired_sdram (s : State) (c : Chip) (l : List Nat) : (s.setRetired c l).sdram = s.sdram := rfl

@[simp] theorem State.setRetired_ecc (s : State) (c : Chip) (l : List Nat) : (s.setRetired c l).ecc = s.ecc := rfl

@[simp] theorem State.setRetired_notices (s : State) (c : Chip) (l : List Nat) : (s.setRetired c l).notices = s.notices := rfl

@[simp] theorem State.setRetired_startup (s : State) (c : Chip) (l : List Nat) : (s.setRetired c l).startup = s.startup := rfl

@[simp] theorem State.setRetired_bridgeReset (s : State) (c : Chip) (l : List Nat) : (s.setRetired c l).bridgeReset = s.bridgeReset := rfl

@[simp] theorem State.setRetired_fresh (s : State) (c : Chip) (l : List Nat) : (s.setRetired c l).fresh = s.fresh := rfl

@[simp] theorem State.setRetired_pending (s : State) (c : Chip) (l : List Nat) : (s.setRetired c l).pending = s.pending := rfl

@[simp] theorem State.setSdram_pins (s : State) (d : Sdram) : (s.setSdram d).pins = s.pins := rfl

@[simp] theorem State.setSdram_straps (s : State) (d : Sdram) : (s.setSdram d).straps = s.straps := rfl

@[simp] theorem State.setSdram_now (s : State) (d : Sdram) : (s.setSdram d).now = s.now := rfl

@[simp] theorem State.setSdram_ports (s : State) (d : Sdram) : (s.setSdram d).ports = s.ports := rfl

@[simp] theorem State.setSdram_table (s : State) (d : Sdram) : (s.setSdram d).table = s.table := rfl

@[simp] theorem State.setSdram_windows (s : State) (d : Sdram) : (s.setSdram d).windows = s.windows := rfl

@[simp] theorem State.setSdram_pool (s : State) (d : Sdram) : (s.setSdram d).pool = s.pool := rfl

@[simp] theorem State.setSdram_arbiter (s : State) (d : Sdram) : (s.setSdram d).arbiter = s.arbiter := rfl

@[simp] theorem State.setSdram_health (s : State) (d : Sdram) : (s.setSdram d).health = s.health := rfl

@[simp] theorem State.setSdram_nand (s : State) (d : Sdram) : (s.setSdram d).nand = s.nand := rfl

@[simp] theorem State.setSdram_retired (s : State) (d : Sdram) : (s.setSdram d).retired = s.retired := rfl

@[simp] theorem State.setSdram_ecc (s : State) (d : Sdram) : (s.setSdram d).ecc = s.ecc := rfl

@[simp] theorem State.setSdram_notices (s : State) (d : Sdram) : (s.setSdram d).notices = s.notices := rfl

@[simp] theorem State.setSdram_startup (s : State) (d : Sdram) : (s.setSdram d).startup = s.startup := rfl

@[simp] theorem State.setSdram_bridgeReset (s : State) (d : Sdram) : (s.setSdram d).bridgeReset = s.bridgeReset := rfl

@[simp] theorem State.setSdram_fresh (s : State) (d : Sdram) : (s.setSdram d).fresh = s.fresh := rfl

@[simp] theorem State.setSdram_pending (s : State) (d : Sdram) : (s.setSdram d).pending = s.pending := rfl

@[simp] theorem State.setStartup_pins (s : State) (u : Startup) : (s.setStartup u).pins = s.pins := rfl

@[simp] theorem State.setStartup_straps (s : State) (u : Startup) : (s.setStartup u).straps = s.straps := rfl

@[simp] theorem State.setStartup_now (s : State) (u : Startup) : (s.setStartup u).now = s.now := rfl

@[simp] theorem State.setStartup_ports (s : State) (u : Startup) : (s.setStartup u).ports = s.ports := rfl

@[simp] theorem State.setStartup_table (s : State) (u : Startup) : (s.setStartup u).table = s.table := rfl

@[simp] theorem State.setStartup_windows (s : State) (u : Startup) : (s.setStartup u).windows = s.windows := rfl

@[simp] theorem State.setStartup_pool (s : State) (u : Startup) : (s.setStartup u).pool = s.pool := rfl

@[simp] theorem State.setStartup_arbiter (s : State) (u : Startup) : (s.setStartup u).arbiter = s.arbiter := rfl

@[simp] theorem State.setStartup_health (s : State) (u : Startup) : (s.setStartup u).health = s.health := rfl

@[simp] theorem State.setStartup_nand (s : State) (u : Startup) : (s.setStartup u).nand = s.nand := rfl

@[simp] theorem State.setStartup_retired (s : State) (u : Startup) : (s.setStartup u).retired = s.retired := rfl

@[simp] theorem State.setStartup_sdram (s : State) (u : Startup) : (s.setStartup u).sdram = s.sdram := rfl

@[simp] theorem State.setStartup_ecc (s : State) (u : Startup) : (s.setStartup u).ecc = s.ecc := rfl

@[simp] theorem State.setStartup_notices (s : State) (u : Startup) : (s.setStartup u).notices = s.notices := rfl

@[simp] theorem State.setStartup_bridgeReset (s : State) (u : Startup) : (s.setStartup u).bridgeReset = s.bridgeReset := rfl

@[simp] theorem State.setStartup_fresh (s : State) (u : Startup) : (s.setStartup u).fresh = s.fresh := rfl

@[simp] theorem State.setStartup_pending (s : State) (u : Startup) : (s.setStartup u).pending = s.pending := rfl

/-! ### Readings of an update -/

@[simp] theorem State.port_setPort (s : State) (p q : Port) (u : PortUnit) :
    (s.setPort p u).port q = if q = p then u else s.port q := ByPort.get_set s.ports p q u

@[simp] theorem State.entries_setEntries (s : State) (p q : Port) (es : List Entry) :
    (s.setEntries p es).entries q = if q = p then es else s.entries q := ByPort.get_set s.table p q es

@[simp] theorem State.queue_setQueue (s : State) (k j : Slot) (q : List Ref) :
    (s.setQueue k q).queue j = if j = k then q else s.queue j := BySlot.get_set s.arbiter.queues k j q

@[simp] theorem State.profile_setProfile (s : State) (c d : Chip) (f : Profile) :
    (s.setProfile c f).profile d = if d = c then f else s.profile d := ByChip.get_set s.arbiter.profiles c d f

@[simp] theorem State.context_setContext (s : State) (c d : Chip) (x : Context) :
    (s.setContext c x).context d = if d = c then x else s.context d := ByChip.get_set s.nand c d x

@[simp] theorem State.sdram_setSdram (s : State) (d : Sdram) : (s.setSdram d).sdram = d := rfl

@[simp] theorem State.startup_setStartup (s : State) (u : Startup) : (s.setStartup u).startup = u := rfl

@[simp] theorem State.health_setHealth (s : State) (c : Chip) (h : Health) : (s.setHealth c h).health = s.health.set c h := rfl

@[simp] theorem State.retired_setRetired (s : State) (c : Chip) (l : List Nat) :
    (s.setRetired c l).retired = s.retired.set c l := rfl

@[simp] theorem State.setPort_port (s : State) (p : Port) : s.setPort p (s.port p) = s := by
  simp only [State.setPort, State.port, ByPort.set_get]

@[simp] theorem State.entries_setPort (s : State) (p : Port) (u : PortUnit) (q : Port) : (s.setPort p u).entries q = s.entries q := rfl

@[simp] theorem State.queue_setPort (s : State) (p : Port) (u : PortUnit) (j : Slot) : (s.setPort p u).queue j = s.queue j := rfl

@[simp] theorem State.profile_setPort (s : State) (p : Port) (u : PortUnit) (d : Chip) : (s.setPort p u).profile d = s.profile d := rfl

@[simp] theorem State.context_setPort (s : State) (p : Port) (u : PortUnit) (d : Chip) : (s.setPort p u).context d = s.context d := rfl

@[simp] theorem State.port_setEntries (s : State) (p : Port) (es : List Entry) (q : Port) : (s.setEntries p es).port q = s.port q := rfl

@[simp] theorem State.queue_setEntries (s : State) (p : Port) (es : List Entry) (j : Slot) : (s.setEntries p es).queue j = s.queue j := rfl

@[simp] theorem State.profile_setEntries (s : State) (p : Port) (es : List Entry) (d : Chip) : (s.setEntries p es).profile d = s.profile d := rfl

@[simp] theorem State.context_setEntries (s : State) (p : Port) (es : List Entry) (d : Chip) : (s.setEntries p es).context d = s.context d := rfl

@[simp] theorem State.port_setQueue (s : State) (k : Slot) (q : List Ref) (p' : Port) : (s.setQueue k q).port p' = s.port p' := rfl

@[simp] theorem State.entries_setQueue (s : State) (k : Slot) (q : List Ref) (p' : Port) : (s.setQueue k q).entries p' = s.entries p' := rfl

@[simp] theorem State.profile_setQueue (s : State) (k : Slot) (q : List Ref) (d : Chip) : (s.setQueue k q).profile d = s.profile d := rfl

@[simp] theorem State.context_setQueue (s : State) (k : Slot) (q : List Ref) (d : Chip) : (s.setQueue k q).context d = s.context d := rfl

@[simp] theorem State.port_setProfile (s : State) (c : Chip) (f : Profile) (q : Port) : (s.setProfile c f).port q = s.port q := rfl

@[simp] theorem State.entries_setProfile (s : State) (c : Chip) (f : Profile) (q : Port) : (s.setProfile c f).entries q = s.entries q := rfl

@[simp] theorem State.queue_setProfile (s : State) (c : Chip) (f : Profile) (j : Slot) : (s.setProfile c f).queue j = s.queue j := rfl

@[simp] theorem State.context_setProfile (s : State) (c : Chip) (f : Profile) (d : Chip) : (s.setProfile c f).context d = s.context d := rfl

@[simp] theorem State.port_setHealth (s : State) (c : Chip) (h : Health) (q : Port) : (s.setHealth c h).port q = s.port q := rfl

@[simp] theorem State.entries_setHealth (s : State) (c : Chip) (h : Health) (q : Port) : (s.setHealth c h).entries q = s.entries q := rfl

@[simp] theorem State.queue_setHealth (s : State) (c : Chip) (h : Health) (j : Slot) : (s.setHealth c h).queue j = s.queue j := rfl

@[simp] theorem State.profile_setHealth (s : State) (c : Chip) (h : Health) (d : Chip) : (s.setHealth c h).profile d = s.profile d := rfl

@[simp] theorem State.context_setHealth (s : State) (c : Chip) (h : Health) (d : Chip) : (s.setHealth c h).context d = s.context d := rfl

@[simp] theorem State.port_setContext (s : State) (c : Chip) (x : Context) (q : Port) : (s.setContext c x).port q = s.port q := rfl

@[simp] theorem State.entries_setContext (s : State) (c : Chip) (x : Context) (q : Port) : (s.setContext c x).entries q = s.entries q := rfl

@[simp] theorem State.queue_setContext (s : State) (c : Chip) (x : Context) (j : Slot) : (s.setContext c x).queue j = s.queue j := rfl

@[simp] theorem State.profile_setContext (s : State) (c : Chip) (x : Context) (d : Chip) : (s.setContext c x).profile d = s.profile d := rfl

@[simp] theorem State.port_setRetired (s : State) (c : Chip) (l : List Nat) (q : Port) : (s.setRetired c l).port q = s.port q := rfl

@[simp] theorem State.entries_setRetired (s : State) (c : Chip) (l : List Nat) (q : Port) : (s.setRetired c l).entries q = s.entries q := rfl

@[simp] theorem State.queue_setRetired (s : State) (c : Chip) (l : List Nat) (j : Slot) : (s.setRetired c l).queue j = s.queue j := rfl

@[simp] theorem State.profile_setRetired (s : State) (c : Chip) (l : List Nat) (d : Chip) : (s.setRetired c l).profile d = s.profile d := rfl

@[simp] theorem State.context_setRetired (s : State) (c : Chip) (l : List Nat) (d : Chip) : (s.setRetired c l).context d = s.context d := rfl

@[simp] theorem State.port_setSdram (s : State) (d : Sdram) (q : Port) : (s.setSdram d).port q = s.port q := rfl

@[simp] theorem State.entries_setSdram (s : State) (d : Sdram) (q : Port) : (s.setSdram d).entries q = s.entries q := rfl

@[simp] theorem State.queue_setSdram (s : State) (d : Sdram) (j : Slot) : (s.setSdram d).queue j = s.queue j := rfl

@[simp] theorem State.profile_setSdram (s : State) (d : Sdram) (c' : Chip) : (s.setSdram d).profile c' = s.profile c' := rfl

@[simp] theorem State.context_setSdram (s : State) (d : Sdram) (c' : Chip) : (s.setSdram d).context c' = s.context c' := rfl

@[simp] theorem State.port_setStartup (s : State) (u : Startup) (q : Port) : (s.setStartup u).port q = s.port q := rfl

@[simp] theorem State.entries_setStartup (s : State) (u : Startup) (q : Port) : (s.setStartup u).entries q = s.entries q := rfl

@[simp] theorem State.queue_setStartup (s : State) (u : Startup) (j : Slot) : (s.setStartup u).queue j = s.queue j := rfl

@[simp] theorem State.profile_setStartup (s : State) (u : Startup) (d : Chip) : (s.setStartup u).profile d = s.profile d := rfl

@[simp] theorem State.context_setStartup (s : State) (u : Startup) (d : Chip) : (s.setStartup u).context d = s.context d := rfl

end Machine

end Sys2Proof
end

