-- ==== Sys2Proof/Laws/Ops.lean ====
section
/-! SUPPORT. What the named operations change, and that they change nothing else. -/
namespace Sys2Proof.Machine

/-! ### What each operation can change -/

/-- Only the table changes. -/
theorem State.updateEntry_only (s : State) (r : Ref) (f : Entry → Entry) :
    s.updateEntry r f = { s with table := (s.updateEntry r f).table } := by
  rfl

@[simp] theorem State.updateEntry_pins (s : State) (r : Ref) (f : Entry → Entry) : (s.updateEntry r f).pins = s.pins := by
  rw [s.updateEntry_only r f]

@[simp] theorem State.updateEntry_straps (s : State) (r : Ref) (f : Entry → Entry) : (s.updateEntry r f).straps = s.straps := by
  rw [s.updateEntry_only r f]

@[simp] theorem State.updateEntry_now (s : State) (r : Ref) (f : Entry → Entry) : (s.updateEntry r f).now = s.now := by
  rw [s.updateEntry_only r f]

@[simp] theorem State.updateEntry_ports (s : State) (r : Ref) (f : Entry → Entry) : (s.updateEntry r f).ports = s.ports := by
  rw [s.updateEntry_only r f]

@[simp] theorem State.updateEntry_windows (s : State) (r : Ref) (f : Entry → Entry) : (s.updateEntry r f).windows = s.windows := by
  rw [s.updateEntry_only r f]

@[simp] theorem State.updateEntry_pool (s : State) (r : Ref) (f : Entry → Entry) : (s.updateEntry r f).pool = s.pool := by
  rw [s.updateEntry_only r f]

@[simp] theorem State.updateEntry_arbiter (s : State) (r : Ref) (f : Entry → Entry) : (s.updateEntry r f).arbiter = s.arbiter := by
  rw [s.updateEntry_only r f]

@[simp] theorem State.updateEntry_health (s : State) (r : Ref) (f : Entry → Entry) : (s.updateEntry r f).health = s.health := by
  rw [s.updateEntry_only r f]

@[simp] theorem State.updateEntry_nand (s : State) (r : Ref) (f : Entry → Entry) : (s.updateEntry r f).nand = s.nand := by
  rw [s.updateEntry_only r f]

@[simp] theorem State.updateEntry_retired (s : State) (r : Ref) (f : Entry → Entry) : (s.updateEntry r f).retired = s.retired := by
  rw [s.updateEntry_only r f]

@[simp] theorem State.updateEntry_sdram (s : State) (r : Ref) (f : Entry → Entry) : (s.updateEntry r f).sdram = s.sdram := by
  rw [s.updateEntry_only r f]

@[simp] theorem State.updateEntry_ecc (s : State) (r : Ref) (f : Entry → Entry) : (s.updateEntry r f).ecc = s.ecc := by
  rw [s.updateEntry_only r f]

@[simp] theorem State.updateEntry_notices (s : State) (r : Ref) (f : Entry → Entry) : (s.updateEntry r f).notices = s.notices := by
  rw [s.updateEntry_only r f]

@[simp] theorem State.updateEntry_startup (s : State) (r : Ref) (f : Entry → Entry) : (s.updateEntry r f).startup = s.startup := by
  rw [s.updateEntry_only r f]

@[simp] theorem State.updateEntry_bridgeReset (s : State) (r : Ref) (f : Entry → Entry) : (s.updateEntry r f).bridgeReset = s.bridgeReset := by
  rw [s.updateEntry_only r f]

@[simp] theorem State.updateEntry_fresh (s : State) (r : Ref) (f : Entry → Entry) : (s.updateEntry r f).fresh = s.fresh := by
  rw [s.updateEntry_only r f]

@[simp] theorem State.updateEntry_pending (s : State) (r : Ref) (f : Entry → Entry) : (s.updateEntry r f).pending = s.pending := by
  rw [s.updateEntry_only r f]

/-- Only the table changes. -/
theorem State.dropEntry_only (s : State) (r : Ref) :
    s.dropEntry r = { s with table := (s.dropEntry r).table } := by
  rfl

@[simp] theorem State.dropEntry_pins (s : State) (r : Ref) : (s.dropEntry r).pins = s.pins := by
  rw [s.dropEntry_only r]

@[simp] theorem State.dropEntry_straps (s : State) (r : Ref) : (s.dropEntry r).straps = s.straps := by
  rw [s.dropEntry_only r]

@[simp] theorem State.dropEntry_now (s : State) (r : Ref) : (s.dropEntry r).now = s.now := by
  rw [s.dropEntry_only r]

@[simp] theorem State.dropEntry_ports (s : State) (r : Ref) : (s.dropEntry r).ports = s.ports := by
  rw [s.dropEntry_only r]

@[simp] theorem State.dropEntry_windows (s : State) (r : Ref) : (s.dropEntry r).windows = s.windows := by
  rw [s.dropEntry_only r]

@[simp] theorem State.dropEntry_pool (s : State) (r : Ref) : (s.dropEntry r).pool = s.pool := by
  rw [s.dropEntry_only r]

@[simp] theorem State.dropEntry_arbiter (s : State) (r : Ref) : (s.dropEntry r).arbiter = s.arbiter := by
  rw [s.dropEntry_only r]

@[simp] theorem State.dropEntry_health (s : State) (r : Ref) : (s.dropEntry r).health = s.health := by
  rw [s.dropEntry_only r]

@[simp] theorem State.dropEntry_nand (s : State) (r : Ref) : (s.dropEntry r).nand = s.nand := by
  rw [s.dropEntry_only r]

@[simp] theorem State.dropEntry_retired (s : State) (r : Ref) : (s.dropEntry r).retired = s.retired := by
  rw [s.dropEntry_only r]

@[simp] theorem State.dropEntry_sdram (s : State) (r : Ref) : (s.dropEntry r).sdram = s.sdram := by
  rw [s.dropEntry_only r]

@[simp] theorem State.dropEntry_ecc (s : State) (r : Ref) : (s.dropEntry r).ecc = s.ecc := by
  rw [s.dropEntry_only r]

@[simp] theorem State.dropEntry_notices (s : State) (r : Ref) : (s.dropEntry r).notices = s.notices := by
  rw [s.dropEntry_only r]

@[simp] theorem State.dropEntry_startup (s : State) (r : Ref) : (s.dropEntry r).startup = s.startup := by
  rw [s.dropEntry_only r]

@[simp] theorem State.dropEntry_bridgeReset (s : State) (r : Ref) : (s.dropEntry r).bridgeReset = s.bridgeReset := by
  rw [s.dropEntry_only r]

@[simp] theorem State.dropEntry_fresh (s : State) (r : Ref) : (s.dropEntry r).fresh = s.fresh := by
  rw [s.dropEntry_only r]

@[simp] theorem State.dropEntry_pending (s : State) (r : Ref) : (s.dropEntry r).pending = s.pending := by
  rw [s.dropEntry_only r]

/-- Only the arbiter's queues change. -/
theorem State.dequeue_only (s : State) (k : Slot) (r : Ref) :
    s.dequeue k r = { s with arbiter := (s.dequeue k r).arbiter } := by
  rfl

@[simp] theorem State.dequeue_pins (s : State) (k : Slot) (r : Ref) : (s.dequeue k r).pins = s.pins := by
  rw [s.dequeue_only k r]

@[simp] theorem State.dequeue_straps (s : State) (k : Slot) (r : Ref) : (s.dequeue k r).straps = s.straps := by
  rw [s.dequeue_only k r]

@[simp] theorem State.dequeue_now (s : State) (k : Slot) (r : Ref) : (s.dequeue k r).now = s.now := by
  rw [s.dequeue_only k r]

@[simp] theorem State.dequeue_ports (s : State) (k : Slot) (r : Ref) : (s.dequeue k r).ports = s.ports := by
  rw [s.dequeue_only k r]

@[simp] theorem State.dequeue_table (s : State) (k : Slot) (r : Ref) : (s.dequeue k r).table = s.table := by
  rw [s.dequeue_only k r]

@[simp] theorem State.dequeue_windows (s : State) (k : Slot) (r : Ref) : (s.dequeue k r).windows = s.windows := by
  rw [s.dequeue_only k r]

@[simp] theorem State.dequeue_pool (s : State) (k : Slot) (r : Ref) : (s.dequeue k r).pool = s.pool := by
  rw [s.dequeue_only k r]

@[simp] theorem State.dequeue_health (s : State) (k : Slot) (r : Ref) : (s.dequeue k r).health = s.health := by
  rw [s.dequeue_only k r]

@[simp] theorem State.dequeue_nand (s : State) (k : Slot) (r : Ref) : (s.dequeue k r).nand = s.nand := by
  rw [s.dequeue_only k r]

@[simp] theorem State.dequeue_retired (s : State) (k : Slot) (r : Ref) : (s.dequeue k r).retired = s.retired := by
  rw [s.dequeue_only k r]

@[simp] theorem State.dequeue_sdram (s : State) (k : Slot) (r : Ref) : (s.dequeue k r).sdram = s.sdram := by
  rw [s.dequeue_only k r]

@[simp] theorem State.dequeue_ecc (s : State) (k : Slot) (r : Ref) : (s.dequeue k r).ecc = s.ecc := by
  rw [s.dequeue_only k r]

@[simp] theorem State.dequeue_notices (s : State) (k : Slot) (r : Ref) : (s.dequeue k r).notices = s.notices := by
  rw [s.dequeue_only k r]

@[simp] theorem State.dequeue_startup (s : State) (k : Slot) (r : Ref) : (s.dequeue k r).startup = s.startup := by
  rw [s.dequeue_only k r]

@[simp] theorem State.dequeue_bridgeReset (s : State) (k : Slot) (r : Ref) : (s.dequeue k r).bridgeReset = s.bridgeReset := by
  rw [s.dequeue_only k r]

@[simp] theorem State.dequeue_fresh (s : State) (k : Slot) (r : Ref) : (s.dequeue k r).fresh = s.fresh := by
  rw [s.dequeue_only k r]

@[simp] theorem State.dequeue_pending (s : State) (k : Slot) (r : Ref) : (s.dequeue k r).pending = s.pending := by
  rw [s.dequeue_only k r]

/-- Only the table and the pool change. -/
theorem State.releaseSegments_only (s : State) (r : Ref) :
    s.releaseSegments r = { s with table := (s.releaseSegments r).table, pool := (s.releaseSegments r).pool } := by
  unfold State.releaseSegments; split <;> rfl

@[simp] theorem State.releaseSegments_pins (s : State) (r : Ref) : (s.releaseSegments r).pins = s.pins := by
  rw [s.releaseSegments_only r]

@[simp] theorem State.releaseSegments_straps (s : State) (r : Ref) : (s.releaseSegments r).straps = s.straps := by
  rw [s.releaseSegments_only r]

@[simp] theorem State.releaseSegments_now (s : State) (r : Ref) : (s.releaseSegments r).now = s.now := by
  rw [s.releaseSegments_only r]

@[simp] theorem State.releaseSegments_ports (s : State) (r : Ref) : (s.releaseSegments r).ports = s.ports := by
  rw [s.releaseSegments_only r]

@[simp] theorem State.releaseSegments_windows (s : State) (r : Ref) : (s.releaseSegments r).windows = s.windows := by
  rw [s.releaseSegments_only r]

@[simp] theorem State.releaseSegments_arbiter (s : State) (r : Ref) : (s.releaseSegments r).arbiter = s.arbiter := by
  rw [s.releaseSegments_only r]

@[simp] theorem State.releaseSegments_health (s : State) (r : Ref) : (s.releaseSegments r).health = s.health := by
  rw [s.releaseSegments_only r]

@[simp] theorem State.releaseSegments_nand (s : State) (r : Ref) : (s.releaseSegments r).nand = s.nand := by
  rw [s.releaseSegments_only r]

@[simp] theorem State.releaseSegments_retired (s : State) (r : Ref) : (s.releaseSegments r).retired = s.retired := by
  rw [s.releaseSegments_only r]

@[simp] theorem State.releaseSegments_sdram (s : State) (r : Ref) : (s.releaseSegments r).sdram = s.sdram := by
  rw [s.releaseSegments_only r]

@[simp] theorem State.releaseSegments_ecc (s : State) (r : Ref) : (s.releaseSegments r).ecc = s.ecc := by
  rw [s.releaseSegments_only r]

@[simp] theorem State.releaseSegments_notices (s : State) (r : Ref) : (s.releaseSegments r).notices = s.notices := by
  rw [s.releaseSegments_only r]

@[simp] theorem State.releaseSegments_startup (s : State) (r : Ref) : (s.releaseSegments r).startup = s.startup := by
  rw [s.releaseSegments_only r]

@[simp] theorem State.releaseSegments_bridgeReset (s : State) (r : Ref) : (s.releaseSegments r).bridgeReset = s.bridgeReset := by
  rw [s.releaseSegments_only r]

@[simp] theorem State.releaseSegments_fresh (s : State) (r : Ref) : (s.releaseSegments r).fresh = s.fresh := by
  rw [s.releaseSegments_only r]

@[simp] theorem State.releaseSegments_pending (s : State) (r : Ref) : (s.releaseSegments r).pending = s.pending := by
  rw [s.releaseSegments_only r]

/-- Only the pool's bytes change. -/
theorem State.stage_only (s : State) (l : List Nat) (j : Nat) (d : List Byte) :
    s.stage l j d = { s with pool := (s.stage l j d).pool } := by
  rfl

@[simp] theorem State.stage_pins (s : State) (l : List Nat) (j : Nat) (d : List Byte) : (s.stage l j d).pins = s.pins := by
  rw [s.stage_only l j d]

@[simp] theorem State.stage_straps (s : State) (l : List Nat) (j : Nat) (d : List Byte) : (s.stage l j d).straps = s.straps := by
  rw [s.stage_only l j d]

@[simp] theorem State.stage_now (s : State) (l : List Nat) (j : Nat) (d : List Byte) : (s.stage l j d).now = s.now := by
  rw [s.stage_only l j d]

@[simp] theorem State.stage_ports (s : State) (l : List Nat) (j : Nat) (d : List Byte) : (s.stage l j d).ports = s.ports := by
  rw [s.stage_only l j d]

@[simp] theorem State.stage_table (s : State) (l : List Nat) (j : Nat) (d : List Byte) : (s.stage l j d).table = s.table := by
  rw [s.stage_only l j d]

@[simp] theorem State.stage_windows (s : State) (l : List Nat) (j : Nat) (d : List Byte) : (s.stage l j d).windows = s.windows := by
  rw [s.stage_only l j d]

@[simp] theorem State.stage_arbiter (s : State) (l : List Nat) (j : Nat) (d : List Byte) : (s.stage l j d).arbiter = s.arbiter := by
  rw [s.stage_only l j d]

@[simp] theorem State.stage_health (s : State) (l : List Nat) (j : Nat) (d : List Byte) : (s.stage l j d).health = s.health := by
  rw [s.stage_only l j d]

@[simp] theorem State.stage_nand (s : State) (l : List Nat) (j : Nat) (d : List Byte) : (s.stage l j d).nand = s.nand := by
  rw [s.stage_only l j d]

@[simp] theorem State.stage_retired (s : State) (l : List Nat) (j : Nat) (d : List Byte) : (s.stage l j d).retired = s.retired := by
  rw [s.stage_only l j d]

@[simp] theorem State.stage_sdram (s : State) (l : List Nat) (j : Nat) (d : List Byte) : (s.stage l j d).sdram = s.sdram := by
  rw [s.stage_only l j d]

@[simp] theorem State.stage_ecc (s : State) (l : List Nat) (j : Nat) (d : List Byte) : (s.stage l j d).ecc = s.ecc := by
  rw [s.stage_only l j d]

@[simp] theorem State.stage_notices (s : State) (l : List Nat) (j : Nat) (d : List Byte) : (s.stage l j d).notices = s.notices := by
  rw [s.stage_only l j d]

@[simp] theorem State.stage_startup (s : State) (l : List Nat) (j : Nat) (d : List Byte) : (s.stage l j d).startup = s.startup := by
  rw [s.stage_only l j d]

@[simp] theorem State.stage_bridgeReset (s : State) (l : List Nat) (j : Nat) (d : List Byte) : (s.stage l j d).bridgeReset = s.bridgeReset := by
  rw [s.stage_only l j d]

@[simp] theorem State.stage_fresh (s : State) (l : List Nat) (j : Nat) (d : List Byte) : (s.stage l j d).fresh = s.fresh := by
  rw [s.stage_only l j d]

@[simp] theorem State.stage_pending (s : State) (l : List Nat) (j : Nat) (d : List Byte) : (s.stage l j d).pending = s.pending := by
  rw [s.stage_only l j d]

/-- Only the table and the pool change. -/
theorem State.freeEntry_only (s : State) (r : Ref) :
    s.freeEntry r = { s with table := (s.freeEntry r).table, pool := (s.freeEntry r).pool } := by
  unfold State.freeEntry State.dropEntry State.setEntries
  rw [State.releaseSegments_only]

@[simp] theorem State.freeEntry_pins (s : State) (r : Ref) : (s.freeEntry r).pins = s.pins := by
  rw [s.freeEntry_only r]

@[simp] theorem State.freeEntry_straps (s : State) (r : Ref) : (s.freeEntry r).straps = s.straps := by
  rw [s.freeEntry_only r]

@[simp] theorem State.freeEntry_now (s : State) (r : Ref) : (s.freeEntry r).now = s.now := by
  rw [s.freeEntry_only r]

@[simp] theorem State.freeEntry_ports (s : State) (r : Ref) : (s.freeEntry r).ports = s.ports := by
  rw [s.freeEntry_only r]

@[simp] theorem State.freeEntry_windows (s : State) (r : Ref) : (s.freeEntry r).windows = s.windows := by
  rw [s.freeEntry_only r]

@[simp] theorem State.freeEntry_arbiter (s : State) (r : Ref) : (s.freeEntry r).arbiter = s.arbiter := by
  rw [s.freeEntry_only r]

@[simp] theorem State.freeEntry_health (s : State) (r : Ref) : (s.freeEntry r).health = s.health := by
  rw [s.freeEntry_only r]

@[simp] theorem State.freeEntry_nand (s : State) (r : Ref) : (s.freeEntry r).nand = s.nand := by
  rw [s.freeEntry_only r]

@[simp] theorem State.freeEntry_retired (s : State) (r : Ref) : (s.freeEntry r).retired = s.retired := by
  rw [s.freeEntry_only r]

@[simp] theorem State.freeEntry_sdram (s : State) (r : Ref) : (s.freeEntry r).sdram = s.sdram := by
  rw [s.freeEntry_only r]

@[simp] theorem State.freeEntry_ecc (s : State) (r : Ref) : (s.freeEntry r).ecc = s.ecc := by
  rw [s.freeEntry_only r]

@[simp] theorem State.freeEntry_notices (s : State) (r : Ref) : (s.freeEntry r).notices = s.notices := by
  rw [s.freeEntry_only r]

@[simp] theorem State.freeEntry_startup (s : State) (r : Ref) : (s.freeEntry r).startup = s.startup := by
  rw [s.freeEntry_only r]

@[simp] theorem State.freeEntry_bridgeReset (s : State) (r : Ref) : (s.freeEntry r).bridgeReset = s.bridgeReset := by
  rw [s.freeEntry_only r]

@[simp] theorem State.freeEntry_fresh (s : State) (r : Ref) : (s.freeEntry r).fresh = s.fresh := by
  rw [s.freeEntry_only r]

@[simp] theorem State.freeEntry_pending (s : State) (r : Ref) : (s.freeEntry r).pending = s.pending := by
  rw [s.freeEntry_only r]

/-- Only the port and its notices change. -/
theorem State.moveNotice_only (s : State) (p : Port) :
    s.moveNotice p = { s with ports := (s.moveNotice p).ports, notices := (s.moveNotice p).notices } := by
  unfold State.moveNotice; dsimp only; split <;> rfl

@[simp] theorem State.moveNotice_pins (s : State) (p : Port) : (s.moveNotice p).pins = s.pins := by
  rw [s.moveNotice_only p]

@[simp] theorem State.moveNotice_straps (s : State) (p : Port) : (s.moveNotice p).straps = s.straps := by
  rw [s.moveNotice_only p]

@[simp] theorem State.moveNotice_now (s : State) (p : Port) : (s.moveNotice p).now = s.now := by
  rw [s.moveNotice_only p]

@[simp] theorem State.moveNotice_table (s : State) (p : Port) : (s.moveNotice p).table = s.table := by
  rw [s.moveNotice_only p]

@[simp] theorem State.moveNotice_windows (s : State) (p : Port) : (s.moveNotice p).windows = s.windows := by
  rw [s.moveNotice_only p]

@[simp] theorem State.moveNotice_pool (s : State) (p : Port) : (s.moveNotice p).pool = s.pool := by
  rw [s.moveNotice_only p]

@[simp] theorem State.moveNotice_arbiter (s : State) (p : Port) : (s.moveNotice p).arbiter = s.arbiter := by
  rw [s.moveNotice_only p]

@[simp] theorem State.moveNotice_health (s : State) (p : Port) : (s.moveNotice p).health = s.health := by
  rw [s.moveNotice_only p]

@[simp] theorem State.moveNotice_nand (s : State) (p : Port) : (s.moveNotice p).nand = s.nand := by
  rw [s.moveNotice_only p]

@[simp] theorem State.moveNotice_retired (s : State) (p : Port) : (s.moveNotice p).retired = s.retired := by
  rw [s.moveNotice_only p]

@[simp] theorem State.moveNotice_sdram (s : State) (p : Port) : (s.moveNotice p).sdram = s.sdram := by
  rw [s.moveNotice_only p]

@[simp] theorem State.moveNotice_ecc (s : State) (p : Port) : (s.moveNotice p).ecc = s.ecc := by
  rw [s.moveNotice_only p]

@[simp] theorem State.moveNotice_startup (s : State) (p : Port) : (s.moveNotice p).startup = s.startup := by
  rw [s.moveNotice_only p]

@[simp] theorem State.moveNotice_bridgeReset (s : State) (p : Port) : (s.moveNotice p).bridgeReset = s.bridgeReset := by
  rw [s.moveNotice_only p]

@[simp] theorem State.moveNotice_fresh (s : State) (p : Port) : (s.moveNotice p).fresh = s.fresh := by
  rw [s.moveNotice_only p]

@[simp] theorem State.moveNotice_pending (s : State) (p : Port) : (s.moveNotice p).pending = s.pending := by
  rw [s.moveNotice_only p]

/-- Only the port and its notices change. -/
theorem State.post_only (s : State) (p : Port) (x : Notice) :
    s.post p x = { s with ports := (s.post p x).ports, notices := (s.post p x).notices } := by
  unfold State.post; dsimp only; split
  · rfl
  · split
    · rw [State.moveNotice_only]
    · rfl

@[simp] theorem State.post_pins (s : State) (p : Port) (x : Notice) : (s.post p x).pins = s.pins := by
  rw [s.post_only p x]

@[simp] theorem State.post_straps (s : State) (p : Port) (x : Notice) : (s.post p x).straps = s.straps := by
  rw [s.post_only p x]

@[simp] theorem State.post_now (s : State) (p : Port) (x : Notice) : (s.post p x).now = s.now := by
  rw [s.post_only p x]

@[simp] theorem State.post_table (s : State) (p : Port) (x : Notice) : (s.post p x).table = s.table := by
  rw [s.post_only p x]

@[simp] theorem State.post_windows (s : State) (p : Port) (x : Notice) : (s.post p x).windows = s.windows := by
  rw [s.post_only p x]

@[simp] theorem State.post_pool (s : State) (p : Port) (x : Notice) : (s.post p x).pool = s.pool := by
  rw [s.post_only p x]

@[simp] theorem State.post_arbiter (s : State) (p : Port) (x : Notice) : (s.post p x).arbiter = s.arbiter := by
  rw [s.post_only p x]

@[simp] theorem State.post_health (s : State) (p : Port) (x : Notice) : (s.post p x).health = s.health := by
  rw [s.post_only p x]

@[simp] theorem State.post_nand (s : State) (p : Port) (x : Notice) : (s.post p x).nand = s.nand := by
  rw [s.post_only p x]

@[simp] theorem State.post_retired (s : State) (p : Port) (x : Notice) : (s.post p x).retired = s.retired := by
  rw [s.post_only p x]

@[simp] theorem State.post_sdram (s : State) (p : Port) (x : Notice) : (s.post p x).sdram = s.sdram := by
  rw [s.post_only p x]

@[simp] theorem State.post_ecc (s : State) (p : Port) (x : Notice) : (s.post p x).ecc = s.ecc := by
  rw [s.post_only p x]

@[simp] theorem State.post_startup (s : State) (p : Port) (x : Notice) : (s.post p x).startup = s.startup := by
  rw [s.post_only p x]

@[simp] theorem State.post_bridgeReset (s : State) (p : Port) (x : Notice) : (s.post p x).bridgeReset = s.bridgeReset := by
  rw [s.post_only p x]

@[simp] theorem State.post_fresh (s : State) (p : Port) (x : Notice) : (s.post p x).fresh = s.fresh := by
  rw [s.post_only p x]

@[simp] theorem State.post_pending (s : State) (p : Port) (x : Notice) : (s.post p x).pending = s.pending := by
  rw [s.post_only p x]

/-- Only the ports and their notices change. -/
theorem State.postBoth_only (s : State) (x : Notice) :
    s.postBoth x = { s with ports := (s.postBoth x).ports, notices := (s.postBoth x).notices } := by
  unfold State.postBoth
  rw [State.post_only (s.post .a x), State.post_only s]

@[simp] theorem State.postBoth_pins (s : State) (x : Notice) : (s.postBoth x).pins = s.pins := by
  rw [s.postBoth_only x]

@[simp] theorem State.postBoth_straps (s : State) (x : Notice) : (s.postBoth x).straps = s.straps := by
  rw [s.postBoth_only x]

@[simp] theorem State.postBoth_now (s : State) (x : Notice) : (s.postBoth x).now = s.now := by
  rw [s.postBoth_only x]

@[simp] theorem State.postBoth_table (s : State) (x : Notice) : (s.postBoth x).table = s.table := by
  rw [s.postBoth_only x]

@[simp] theorem State.postBoth_windows (s : State) (x : Notice) : (s.postBoth x).windows = s.windows := by
  rw [s.postBoth_only x]

@[simp] theorem State.postBoth_pool (s : State) (x : Notice) : (s.postBoth x).pool = s.pool := by
  rw [s.postBoth_only x]

@[simp] theorem State.postBoth_arbiter (s : State) (x : Notice) : (s.postBoth x).arbiter = s.arbiter := by
  rw [s.postBoth_only x]

@[simp] theorem State.postBoth_health (s : State) (x : Notice) : (s.postBoth x).health = s.health := by
  rw [s.postBoth_only x]

@[simp] theorem State.postBoth_nand (s : State) (x : Notice) : (s.postBoth x).nand = s.nand := by
  rw [s.postBoth_only x]

@[simp] theorem State.postBoth_retired (s : State) (x : Notice) : (s.postBoth x).retired = s.retired := by
  rw [s.postBoth_only x]

@[simp] theorem State.postBoth_sdram (s : State) (x : Notice) : (s.postBoth x).sdram = s.sdram := by
  rw [s.postBoth_only x]

@[simp] theorem State.postBoth_ecc (s : State) (x : Notice) : (s.postBoth x).ecc = s.ecc := by
  rw [s.postBoth_only x]

@[simp] theorem State.postBoth_startup (s : State) (x : Notice) : (s.postBoth x).startup = s.startup := by
  rw [s.postBoth_only x]

@[simp] theorem State.postBoth_bridgeReset (s : State) (x : Notice) : (s.postBoth x).bridgeReset = s.bridgeReset := by
  rw [s.postBoth_only x]

@[simp] theorem State.postBoth_fresh (s : State) (x : Notice) : (s.postBoth x).fresh = s.fresh := by
  rw [s.postBoth_only x]

@[simp] theorem State.postBoth_pending (s : State) (x : Notice) : (s.postBoth x).pending = s.pending := by
  rw [s.postBoth_only x]

/-- Only the port changes. -/
theorem State.pushReady_only (s : State) (p : Port) (i : Item) :
    s.pushReady p i = { s with ports := (s.pushReady p i).ports } := by
  rfl

@[simp] theorem State.pushReady_pins (s : State) (p : Port) (i : Item) : (s.pushReady p i).pins = s.pins := by
  rw [s.pushReady_only p i]

@[simp] theorem State.pushReady_straps (s : State) (p : Port) (i : Item) : (s.pushReady p i).straps = s.straps := by
  rw [s.pushReady_only p i]

@[simp] theorem State.pushReady_now (s : State) (p : Port) (i : Item) : (s.pushReady p i).now = s.now := by
  rw [s.pushReady_only p i]

@[simp] theorem State.pushReady_table (s : State) (p : Port) (i : Item) : (s.pushReady p i).table = s.table := by
  rw [s.pushReady_only p i]

@[simp] theorem State.pushReady_windows (s : State) (p : Port) (i : Item) : (s.pushReady p i).windows = s.windows := by
  rw [s.pushReady_only p i]

@[simp] theorem State.pushReady_pool (s : State) (p : Port) (i : Item) : (s.pushReady p i).pool = s.pool := by
  rw [s.pushReady_only p i]

@[simp] theorem State.pushReady_arbiter (s : State) (p : Port) (i : Item) : (s.pushReady p i).arbiter = s.arbiter := by
  rw [s.pushReady_only p i]

@[simp] theorem State.pushReady_health (s : State) (p : Port) (i : Item) : (s.pushReady p i).health = s.health := by
  rw [s.pushReady_only p i]

@[simp] theorem State.pushReady_nand (s : State) (p : Port) (i : Item) : (s.pushReady p i).nand = s.nand := by
  rw [s.pushReady_only p i]

@[simp] theorem State.pushReady_retired (s : State) (p : Port) (i : Item) : (s.pushReady p i).retired = s.retired := by
  rw [s.pushReady_only p i]

@[simp] theorem State.pushReady_sdram (s : State) (p : Port) (i : Item) : (s.pushReady p i).sdram = s.sdram := by
  rw [s.pushReady_only p i]

@[simp] theorem State.pushReady_ecc (s : State) (p : Port) (i : Item) : (s.pushReady p i).ecc = s.ecc := by
  rw [s.pushReady_only p i]

@[simp] theorem State.pushReady_notices (s : State) (p : Port) (i : Item) : (s.pushReady p i).notices = s.notices := by
  rw [s.pushReady_only p i]

@[simp] theorem State.pushReady_startup (s : State) (p : Port) (i : Item) : (s.pushReady p i).startup = s.startup := by
  rw [s.pushReady_only p i]

@[simp] theorem State.pushReady_bridgeReset (s : State) (p : Port) (i : Item) : (s.pushReady p i).bridgeReset = s.bridgeReset := by
  rw [s.pushReady_only p i]

@[simp] theorem State.pushReady_fresh (s : State) (p : Port) (i : Item) : (s.pushReady p i).fresh = s.fresh := by
  rw [s.pushReady_only p i]

@[simp] theorem State.pushReady_pending (s : State) (p : Port) (i : Item) : (s.pushReady p i).pending = s.pending := by
  rw [s.pushReady_only p i]

/-- Only the port changes. -/
theorem State.holdSlot_only (s : State) (p : Port) :
    s.holdSlot p = { s with ports := (s.holdSlot p).ports } := by
  rfl

@[simp] theorem State.holdSlot_pins (s : State) (p : Port) : (s.holdSlot p).pins = s.pins := by
  rw [s.holdSlot_only p]

@[simp] theorem State.holdSlot_straps (s : State) (p : Port) : (s.holdSlot p).straps = s.straps := by
  rw [s.holdSlot_only p]

@[simp] theorem State.holdSlot_now (s : State) (p : Port) : (s.holdSlot p).now = s.now := by
  rw [s.holdSlot_only p]

@[simp] theorem State.holdSlot_table (s : State) (p : Port) : (s.holdSlot p).table = s.table := by
  rw [s.holdSlot_only p]

@[simp] theorem State.holdSlot_windows (s : State) (p : Port) : (s.holdSlot p).windows = s.windows := by
  rw [s.holdSlot_only p]

@[simp] theorem State.holdSlot_pool (s : State) (p : Port) : (s.holdSlot p).pool = s.pool := by
  rw [s.holdSlot_only p]

@[simp] theorem State.holdSlot_arbiter (s : State) (p : Port) : (s.holdSlot p).arbiter = s.arbiter := by
  rw [s.holdSlot_only p]

@[simp] theorem State.holdSlot_health (s : State) (p : Port) : (s.holdSlot p).health = s.health := by
  rw [s.holdSlot_only p]

@[simp] theorem State.holdSlot_nand (s : State) (p : Port) : (s.holdSlot p).nand = s.nand := by
  rw [s.holdSlot_only p]

@[simp] theorem State.holdSlot_retired (s : State) (p : Port) : (s.holdSlot p).retired = s.retired := by
  rw [s.holdSlot_only p]

@[simp] theorem State.holdSlot_sdram (s : State) (p : Port) : (s.holdSlot p).sdram = s.sdram := by
  rw [s.holdSlot_only p]

@[simp] theorem State.holdSlot_ecc (s : State) (p : Port) : (s.holdSlot p).ecc = s.ecc := by
  rw [s.holdSlot_only p]

@[simp] theorem State.holdSlot_notices (s : State) (p : Port) : (s.holdSlot p).notices = s.notices := by
  rw [s.holdSlot_only p]

@[simp] theorem State.holdSlot_startup (s : State) (p : Port) : (s.holdSlot p).startup = s.startup := by
  rw [s.holdSlot_only p]

@[simp] theorem State.holdSlot_bridgeReset (s : State) (p : Port) : (s.holdSlot p).bridgeReset = s.bridgeReset := by
  rw [s.holdSlot_only p]

@[simp] theorem State.holdSlot_fresh (s : State) (p : Port) : (s.holdSlot p).fresh = s.fresh := by
  rw [s.holdSlot_only p]

@[simp] theorem State.holdSlot_pending (s : State) (p : Port) : (s.holdSlot p).pending = s.pending := by
  rw [s.holdSlot_only p]

/-- Only the port changes. -/
theorem State.answer_only (s : State) (p : Port) (i : Item) :
    s.answer p i = { s with ports := (s.answer p i).ports } := by
  rfl

@[simp] theorem State.answer_pins (s : State) (p : Port) (i : Item) : (s.answer p i).pins = s.pins := by
  rw [s.answer_only p i]

@[simp] theorem State.answer_straps (s : State) (p : Port) (i : Item) : (s.answer p i).straps = s.straps := by
  rw [s.answer_only p i]

@[simp] theorem State.answer_now (s : State) (p : Port) (i : Item) : (s.answer p i).now = s.now := by
  rw [s.answer_only p i]

@[simp] theorem State.answer_table (s : State) (p : Port) (i : Item) : (s.answer p i).table = s.table := by
  rw [s.answer_only p i]

@[simp] theorem State.answer_windows (s : State) (p : Port) (i : Item) : (s.answer p i).windows = s.windows := by
  rw [s.answer_only p i]

@[simp] theorem State.answer_pool (s : State) (p : Port) (i : Item) : (s.answer p i).pool = s.pool := by
  rw [s.answer_only p i]

@[simp] theorem State.answer_arbiter (s : State) (p : Port) (i : Item) : (s.answer p i).arbiter = s.arbiter := by
  rw [s.answer_only p i]

@[simp] theorem State.answer_health (s : State) (p : Port) (i : Item) : (s.answer p i).health = s.health := by
  rw [s.answer_only p i]

@[simp] theorem State.answer_nand (s : State) (p : Port) (i : Item) : (s.answer p i).nand = s.nand := by
  rw [s.answer_only p i]

@[simp] theorem State.answer_retired (s : State) (p : Port) (i : Item) : (s.answer p i).retired = s.retired := by
  rw [s.answer_only p i]

@[simp] theorem State.answer_sdram (s : State) (p : Port) (i : Item) : (s.answer p i).sdram = s.sdram := by
  rw [s.answer_only p i]

@[simp] theorem State.answer_ecc (s : State) (p : Port) (i : Item) : (s.answer p i).ecc = s.ecc := by
  rw [s.answer_only p i]

@[simp] theorem State.answer_notices (s : State) (p : Port) (i : Item) : (s.answer p i).notices = s.notices := by
  rw [s.answer_only p i]

@[simp] theorem State.answer_startup (s : State) (p : Port) (i : Item) : (s.answer p i).startup = s.startup := by
  rw [s.answer_only p i]

@[simp] theorem State.answer_bridgeReset (s : State) (p : Port) (i : Item) : (s.answer p i).bridgeReset = s.bridgeReset := by
  rw [s.answer_only p i]

@[simp] theorem State.answer_fresh (s : State) (p : Port) (i : Item) : (s.answer p i).fresh = s.fresh := by
  rw [s.answer_only p i]

@[simp] theorem State.answer_pending (s : State) (p : Port) (i : Item) : (s.answer p i).pending = s.pending := by
  rw [s.answer_only p i]

/-- Only the port and its notices change. -/
theorem State.overrun_only (s : State) (p : Port) :
    s.overrun p = { s with ports := (s.overrun p).ports, notices := (s.overrun p).notices } := by
  unfold State.overrun
  rw [State.post_only]; rfl

@[simp] theorem State.overrun_pins (s : State) (p : Port) : (s.overrun p).pins = s.pins := by
  rw [s.overrun_only p]

@[simp] theorem State.overrun_straps (s : State) (p : Port) : (s.overrun p).straps = s.straps := by
  rw [s.overrun_only p]

@[simp] theorem State.overrun_now (s : State) (p : Port) : (s.overrun p).now = s.now := by
  rw [s.overrun_only p]

@[simp] theorem State.overrun_table (s : State) (p : Port) : (s.overrun p).table = s.table := by
  rw [s.overrun_only p]

@[simp] theorem State.overrun_windows (s : State) (p : Port) : (s.overrun p).windows = s.windows := by
  rw [s.overrun_only p]

@[simp] theorem State.overrun_pool (s : State) (p : Port) : (s.overrun p).pool = s.pool := by
  rw [s.overrun_only p]

@[simp] theorem State.overrun_arbiter (s : State) (p : Port) : (s.overrun p).arbiter = s.arbiter := by
  rw [s.overrun_only p]

@[simp] theorem State.overrun_health (s : State) (p : Port) : (s.overrun p).health = s.health := by
  rw [s.overrun_only p]

@[simp] theorem State.overrun_nand (s : State) (p : Port) : (s.overrun p).nand = s.nand := by
  rw [s.overrun_only p]

@[simp] theorem State.overrun_retired (s : State) (p : Port) : (s.overrun p).retired = s.retired := by
  rw [s.overrun_only p]

@[simp] theorem State.overrun_sdram (s : State) (p : Port) : (s.overrun p).sdram = s.sdram := by
  rw [s.overrun_only p]

@[simp] theorem State.overrun_ecc (s : State) (p : Port) : (s.overrun p).ecc = s.ecc := by
  rw [s.overrun_only p]

@[simp] theorem State.overrun_startup (s : State) (p : Port) : (s.overrun p).startup = s.startup := by
  rw [s.overrun_only p]

@[simp] theorem State.overrun_bridgeReset (s : State) (p : Port) : (s.overrun p).bridgeReset = s.bridgeReset := by
  rw [s.overrun_only p]

@[simp] theorem State.overrun_fresh (s : State) (p : Port) : (s.overrun p).fresh = s.fresh := by
  rw [s.overrun_only p]

@[simp] theorem State.overrun_pending (s : State) (p : Port) : (s.overrun p).pending = s.pending := by
  rw [s.overrun_only p]

/-- Only the port and its notices change. -/
theorem State.slotAnswer_only (s : State) (p : Port) (i : Item) :
    s.slotAnswer p i = { s with ports := (s.slotAnswer p i).ports, notices := (s.slotAnswer p i).notices } := by
  unfold State.slotAnswer; split
  · rfl
  · rw [State.overrun_only]

@[simp] theorem State.slotAnswer_pins (s : State) (p : Port) (i : Item) : (s.slotAnswer p i).pins = s.pins := by
  rw [s.slotAnswer_only p i]

@[simp] theorem State.slotAnswer_straps (s : State) (p : Port) (i : Item) : (s.slotAnswer p i).straps = s.straps := by
  rw [s.slotAnswer_only p i]

@[simp] theorem State.slotAnswer_now (s : State) (p : Port) (i : Item) : (s.slotAnswer p i).now = s.now := by
  rw [s.slotAnswer_only p i]

@[simp] theorem State.slotAnswer_table (s : State) (p : Port) (i : Item) : (s.slotAnswer p i).table = s.table := by
  rw [s.slotAnswer_only p i]

@[simp] theorem State.slotAnswer_windows (s : State) (p : Port) (i : Item) : (s.slotAnswer p i).windows = s.windows := by
  rw [s.slotAnswer_only p i]

@[simp] theorem State.slotAnswer_pool (s : State) (p : Port) (i : Item) : (s.slotAnswer p i).pool = s.pool := by
  rw [s.slotAnswer_only p i]

@[simp] theorem State.slotAnswer_arbiter (s : State) (p : Port) (i : Item) : (s.slotAnswer p i).arbiter = s.arbiter := by
  rw [s.slotAnswer_only p i]

@[simp] theorem State.slotAnswer_health (s : State) (p : Port) (i : Item) : (s.slotAnswer p i).health = s.health := by
  rw [s.slotAnswer_only p i]

@[simp] theorem State.slotAnswer_nand (s : State) (p : Port) (i : Item) : (s.slotAnswer p i).nand = s.nand := by
  rw [s.slotAnswer_only p i]

@[simp] theorem State.slotAnswer_retired (s : State) (p : Port) (i : Item) : (s.slotAnswer p i).retired = s.retired := by
  rw [s.slotAnswer_only p i]

@[simp] theorem State.slotAnswer_sdram (s : State) (p : Port) (i : Item) : (s.slotAnswer p i).sdram = s.sdram := by
  rw [s.slotAnswer_only p i]

@[simp] theorem State.slotAnswer_ecc (s : State) (p : Port) (i : Item) : (s.slotAnswer p i).ecc = s.ecc := by
  rw [s.slotAnswer_only p i]

@[simp] theorem State.slotAnswer_startup (s : State) (p : Port) (i : Item) : (s.slotAnswer p i).startup = s.startup := by
  rw [s.slotAnswer_only p i]

@[simp] theorem State.slotAnswer_bridgeReset (s : State) (p : Port) (i : Item) : (s.slotAnswer p i).bridgeReset = s.bridgeReset := by
  rw [s.slotAnswer_only p i]

@[simp] theorem State.slotAnswer_fresh (s : State) (p : Port) (i : Item) : (s.slotAnswer p i).fresh = s.fresh := by
  rw [s.slotAnswer_only p i]

@[simp] theorem State.slotAnswer_pending (s : State) (p : Port) (i : Item) : (s.slotAnswer p i).pending = s.pending := by
  rw [s.slotAnswer_only p i]

/-- Only the port changes. -/
theorem State.reply_only (s : State) (p : Port) (token : Byte) (k : CtrlKind) (st : Status) (d : List Byte) :
    s.reply p token k st d = { s with ports := (s.reply p token k st d).ports } := by
  rfl

@[simp] theorem State.reply_pins (s : State) (p : Port) (token : Byte) (k : CtrlKind) (st : Status) (d : List Byte) : (s.reply p token k st d).pins = s.pins := by
  rw [s.reply_only p token k st d]

@[simp] theorem State.reply_straps (s : State) (p : Port) (token : Byte) (k : CtrlKind) (st : Status) (d : List Byte) : (s.reply p token k st d).straps = s.straps := by
  rw [s.reply_only p token k st d]

@[simp] theorem State.reply_now (s : State) (p : Port) (token : Byte) (k : CtrlKind) (st : Status) (d : List Byte) : (s.reply p token k st d).now = s.now := by
  rw [s.reply_only p token k st d]

@[simp] theorem State.reply_table (s : State) (p : Port) (token : Byte) (k : CtrlKind) (st : Status) (d : List Byte) : (s.reply p token k st d).table = s.table := by
  rw [s.reply_only p token k st d]

@[simp] theorem State.reply_windows (s : State) (p : Port) (token : Byte) (k : CtrlKind) (st : Status) (d : List Byte) : (s.reply p token k st d).windows = s.windows := by
  rw [s.reply_only p token k st d]

@[simp] theorem State.reply_pool (s : State) (p : Port) (token : Byte) (k : CtrlKind) (st : Status) (d : List Byte) : (s.reply p token k st d).pool = s.pool := by
  rw [s.reply_only p token k st d]

@[simp] theorem State.reply_arbiter (s : State) (p : Port) (token : Byte) (k : CtrlKind) (st : Status) (d : List Byte) : (s.reply p token k st d).arbiter = s.arbiter := by
  rw [s.reply_only p token k st d]

@[simp] theorem State.reply_health (s : State) (p : Port) (token : Byte) (k : CtrlKind) (st : Status) (d : List Byte) : (s.reply p token k st d).health = s.health := by
  rw [s.reply_only p token k st d]

@[simp] theorem State.reply_nand (s : State) (p : Port) (token : Byte) (k : CtrlKind) (st : Status) (d : List Byte) : (s.reply p token k st d).nand = s.nand := by
  rw [s.reply_only p token k st d]

@[simp] theorem State.reply_retired (s : State) (p : Port) (token : Byte) (k : CtrlKind) (st : Status) (d : List Byte) : (s.reply p token k st d).retired = s.retired := by
  rw [s.reply_only p token k st d]

@[simp] theorem State.reply_sdram (s : State) (p : Port) (token : Byte) (k : CtrlKind) (st : Status) (d : List Byte) : (s.reply p token k st d).sdram = s.sdram := by
  rw [s.reply_only p token k st d]

@[simp] theorem State.reply_ecc (s : State) (p : Port) (token : Byte) (k : CtrlKind) (st : Status) (d : List Byte) : (s.reply p token k st d).ecc = s.ecc := by
  rw [s.reply_only p token k st d]

@[simp] theorem State.reply_notices (s : State) (p : Port) (token : Byte) (k : CtrlKind) (st : Status) (d : List Byte) : (s.reply p token k st d).notices = s.notices := by
  rw [s.reply_only p token k st d]

@[simp] theorem State.reply_startup (s : State) (p : Port) (token : Byte) (k : CtrlKind) (st : Status) (d : List Byte) : (s.reply p token k st d).startup = s.startup := by
  rw [s.reply_only p token k st d]

@[simp] theorem State.reply_bridgeReset (s : State) (p : Port) (token : Byte) (k : CtrlKind) (st : Status) (d : List Byte) : (s.reply p token k st d).bridgeReset = s.bridgeReset := by
  rw [s.reply_only p token k st d]

@[simp] theorem State.reply_fresh (s : State) (p : Port) (token : Byte) (k : CtrlKind) (st : Status) (d : List Byte) : (s.reply p token k st d).fresh = s.fresh := by
  rw [s.reply_only p token k st d]

@[simp] theorem State.reply_pending (s : State) (p : Port) (token : Byte) (k : CtrlKind) (st : Status) (d : List Byte) : (s.reply p token k st d).pending = s.pending := by
  rw [s.reply_only p token k st d]

/-- Only the port changes. -/
theorem State.deferredReply_only (s : State) (x : Option Deferred) (k : CtrlKind) (st : Status) (d : List Byte) :
    s.deferredReply x k st d = { s with ports := (s.deferredReply x k st d).ports } := by
  cases x <;> rfl

@[simp] theorem State.deferredReply_pins (s : State) (x : Option Deferred) (k : CtrlKind) (st : Status) (d : List Byte) : (s.deferredReply x k st d).pins = s.pins := by
  rw [s.deferredReply_only x k st d]

@[simp] theorem State.deferredReply_straps (s : State) (x : Option Deferred) (k : CtrlKind) (st : Status) (d : List Byte) : (s.deferredReply x k st d).straps = s.straps := by
  rw [s.deferredReply_only x k st d]

@[simp] theorem State.deferredReply_now (s : State) (x : Option Deferred) (k : CtrlKind) (st : Status) (d : List Byte) : (s.deferredReply x k st d).now = s.now := by
  rw [s.deferredReply_only x k st d]

@[simp] theorem State.deferredReply_table (s : State) (x : Option Deferred) (k : CtrlKind) (st : Status) (d : List Byte) : (s.deferredReply x k st d).table = s.table := by
  rw [s.deferredReply_only x k st d]

@[simp] theorem State.deferredReply_windows (s : State) (x : Option Deferred) (k : CtrlKind) (st : Status) (d : List Byte) : (s.deferredReply x k st d).windows = s.windows := by
  rw [s.deferredReply_only x k st d]

@[simp] theorem State.deferredReply_pool (s : State) (x : Option Deferred) (k : CtrlKind) (st : Status) (d : List Byte) : (s.deferredReply x k st d).pool = s.pool := by
  rw [s.deferredReply_only x k st d]

@[simp] theorem State.deferredReply_arbiter (s : State) (x : Option Deferred) (k : CtrlKind) (st : Status) (d : List Byte) : (s.deferredReply x k st d).arbiter = s.arbiter := by
  rw [s.deferredReply_only x k st d]

@[simp] theorem State.deferredReply_health (s : State) (x : Option Deferred) (k : CtrlKind) (st : Status) (d : List Byte) : (s.deferredReply x k st d).health = s.health := by
  rw [s.deferredReply_only x k st d]

@[simp] theorem State.deferredReply_nand (s : State) (x : Option Deferred) (k : CtrlKind) (st : Status) (d : List Byte) : (s.deferredReply x k st d).nand = s.nand := by
  rw [s.deferredReply_only x k st d]

@[simp] theorem State.deferredReply_retired (s : State) (x : Option Deferred) (k : CtrlKind) (st : Status) (d : List Byte) : (s.deferredReply x k st d).retired = s.retired := by
  rw [s.deferredReply_only x k st d]

@[simp] theorem State.deferredReply_sdram (s : State) (x : Option Deferred) (k : CtrlKind) (st : Status) (d : List Byte) : (s.deferredReply x k st d).sdram = s.sdram := by
  rw [s.deferredReply_only x k st d]

@[simp] theorem State.deferredReply_ecc (s : State) (x : Option Deferred) (k : CtrlKind) (st : Status) (d : List Byte) : (s.deferredReply x k st d).ecc = s.ecc := by
  rw [s.deferredReply_only x k st d]

@[simp] theorem State.deferredReply_notices (s : State) (x : Option Deferred) (k : CtrlKind) (st : Status) (d : List Byte) : (s.deferredReply x k st d).notices = s.notices := by
  rw [s.deferredReply_only x k st d]

@[simp] theorem State.deferredReply_startup (s : State) (x : Option Deferred) (k : CtrlKind) (st : Status) (d : List Byte) : (s.deferredReply x k st d).startup = s.startup := by
  rw [s.deferredReply_only x k st d]

@[simp] theorem State.deferredReply_bridgeReset (s : State) (x : Option Deferred) (k : CtrlKind) (st : Status) (d : List Byte) : (s.deferredReply x k st d).bridgeReset = s.bridgeReset := by
  rw [s.deferredReply_only x k st d]

@[simp] theorem State.deferredReply_fresh (s : State) (x : Option Deferred) (k : CtrlKind) (st : Status) (d : List Byte) : (s.deferredReply x k st d).fresh = s.fresh := by
  rw [s.deferredReply_only x k st d]

@[simp] theorem State.deferredReply_pending (s : State) (x : Option Deferred) (k : CtrlKind) (st : Status) (d : List Byte) : (s.deferredReply x k st d).pending = s.pending := by
  rw [s.deferredReply_only x k st d]

end Sys2Proof.Machine
end

