-- ==== Sys2Proof/Laws/Table.lean ====
section
/-! SUPPORT. What completion, joining, fence evaluation, head examination and the flush change, and that they change nothing else. -/
namespace Sys2Proof.Machine

/-- Only the table, the pool and the entry's port change. -/
theorem State.finish_only (s : State) (r : Ref) (st : Status) :
    s.finish r st = { s with ports := (s.finish r st).ports, table := (s.finish r st).table, pool := (s.finish r st).pool } := by
  unfold State.finish
  split
  · rfl
  · split
    · rw [State.freeEntry_only]
    · simp only [State.pushReady, State.setPort, State.updateEntry, State.setEntries]
      split
      · rw [State.releaseSegments_only]
      · rfl

@[simp] theorem State.finish_pins (s : State) (r : Ref) (st : Status) : (s.finish r st).pins = s.pins := by
  rw [s.finish_only r st]

@[simp] theorem State.finish_straps (s : State) (r : Ref) (st : Status) : (s.finish r st).straps = s.straps := by
  rw [s.finish_only r st]

@[simp] theorem State.finish_now (s : State) (r : Ref) (st : Status) : (s.finish r st).now = s.now := by
  rw [s.finish_only r st]

@[simp] theorem State.finish_windows (s : State) (r : Ref) (st : Status) : (s.finish r st).windows = s.windows := by
  rw [s.finish_only r st]

@[simp] theorem State.finish_arbiter (s : State) (r : Ref) (st : Status) : (s.finish r st).arbiter = s.arbiter := by
  rw [s.finish_only r st]

@[simp] theorem State.finish_health (s : State) (r : Ref) (st : Status) : (s.finish r st).health = s.health := by
  rw [s.finish_only r st]

@[simp] theorem State.finish_nand (s : State) (r : Ref) (st : Status) : (s.finish r st).nand = s.nand := by
  rw [s.finish_only r st]

@[simp] theorem State.finish_retired (s : State) (r : Ref) (st : Status) : (s.finish r st).retired = s.retired := by
  rw [s.finish_only r st]

@[simp] theorem State.finish_sdram (s : State) (r : Ref) (st : Status) : (s.finish r st).sdram = s.sdram := by
  rw [s.finish_only r st]

@[simp] theorem State.finish_ecc (s : State) (r : Ref) (st : Status) : (s.finish r st).ecc = s.ecc := by
  rw [s.finish_only r st]

@[simp] theorem State.finish_notices (s : State) (r : Ref) (st : Status) : (s.finish r st).notices = s.notices := by
  rw [s.finish_only r st]

@[simp] theorem State.finish_startup (s : State) (r : Ref) (st : Status) : (s.finish r st).startup = s.startup := by
  rw [s.finish_only r st]

@[simp] theorem State.finish_bridgeReset (s : State) (r : Ref) (st : Status) : (s.finish r st).bridgeReset = s.bridgeReset := by
  rw [s.finish_only r st]

@[simp] theorem State.finish_fresh (s : State) (r : Ref) (st : Status) : (s.finish r st).fresh = s.fresh := by
  rw [s.finish_only r st]

@[simp] theorem State.finish_pending (s : State) (r : Ref) (st : Status) : (s.finish r st).pending = s.pending := by
  rw [s.finish_only r st]

/-- Only the table, the pool, the queues and the entry's port change. -/
theorem State.retireHead_only (s : State) (c : Chip) (r : Ref) :
    s.retireHead c r = { s with ports := (s.retireHead c r).ports, table := (s.retireHead c r).table, pool := (s.retireHead c r).pool, arbiter := (s.retireHead c r).arbiter } := by
  unfold State.retireHead
  rw [State.finish_only, State.dequeue_only]

@[simp] theorem State.retireHead_pins (s : State) (c : Chip) (r : Ref) : (s.retireHead c r).pins = s.pins := by
  rw [s.retireHead_only c r]

@[simp] theorem State.retireHead_straps (s : State) (c : Chip) (r : Ref) : (s.retireHead c r).straps = s.straps := by
  rw [s.retireHead_only c r]

@[simp] theorem State.retireHead_now (s : State) (c : Chip) (r : Ref) : (s.retireHead c r).now = s.now := by
  rw [s.retireHead_only c r]

@[simp] theorem State.retireHead_windows (s : State) (c : Chip) (r : Ref) : (s.retireHead c r).windows = s.windows := by
  rw [s.retireHead_only c r]

@[simp] theorem State.retireHead_health (s : State) (c : Chip) (r : Ref) : (s.retireHead c r).health = s.health := by
  rw [s.retireHead_only c r]

@[simp] theorem State.retireHead_nand (s : State) (c : Chip) (r : Ref) : (s.retireHead c r).nand = s.nand := by
  rw [s.retireHead_only c r]

@[simp] theorem State.retireHead_retired (s : State) (c : Chip) (r : Ref) : (s.retireHead c r).retired = s.retired := by
  rw [s.retireHead_only c r]

@[simp] theorem State.retireHead_sdram (s : State) (c : Chip) (r : Ref) : (s.retireHead c r).sdram = s.sdram := by
  rw [s.retireHead_only c r]

@[simp] theorem State.retireHead_ecc (s : State) (c : Chip) (r : Ref) : (s.retireHead c r).ecc = s.ecc := by
  rw [s.retireHead_only c r]

@[simp] theorem State.retireHead_notices (s : State) (c : Chip) (r : Ref) : (s.retireHead c r).notices = s.notices := by
  rw [s.retireHead_only c r]

@[simp] theorem State.retireHead_startup (s : State) (c : Chip) (r : Ref) : (s.retireHead c r).startup = s.startup := by
  rw [s.retireHead_only c r]

@[simp] theorem State.retireHead_bridgeReset (s : State) (c : Chip) (r : Ref) : (s.retireHead c r).bridgeReset = s.bridgeReset := by
  rw [s.retireHead_only c r]

@[simp] theorem State.retireHead_fresh (s : State) (c : Chip) (r : Ref) : (s.retireHead c r).fresh = s.fresh := by
  rw [s.retireHead_only c r]

@[simp] theorem State.retireHead_pending (s : State) (c : Chip) (r : Ref) : (s.retireHead c r).pending = s.pending := by
  rw [s.retireHead_only c r]

/-- Only the table, the pool, the queues, the SDRAM engine and the ports change. -/
theorem State.join_only (s : State) (r : Ref) (k : Slot) :
    s.join r k = { s with ports := (s.join r k).ports, table := (s.join r k).table, pool := (s.join r k).pool, arbiter := (s.join r k).arbiter, sdram := (s.join r k).sdram } := by
  unfold State.join
  cases k with
  | sd => rfl
  | chip c =>
    dsimp only
    split
    · rw [State.retireHead_only]
      rfl
    · rfl

@[simp] theorem State.join_pins (s : State) (r : Ref) (k : Slot) : (s.join r k).pins = s.pins := by
  rw [s.join_only r k]

@[simp] theorem State.join_straps (s : State) (r : Ref) (k : Slot) : (s.join r k).straps = s.straps := by
  rw [s.join_only r k]

@[simp] theorem State.join_now (s : State) (r : Ref) (k : Slot) : (s.join r k).now = s.now := by
  rw [s.join_only r k]

@[simp] theorem State.join_windows (s : State) (r : Ref) (k : Slot) : (s.join r k).windows = s.windows := by
  rw [s.join_only r k]

@[simp] theorem State.join_health (s : State) (r : Ref) (k : Slot) : (s.join r k).health = s.health := by
  rw [s.join_only r k]

@[simp] theorem State.join_nand (s : State) (r : Ref) (k : Slot) : (s.join r k).nand = s.nand := by
  rw [s.join_only r k]

@[simp] theorem State.join_retired (s : State) (r : Ref) (k : Slot) : (s.join r k).retired = s.retired := by
  rw [s.join_only r k]

@[simp] theorem State.join_ecc (s : State) (r : Ref) (k : Slot) : (s.join r k).ecc = s.ecc := by
  rw [s.join_only r k]

@[simp] theorem State.join_notices (s : State) (r : Ref) (k : Slot) : (s.join r k).notices = s.notices := by
  rw [s.join_only r k]

@[simp] theorem State.join_startup (s : State) (r : Ref) (k : Slot) : (s.join r k).startup = s.startup := by
  rw [s.join_only r k]

@[simp] theorem State.join_bridgeReset (s : State) (r : Ref) (k : Slot) : (s.join r k).bridgeReset = s.bridgeReset := by
  rw [s.join_only r k]

@[simp] theorem State.join_fresh (s : State) (r : Ref) (k : Slot) : (s.join r k).fresh = s.fresh := by
  rw [s.join_only r k]

@[simp] theorem State.join_pending (s : State) (r : Ref) (k : Slot) : (s.join r k).pending = s.pending := by
  rw [s.join_only r k]

/-- As for a join. -/
theorem State.releaseHeld_only (s : State) (p : Port) (e : Entry) :
    s.releaseHeld p e = { s with ports := (s.releaseHeld p e).ports, table := (s.releaseHeld p e).table, pool := (s.releaseHeld p e).pool, arbiter := (s.releaseHeld p e).arbiter, sdram := (s.releaseHeld p e).sdram } := by
  unfold State.releaseHeld; split
  · rw [State.join_only]
  · rw [State.finish_only]

@[simp] theorem State.releaseHeld_pins (s : State) (p : Port) (e : Entry) : (s.releaseHeld p e).pins = s.pins := by
  rw [s.releaseHeld_only p e]

@[simp] theorem State.releaseHeld_straps (s : State) (p : Port) (e : Entry) : (s.releaseHeld p e).straps = s.straps := by
  rw [s.releaseHeld_only p e]

@[simp] theorem State.releaseHeld_now (s : State) (p : Port) (e : Entry) : (s.releaseHeld p e).now = s.now := by
  rw [s.releaseHeld_only p e]

@[simp] theorem State.releaseHeld_windows (s : State) (p : Port) (e : Entry) : (s.releaseHeld p e).windows = s.windows := by
  rw [s.releaseHeld_only p e]

@[simp] theorem State.releaseHeld_health (s : State) (p : Port) (e : Entry) : (s.releaseHeld p e).health = s.health := by
  rw [s.releaseHeld_only p e]

@[simp] theorem State.releaseHeld_nand (s : State) (p : Port) (e : Entry) : (s.releaseHeld p e).nand = s.nand := by
  rw [s.releaseHeld_only p e]

@[simp] theorem State.releaseHeld_retired (s : State) (p : Port) (e : Entry) : (s.releaseHeld p e).retired = s.retired := by
  rw [s.releaseHeld_only p e]

@[simp] theorem State.releaseHeld_ecc (s : State) (p : Port) (e : Entry) : (s.releaseHeld p e).ecc = s.ecc := by
  rw [s.releaseHeld_only p e]

@[simp] theorem State.releaseHeld_notices (s : State) (p : Port) (e : Entry) : (s.releaseHeld p e).notices = s.notices := by
  rw [s.releaseHeld_only p e]

@[simp] theorem State.releaseHeld_startup (s : State) (p : Port) (e : Entry) : (s.releaseHeld p e).startup = s.startup := by
  rw [s.releaseHeld_only p e]

@[simp] theorem State.releaseHeld_bridgeReset (s : State) (p : Port) (e : Entry) : (s.releaseHeld p e).bridgeReset = s.bridgeReset := by
  rw [s.releaseHeld_only p e]

@[simp] theorem State.releaseHeld_fresh (s : State) (p : Port) (e : Entry) : (s.releaseHeld p e).fresh = s.fresh := by
  rw [s.releaseHeld_only p e]

@[simp] theorem State.releaseHeld_pending (s : State) (p : Port) (e : Entry) : (s.releaseHeld p e).pending = s.pending := by
  rw [s.releaseHeld_only p e]

/-- As for a join. -/
theorem State.evalFencesFuel_only (s : State) (n : Nat) (p : Port) :
    State.evalFencesFuel n s p = { s with ports := (State.evalFencesFuel n s p).ports, table := (State.evalFencesFuel n s p).table, pool := (State.evalFencesFuel n s p).pool, arbiter := (State.evalFencesFuel n s p).arbiter, sdram := (State.evalFencesFuel n s p).sdram } := by
  induction n generalizing s with
  | zero => rfl
  | succ n ih =>
    unfold State.evalFencesFuel
    split
    · rw [ih, State.releaseHeld_only]
    · rfl

@[simp] theorem State.evalFencesFuel_pins (s : State) (n : Nat) (p : Port) : (State.evalFencesFuel n s p).pins = s.pins := by
  rw [s.evalFencesFuel_only n p]

@[simp] theorem State.evalFencesFuel_straps (s : State) (n : Nat) (p : Port) : (State.evalFencesFuel n s p).straps = s.straps := by
  rw [s.evalFencesFuel_only n p]

@[simp] theorem State.evalFencesFuel_now (s : State) (n : Nat) (p : Port) : (State.evalFencesFuel n s p).now = s.now := by
  rw [s.evalFencesFuel_only n p]

@[simp] theorem State.evalFencesFuel_windows (s : State) (n : Nat) (p : Port) : (State.evalFencesFuel n s p).windows = s.windows := by
  rw [s.evalFencesFuel_only n p]

@[simp] theorem State.evalFencesFuel_health (s : State) (n : Nat) (p : Port) : (State.evalFencesFuel n s p).health = s.health := by
  rw [s.evalFencesFuel_only n p]

@[simp] theorem State.evalFencesFuel_nand (s : State) (n : Nat) (p : Port) : (State.evalFencesFuel n s p).nand = s.nand := by
  rw [s.evalFencesFuel_only n p]

@[simp] theorem State.evalFencesFuel_retired (s : State) (n : Nat) (p : Port) : (State.evalFencesFuel n s p).retired = s.retired := by
  rw [s.evalFencesFuel_only n p]

@[simp] theorem State.evalFencesFuel_ecc (s : State) (n : Nat) (p : Port) : (State.evalFencesFuel n s p).ecc = s.ecc := by
  rw [s.evalFencesFuel_only n p]

@[simp] theorem State.evalFencesFuel_notices (s : State) (n : Nat) (p : Port) : (State.evalFencesFuel n s p).notices = s.notices := by
  rw [s.evalFencesFuel_only n p]

@[simp] theorem State.evalFencesFuel_startup (s : State) (n : Nat) (p : Port) : (State.evalFencesFuel n s p).startup = s.startup := by
  rw [s.evalFencesFuel_only n p]

@[simp] theorem State.evalFencesFuel_bridgeReset (s : State) (n : Nat) (p : Port) : (State.evalFencesFuel n s p).bridgeReset = s.bridgeReset := by
  rw [s.evalFencesFuel_only n p]

@[simp] theorem State.evalFencesFuel_fresh (s : State) (n : Nat) (p : Port) : (State.evalFencesFuel n s p).fresh = s.fresh := by
  rw [s.evalFencesFuel_only n p]

@[simp] theorem State.evalFencesFuel_pending (s : State) (n : Nat) (p : Port) : (State.evalFencesFuel n s p).pending = s.pending := by
  rw [s.evalFencesFuel_only n p]

/-- As for a join. -/
theorem State.evalFences_only (s : State) (p : Port) :
    s.evalFences p = { s with ports := (s.evalFences p).ports, table := (s.evalFences p).table, pool := (s.evalFences p).pool, arbiter := (s.evalFences p).arbiter, sdram := (s.evalFences p).sdram } := by
  unfold State.evalFences
  rw [State.evalFencesFuel_only]

@[simp] theorem State.evalFences_pins (s : State) (p : Port) : (s.evalFences p).pins = s.pins := by
  rw [s.evalFences_only p]

@[simp] theorem State.evalFences_straps (s : State) (p : Port) : (s.evalFences p).straps = s.straps := by
  rw [s.evalFences_only p]

@[simp] theorem State.evalFences_now (s : State) (p : Port) : (s.evalFences p).now = s.now := by
  rw [s.evalFences_only p]

@[simp] theorem State.evalFences_windows (s : State) (p : Port) : (s.evalFences p).windows = s.windows := by
  rw [s.evalFences_only p]

@[simp] theorem State.evalFences_health (s : State) (p : Port) : (s.evalFences p).health = s.health := by
  rw [s.evalFences_only p]

@[simp] theorem State.evalFences_nand (s : State) (p : Port) : (s.evalFences p).nand = s.nand := by
  rw [s.evalFences_only p]

@[simp] theorem State.evalFences_retired (s : State) (p : Port) : (s.evalFences p).retired = s.retired := by
  rw [s.evalFences_only p]

@[simp] theorem State.evalFences_ecc (s : State) (p : Port) : (s.evalFences p).ecc = s.ecc := by
  rw [s.evalFences_only p]

@[simp] theorem State.evalFences_notices (s : State) (p : Port) : (s.evalFences p).notices = s.notices := by
  rw [s.evalFences_only p]

@[simp] theorem State.evalFences_startup (s : State) (p : Port) : (s.evalFences p).startup = s.startup := by
  rw [s.evalFences_only p]

@[simp] theorem State.evalFences_bridgeReset (s : State) (p : Port) : (s.evalFences p).bridgeReset = s.bridgeReset := by
  rw [s.evalFences_only p]

@[simp] theorem State.evalFences_fresh (s : State) (p : Port) : (s.evalFences p).fresh = s.fresh := by
  rw [s.evalFences_only p]

@[simp] theorem State.evalFences_pending (s : State) (p : Port) : (s.evalFences p).pending = s.pending := by
  rw [s.evalFences_only p]

/-- As for a join. -/
theorem State.complete_only (s : State) (r : Ref) (st : Status) :
    s.complete r st = { s with ports := (s.complete r st).ports, table := (s.complete r st).table, pool := (s.complete r st).pool, arbiter := (s.complete r st).arbiter, sdram := (s.complete r st).sdram } := by
  unfold State.complete
  split
  · rfl
  · split
    · rw [State.finish_only]
    · rw [State.evalFences_only, State.finish_only]

@[simp] theorem State.complete_pins (s : State) (r : Ref) (st : Status) : (s.complete r st).pins = s.pins := by
  rw [s.complete_only r st]

@[simp] theorem State.complete_straps (s : State) (r : Ref) (st : Status) : (s.complete r st).straps = s.straps := by
  rw [s.complete_only r st]

@[simp] theorem State.complete_now (s : State) (r : Ref) (st : Status) : (s.complete r st).now = s.now := by
  rw [s.complete_only r st]

@[simp] theorem State.complete_windows (s : State) (r : Ref) (st : Status) : (s.complete r st).windows = s.windows := by
  rw [s.complete_only r st]

@[simp] theorem State.complete_health (s : State) (r : Ref) (st : Status) : (s.complete r st).health = s.health := by
  rw [s.complete_only r st]

@[simp] theorem State.complete_nand (s : State) (r : Ref) (st : Status) : (s.complete r st).nand = s.nand := by
  rw [s.complete_only r st]

@[simp] theorem State.complete_retired (s : State) (r : Ref) (st : Status) : (s.complete r st).retired = s.retired := by
  rw [s.complete_only r st]

@[simp] theorem State.complete_ecc (s : State) (r : Ref) (st : Status) : (s.complete r st).ecc = s.ecc := by
  rw [s.complete_only r st]

@[simp] theorem State.complete_notices (s : State) (r : Ref) (st : Status) : (s.complete r st).notices = s.notices := by
  rw [s.complete_only r st]

@[simp] theorem State.complete_startup (s : State) (r : Ref) (st : Status) : (s.complete r st).startup = s.startup := by
  rw [s.complete_only r st]

@[simp] theorem State.complete_bridgeReset (s : State) (r : Ref) (st : Status) : (s.complete r st).bridgeReset = s.bridgeReset := by
  rw [s.complete_only r st]

@[simp] theorem State.complete_fresh (s : State) (r : Ref) (st : Status) : (s.complete r st).fresh = s.fresh := by
  rw [s.complete_only r st]

@[simp] theorem State.complete_pending (s : State) (r : Ref) (st : Status) : (s.complete r st).pending = s.pending := by
  rw [s.complete_only r st]

/-- As for a join. -/
theorem State.examineFuel_only (s : State) (n : Nat) (c : Chip) :
    State.examineFuel n s c = { s with ports := (State.examineFuel n s c).ports, table := (State.examineFuel n s c).table, pool := (State.examineFuel n s c).pool, arbiter := (State.examineFuel n s c).arbiter, sdram := (State.examineFuel n s c).sdram } := by
  induction n generalizing s with
  | zero => rfl
  | succ n ih =>
    unfold State.examineFuel
    split
    · rw [ih, State.evalFences_only, State.retireHead_only]
    · rfl

@[simp] theorem State.examineFuel_pins (s : State) (n : Nat) (c : Chip) : (State.examineFuel n s c).pins = s.pins := by
  rw [s.examineFuel_only n c]

@[simp] theorem State.examineFuel_straps (s : State) (n : Nat) (c : Chip) : (State.examineFuel n s c).straps = s.straps := by
  rw [s.examineFuel_only n c]

@[simp] theorem State.examineFuel_now (s : State) (n : Nat) (c : Chip) : (State.examineFuel n s c).now = s.now := by
  rw [s.examineFuel_only n c]

@[simp] theorem State.examineFuel_windows (s : State) (n : Nat) (c : Chip) : (State.examineFuel n s c).windows = s.windows := by
  rw [s.examineFuel_only n c]

@[simp] theorem State.examineFuel_health (s : State) (n : Nat) (c : Chip) : (State.examineFuel n s c).health = s.health := by
  rw [s.examineFuel_only n c]

@[simp] theorem State.examineFuel_nand (s : State) (n : Nat) (c : Chip) : (State.examineFuel n s c).nand = s.nand := by
  rw [s.examineFuel_only n c]

@[simp] theorem State.examineFuel_retired (s : State) (n : Nat) (c : Chip) : (State.examineFuel n s c).retired = s.retired := by
  rw [s.examineFuel_only n c]

@[simp] theorem State.examineFuel_ecc (s : State) (n : Nat) (c : Chip) : (State.examineFuel n s c).ecc = s.ecc := by
  rw [s.examineFuel_only n c]

@[simp] theorem State.examineFuel_notices (s : State) (n : Nat) (c : Chip) : (State.examineFuel n s c).notices = s.notices := by
  rw [s.examineFuel_only n c]

@[simp] theorem State.examineFuel_startup (s : State) (n : Nat) (c : Chip) : (State.examineFuel n s c).startup = s.startup := by
  rw [s.examineFuel_only n c]

@[simp] theorem State.examineFuel_bridgeReset (s : State) (n : Nat) (c : Chip) : (State.examineFuel n s c).bridgeReset = s.bridgeReset := by
  rw [s.examineFuel_only n c]

@[simp] theorem State.examineFuel_fresh (s : State) (n : Nat) (c : Chip) : (State.examineFuel n s c).fresh = s.fresh := by
  rw [s.examineFuel_only n c]

@[simp] theorem State.examineFuel_pending (s : State) (n : Nat) (c : Chip) : (State.examineFuel n s c).pending = s.pending := by
  rw [s.examineFuel_only n c]

/-- As for a join. -/
theorem State.examine_only (s : State) (c : Chip) :
    s.examine c = { s with ports := (s.examine c).ports, table := (s.examine c).table, pool := (s.examine c).pool, arbiter := (s.examine c).arbiter, sdram := (s.examine c).sdram } := by
  unfold State.examine
  rw [State.examineFuel_only]

@[simp] theorem State.examine_pins (s : State) (c : Chip) : (s.examine c).pins = s.pins := by
  rw [s.examine_only c]

@[simp] theorem State.examine_straps (s : State) (c : Chip) : (s.examine c).straps = s.straps := by
  rw [s.examine_only c]

@[simp] theorem State.examine_now (s : State) (c : Chip) : (s.examine c).now = s.now := by
  rw [s.examine_only c]

@[simp] theorem State.examine_windows (s : State) (c : Chip) : (s.examine c).windows = s.windows := by
  rw [s.examine_only c]

@[simp] theorem State.examine_health (s : State) (c : Chip) : (s.examine c).health = s.health := by
  rw [s.examine_only c]

@[simp] theorem State.examine_nand (s : State) (c : Chip) : (s.examine c).nand = s.nand := by
  rw [s.examine_only c]

@[simp] theorem State.examine_retired (s : State) (c : Chip) : (s.examine c).retired = s.retired := by
  rw [s.examine_only c]

@[simp] theorem State.examine_ecc (s : State) (c : Chip) : (s.examine c).ecc = s.ecc := by
  rw [s.examine_only c]

@[simp] theorem State.examine_notices (s : State) (c : Chip) : (s.examine c).notices = s.notices := by
  rw [s.examine_only c]

@[simp] theorem State.examine_startup (s : State) (c : Chip) : (s.examine c).startup = s.startup := by
  rw [s.examine_only c]

@[simp] theorem State.examine_bridgeReset (s : State) (c : Chip) : (s.examine c).bridgeReset = s.bridgeReset := by
  rw [s.examine_only c]

@[simp] theorem State.examine_fresh (s : State) (c : Chip) : (s.examine c).fresh = s.fresh := by
  rw [s.examine_only c]

@[simp] theorem State.examine_pending (s : State) (c : Chip) : (s.examine c).pending = s.pending := by
  rw [s.examine_only c]

/-- As for a join. -/
theorem State.flushList_only (s : State) (k : Slot) (l : List Ref) :
    s.flushList k l = { s with ports := (s.flushList k l).ports, table := (s.flushList k l).table, pool := (s.flushList k l).pool, arbiter := (s.flushList k l).arbiter, sdram := (s.flushList k l).sdram } := by
  induction l generalizing s with
  | nil => rfl
  | cons r l ih =>
    unfold State.flushList
    rw [ih]
    split
    · rw [State.finish_only, State.dequeue_only]
    · rfl

@[simp] theorem State.flushList_pins (s : State) (k : Slot) (l : List Ref) : (s.flushList k l).pins = s.pins := by
  rw [s.flushList_only k l]

@[simp] theorem State.flushList_straps (s : State) (k : Slot) (l : List Ref) : (s.flushList k l).straps = s.straps := by
  rw [s.flushList_only k l]

@[simp] theorem State.flushList_now (s : State) (k : Slot) (l : List Ref) : (s.flushList k l).now = s.now := by
  rw [s.flushList_only k l]

@[simp] theorem State.flushList_windows (s : State) (k : Slot) (l : List Ref) : (s.flushList k l).windows = s.windows := by
  rw [s.flushList_only k l]

@[simp] theorem State.flushList_health (s : State) (k : Slot) (l : List Ref) : (s.flushList k l).health = s.health := by
  rw [s.flushList_only k l]

@[simp] theorem State.flushList_nand (s : State) (k : Slot) (l : List Ref) : (s.flushList k l).nand = s.nand := by
  rw [s.flushList_only k l]

@[simp] theorem State.flushList_retired (s : State) (k : Slot) (l : List Ref) : (s.flushList k l).retired = s.retired := by
  rw [s.flushList_only k l]

@[simp] theorem State.flushList_ecc (s : State) (k : Slot) (l : List Ref) : (s.flushList k l).ecc = s.ecc := by
  rw [s.flushList_only k l]

@[simp] theorem State.flushList_notices (s : State) (k : Slot) (l : List Ref) : (s.flushList k l).notices = s.notices := by
  rw [s.flushList_only k l]

@[simp] theorem State.flushList_startup (s : State) (k : Slot) (l : List Ref) : (s.flushList k l).startup = s.startup := by
  rw [s.flushList_only k l]

@[simp] theorem State.flushList_bridgeReset (s : State) (k : Slot) (l : List Ref) : (s.flushList k l).bridgeReset = s.bridgeReset := by
  rw [s.flushList_only k l]

@[simp] theorem State.flushList_fresh (s : State) (k : Slot) (l : List Ref) : (s.flushList k l).fresh = s.fresh := by
  rw [s.flushList_only k l]

@[simp] theorem State.flushList_pending (s : State) (k : Slot) (l : List Ref) : (s.flushList k l).pending = s.pending := by
  rw [s.flushList_only k l]

/-- As for a join. -/
theorem State.flush_only (s : State) (k : Slot) :
    s.flush k = { s with ports := (s.flush k).ports, table := (s.flush k).table, pool := (s.flush k).pool, arbiter := (s.flush k).arbiter, sdram := (s.flush k).sdram } := by
  unfold State.flush
  dsimp only
  split <;> split
  · rw [State.evalFences_only, State.evalFences_only, State.flushList_only]
  · rw [State.evalFences_only, State.flushList_only]
  · rw [State.evalFences_only, State.flushList_only]
  · rw [State.flushList_only]

@[simp] theorem State.flush_pins (s : State) (k : Slot) : (s.flush k).pins = s.pins := by
  rw [s.flush_only k]

@[simp] theorem State.flush_straps (s : State) (k : Slot) : (s.flush k).straps = s.straps := by
  rw [s.flush_only k]

@[simp] theorem State.flush_now (s : State) (k : Slot) : (s.flush k).now = s.now := by
  rw [s.flush_only k]

@[simp] theorem State.flush_windows (s : State) (k : Slot) : (s.flush k).windows = s.windows := by
  rw [s.flush_only k]

@[simp] theorem State.flush_health (s : State) (k : Slot) : (s.flush k).health = s.health := by
  rw [s.flush_only k]

@[simp] theorem State.flush_nand (s : State) (k : Slot) : (s.flush k).nand = s.nand := by
  rw [s.flush_only k]

@[simp] theorem State.flush_retired (s : State) (k : Slot) : (s.flush k).retired = s.retired := by
  rw [s.flush_only k]

@[simp] theorem State.flush_ecc (s : State) (k : Slot) : (s.flush k).ecc = s.ecc := by
  rw [s.flush_only k]

@[simp] theorem State.flush_notices (s : State) (k : Slot) : (s.flush k).notices = s.notices := by
  rw [s.flush_only k]

@[simp] theorem State.flush_startup (s : State) (k : Slot) : (s.flush k).startup = s.startup := by
  rw [s.flush_only k]

@[simp] theorem State.flush_bridgeReset (s : State) (k : Slot) : (s.flush k).bridgeReset = s.bridgeReset := by
  rw [s.flush_only k]

@[simp] theorem State.flush_fresh (s : State) (k : Slot) : (s.flush k).fresh = s.fresh := by
  rw [s.flush_only k]

@[simp] theorem State.flush_pending (s : State) (k : Slot) : (s.flush k).pending = s.pending := by
  rw [s.flush_only k]

end Sys2Proof.Machine
end

