-- ==== Sys2Proof/Laws/Settle.lean ====
section
/-! SUPPORT. What the transmitters' start, the grant and what follows every event change, and that they change nothing else. -/
namespace Sys2Proof.Machine

/-- Only the port changes: its transmitter and its transmit sequence. -/
theorem State.pump_only (s : State) (p : Port) :
    s.pump p = { s with ports := (s.pump p).ports } := by
  unfold State.pump; dsimp only; split <;> rfl

@[simp] theorem State.pump_pins (s : State) (p : Port) : (s.pump p).pins = s.pins := by
  rw [s.pump_only p]

@[simp] theorem State.pump_straps (s : State) (p : Port) : (s.pump p).straps = s.straps := by
  rw [s.pump_only p]

@[simp] theorem State.pump_now (s : State) (p : Port) : (s.pump p).now = s.now := by
  rw [s.pump_only p]

@[simp] theorem State.pump_table (s : State) (p : Port) : (s.pump p).table = s.table := by
  rw [s.pump_only p]

@[simp] theorem State.pump_windows (s : State) (p : Port) : (s.pump p).windows = s.windows := by
  rw [s.pump_only p]

@[simp] theorem State.pump_pool (s : State) (p : Port) : (s.pump p).pool = s.pool := by
  rw [s.pump_only p]

@[simp] theorem State.pump_arbiter (s : State) (p : Port) : (s.pump p).arbiter = s.arbiter := by
  rw [s.pump_only p]

@[simp] theorem State.pump_health (s : State) (p : Port) : (s.pump p).health = s.health := by
  rw [s.pump_only p]

@[simp] theorem State.pump_nand (s : State) (p : Port) : (s.pump p).nand = s.nand := by
  rw [s.pump_only p]

@[simp] theorem State.pump_retired (s : State) (p : Port) : (s.pump p).retired = s.retired := by
  rw [s.pump_only p]

@[simp] theorem State.pump_sdram (s : State) (p : Port) : (s.pump p).sdram = s.sdram := by
  rw [s.pump_only p]

@[simp] theorem State.pump_ecc (s : State) (p : Port) : (s.pump p).ecc = s.ecc := by
  rw [s.pump_only p]

@[simp] theorem State.pump_notices (s : State) (p : Port) : (s.pump p).notices = s.notices := by
  rw [s.pump_only p]

@[simp] theorem State.pump_startup (s : State) (p : Port) : (s.pump p).startup = s.startup := by
  rw [s.pump_only p]

@[simp] theorem State.pump_bridgeReset (s : State) (p : Port) : (s.pump p).bridgeReset = s.bridgeReset := by
  rw [s.pump_only p]

@[simp] theorem State.pump_fresh (s : State) (p : Port) : (s.pump p).fresh = s.fresh := by
  rw [s.pump_only p]

@[simp] theorem State.pump_pending (s : State) (p : Port) : (s.pump p).pending = s.pending := by
  rw [s.pump_only p]

/-- Only the arbiter, the ECC unit and the power-down timer change. -/
theorem State.endTenure_only (s : State) (w : Bool) (cs : List BusCycle) :
    s.endTenure w cs = { s with arbiter := (s.endTenure w cs).arbiter, ecc := (s.endTenure w cs).ecc, sdram := (s.endTenure w cs).sdram } := by
  unfold State.endTenure; split <;> rfl

@[simp] theorem State.endTenure_pins (s : State) (w : Bool) (cs : List BusCycle) : (s.endTenure w cs).pins = s.pins := by
  rw [s.endTenure_only w cs]

@[simp] theorem State.endTenure_straps (s : State) (w : Bool) (cs : List BusCycle) : (s.endTenure w cs).straps = s.straps := by
  rw [s.endTenure_only w cs]

@[simp] theorem State.endTenure_now (s : State) (w : Bool) (cs : List BusCycle) : (s.endTenure w cs).now = s.now := by
  rw [s.endTenure_only w cs]

@[simp] theorem State.endTenure_ports (s : State) (w : Bool) (cs : List BusCycle) : (s.endTenure w cs).ports = s.ports := by
  rw [s.endTenure_only w cs]

@[simp] theorem State.endTenure_table (s : State) (w : Bool) (cs : List BusCycle) : (s.endTenure w cs).table = s.table := by
  rw [s.endTenure_only w cs]

@[simp] theorem State.endTenure_windows (s : State) (w : Bool) (cs : List BusCycle) : (s.endTenure w cs).windows = s.windows := by
  rw [s.endTenure_only w cs]

@[simp] theorem State.endTenure_pool (s : State) (w : Bool) (cs : List BusCycle) : (s.endTenure w cs).pool = s.pool := by
  rw [s.endTenure_only w cs]

@[simp] theorem State.endTenure_health (s : State) (w : Bool) (cs : List BusCycle) : (s.endTenure w cs).health = s.health := by
  rw [s.endTenure_only w cs]

@[simp] theorem State.endTenure_nand (s : State) (w : Bool) (cs : List BusCycle) : (s.endTenure w cs).nand = s.nand := by
  rw [s.endTenure_only w cs]

@[simp] theorem State.endTenure_retired (s : State) (w : Bool) (cs : List BusCycle) : (s.endTenure w cs).retired = s.retired := by
  rw [s.endTenure_only w cs]

@[simp] theorem State.endTenure_notices (s : State) (w : Bool) (cs : List BusCycle) : (s.endTenure w cs).notices = s.notices := by
  rw [s.endTenure_only w cs]

@[simp] theorem State.endTenure_startup (s : State) (w : Bool) (cs : List BusCycle) : (s.endTenure w cs).startup = s.startup := by
  rw [s.endTenure_only w cs]

@[simp] theorem State.endTenure_bridgeReset (s : State) (w : Bool) (cs : List BusCycle) : (s.endTenure w cs).bridgeReset = s.bridgeReset := by
  rw [s.endTenure_only w cs]

@[simp] theorem State.endTenure_fresh (s : State) (w : Bool) (cs : List BusCycle) : (s.endTenure w cs).fresh = s.fresh := by
  rw [s.endTenure_only w cs]

@[simp] theorem State.endTenure_pending (s : State) (w : Bool) (cs : List BusCycle) : (s.endTenure w cs).pending = s.pending := by
  rw [s.endTenure_only w cs]

/-- A static grant changes only the table. -/
theorem State.beginStatic_only (s : State) (c : Chip) :
    (s.beginStatic c).1 = { s with table := (s.beginStatic c).1.table } := by
  unfold State.beginStatic
  split
  · rfl
  · split
    · split <;> rfl
    · rfl

/-- The first tenure of a NAND operation changes only the table, the queue, the context and the ECC unit. -/
theorem State.beginNandHead_only (s : State) (c : Chip) (r : Ref) (e : Entry) :
    (s.beginNandHead c r e).1 = { s with table := (s.beginNandHead c r e).1.table, arbiter := (s.beginNandHead c r e).1.arbiter, nand := (s.beginNandHead c r e).1.nand, ecc := (s.beginNandHead c r e).1.ecc } := by
  unfold State.beginNandHead; dsimp only; split <;> rfl

/-- An unloading grant changes only the context and the ECC unit. -/
theorem State.beginUnload_only (s : State) (c : Chip) (x : Context) :
    (s.beginUnload c x).1 = { s with nand := (s.beginUnload c x).1.nand, ecc := (s.beginUnload c x).1.ecc } := by
  unfold State.beginUnload; dsimp only; split <;> rfl

/-- A NAND grant changes only the table, the queue, the context and the ECC unit. -/
theorem State.beginNand_only (s : State) (c : Chip) :
    (s.beginNand c).1 = { s with table := (s.beginNand c).1.table, arbiter := (s.beginNand c).1.arbiter, nand := (s.beginNand c).1.nand, ecc := (s.beginNand c).1.ecc } := by
  unfold State.beginNand
  dsimp only
  split
  · split
    · rfl
    · split
      · split
        · rw [State.beginNandHead_only]
        · rfl
      · rfl
  · split <;> rfl
  · split
    · rw [State.beginUnload_only]
    · rfl
  · rw [State.beginUnload_only]
  · rfl
  · rfl
  · rfl

theorem State.bypassAll_only (l : List Ref) (s : State) :
    l.foldl (fun s x => s.updateEntry x Entry.bypassed) s =
      { s with table := (l.foldl (fun s x => s.updateEntry x Entry.bypassed) s).table } := by
  induction l generalizing s with
  | nil => rfl
  | cons r l ih => rw [List.foldl_cons, ih]; rfl

/-- Entry work on SD changes only the table. -/
theorem State.beginSdEntry_only (s : State) :
    (s.beginSdEntry).1 = { s with table := (s.beginSdEntry).1.table } := by
  unfold State.beginSdEntry
  split
  · dsimp only
    split
    · rfl
    · rw [State.updateEntry_only, State.bypassAll_only]
  · rfl

/-- An SD grant changes only the table and the SDRAM engine. -/
theorem State.beginSd_only (s : State) :
    (s.beginSd).1 = { s with table := (s.beginSd).1.table, sdram := (s.beginSd).1.sdram } := by
  unfold State.beginSd
  repeat' split
  all_goals first | rfl | rw [State.beginSdEntry_only]

/-- A grant's engine part changes only the table, the arbiter, the NAND contexts, the SDRAM engine and the ECC unit. -/
theorem State.beginOn_only (s : State) (k : Slot) :
    (s.beginOn k).1 = { s with table := (s.beginOn k).1.table, arbiter := (s.beginOn k).1.arbiter, nand := (s.beginOn k).1.nand, sdram := (s.beginOn k).1.sdram, ecc := (s.beginOn k).1.ecc } := by
  unfold State.beginOn
  cases k with
  | chip c =>
    dsimp only
    split
    · rw [State.beginNand_only]
    · rw [State.beginStatic_only]
  | sd =>
    dsimp only
    rw [State.beginSd_only]

/-- A grant changes only the table, the arbiter, the NAND contexts, the SDRAM engine and the ECC unit. -/
theorem State.grantTo_only (s : State) (k : Slot) :
    s.grantTo k = { s with table := (s.grantTo k).table, arbiter := (s.grantTo k).arbiter, nand := (s.grantTo k).nand, sdram := (s.grantTo k).sdram, ecc := (s.grantTo k).ecc } := by
  unfold State.grantTo
  dsimp only
  rw [State.beginOn_only]

@[simp] theorem State.grantTo_pins (s : State) (k : Slot) : (s.grantTo k).pins = s.pins := by
  rw [s.grantTo_only k]

@[simp] theorem State.grantTo_straps (s : State) (k : Slot) : (s.grantTo k).straps = s.straps := by
  rw [s.grantTo_only k]

@[simp] theorem State.grantTo_now (s : State) (k : Slot) : (s.grantTo k).now = s.now := by
  rw [s.grantTo_only k]

@[simp] theorem State.grantTo_ports (s : State) (k : Slot) : (s.grantTo k).ports = s.ports := by
  rw [s.grantTo_only k]

@[simp] theorem State.grantTo_windows (s : State) (k : Slot) : (s.grantTo k).windows = s.windows := by
  rw [s.grantTo_only k]

@[simp] theorem State.grantTo_pool (s : State) (k : Slot) : (s.grantTo k).pool = s.pool := by
  rw [s.grantTo_only k]

@[simp] theorem State.grantTo_health (s : State) (k : Slot) : (s.grantTo k).health = s.health := by
  rw [s.grantTo_only k]

@[simp] theorem State.grantTo_retired (s : State) (k : Slot) : (s.grantTo k).retired = s.retired := by
  rw [s.grantTo_only k]

@[simp] theorem State.grantTo_notices (s : State) (k : Slot) : (s.grantTo k).notices = s.notices := by
  rw [s.grantTo_only k]

@[simp] theorem State.grantTo_startup (s : State) (k : Slot) : (s.grantTo k).startup = s.startup := by
  rw [s.grantTo_only k]

@[simp] theorem State.grantTo_bridgeReset (s : State) (k : Slot) : (s.grantTo k).bridgeReset = s.bridgeReset := by
  rw [s.grantTo_only k]

@[simp] theorem State.grantTo_fresh (s : State) (k : Slot) : (s.grantTo k).fresh = s.fresh := by
  rw [s.grantTo_only k]

@[simp] theorem State.grantTo_pending (s : State) (k : Slot) : (s.grantTo k).pending = s.pending := by
  rw [s.grantTo_only k]

/-- As for a grant to one slot. -/
theorem State.grant_only (s : State) :
    s.grant = { s with table := (s.grant).table, arbiter := (s.grant).arbiter, nand := (s.grant).nand, sdram := (s.grant).sdram, ecc := (s.grant).ecc } := by
  unfold State.grant
  split
  · rfl
  · split
    · rw [State.grantTo_only]
    · rfl

@[simp] theorem State.grant_pins (s : State) : (s.grant).pins = s.pins := by
  rw [s.grant_only]

@[simp] theorem State.grant_straps (s : State) : (s.grant).straps = s.straps := by
  rw [s.grant_only]

@[simp] theorem State.grant_now (s : State) : (s.grant).now = s.now := by
  rw [s.grant_only]

@[simp] theorem State.grant_ports (s : State) : (s.grant).ports = s.ports := by
  rw [s.grant_only]

@[simp] theorem State.grant_windows (s : State) : (s.grant).windows = s.windows := by
  rw [s.grant_only]

@[simp] theorem State.grant_pool (s : State) : (s.grant).pool = s.pool := by
  rw [s.grant_only]

@[simp] theorem State.grant_health (s : State) : (s.grant).health = s.health := by
  rw [s.grant_only]

@[simp] theorem State.grant_retired (s : State) : (s.grant).retired = s.retired := by
  rw [s.grant_only]

@[simp] theorem State.grant_notices (s : State) : (s.grant).notices = s.notices := by
  rw [s.grant_only]

@[simp] theorem State.grant_startup (s : State) : (s.grant).startup = s.startup := by
  rw [s.grant_only]

@[simp] theorem State.grant_bridgeReset (s : State) : (s.grant).bridgeReset = s.bridgeReset := by
  rw [s.grant_only]

@[simp] theorem State.grant_fresh (s : State) : (s.grant).fresh = s.fresh := by
  rw [s.grant_only]

@[simp] theorem State.grant_pending (s : State) : (s.grant).pending = s.pending := by
  rw [s.grant_only]

/-- What follows an event changes only the transmitters and what a grant changes. -/
theorem State.settle_only (s : State) :
    s.settle = { s with ports := (s.settle).ports, table := (s.settle).table, arbiter := (s.settle).arbiter, nand := (s.settle).nand, sdram := (s.settle).sdram, ecc := (s.settle).ecc } := by
  unfold State.settle
  rw [State.grant_only, State.pump_only (s.pump .a), State.pump_only s]

@[simp] theorem State.settle_pins (s : State) : (s.settle).pins = s.pins := by
  rw [s.settle_only]

@[simp] theorem State.settle_straps (s : State) : (s.settle).straps = s.straps := by
  rw [s.settle_only]

@[simp] theorem State.settle_now (s : State) : (s.settle).now = s.now := by
  rw [s.settle_only]

@[simp] theorem State.settle_windows (s : State) : (s.settle).windows = s.windows := by
  rw [s.settle_only]

@[simp] theorem State.settle_pool (s : State) : (s.settle).pool = s.pool := by
  rw [s.settle_only]

@[simp] theorem State.settle_health (s : State) : (s.settle).health = s.health := by
  rw [s.settle_only]

@[simp] theorem State.settle_retired (s : State) : (s.settle).retired = s.retired := by
  rw [s.settle_only]

@[simp] theorem State.settle_notices (s : State) : (s.settle).notices = s.notices := by
  rw [s.settle_only]

@[simp] theorem State.settle_startup (s : State) : (s.settle).startup = s.startup := by
  rw [s.settle_only]

@[simp] theorem State.settle_bridgeReset (s : State) : (s.settle).bridgeReset = s.bridgeReset := by
  rw [s.settle_only]

@[simp] theorem State.settle_fresh (s : State) : (s.settle).fresh = s.fresh := by
  rw [s.settle_only]

@[simp] theorem State.settle_pending (s : State) : (s.settle).pending = s.pending := by
  rw [s.settle_only]

end Sys2Proof.Machine
end

