-- ==== Sys2Proof/Laws/Resets.lean ====
section
/-! SUPPORT. What the turn of a message row, a full reset and the record of a cut-off tenure do, case by case. -/
namespace Sys2Proof.Machine

/-! ### The turn of a message row (R167) -/

theorem State.outOfTurn_eq_false {s : State} {p : Port} {kind seq : Byte} {d : List Byte} :
    s.outOfTurn p ⟨kind, seq, d⟩ = false ↔ s.Takes p kind seq d := by
  unfold State.outOfTurn State.Takes
  cases h : (s.port p).arrived <;> simp

/-- In its turn a frame is taken and dealt with. -/
theorem State.takeMessage_in_turn {s : State} {p : Port} {kind seq : Byte} {d : List Byte} {deal : State → State}
    (h : s.Takes p kind seq d) : s.takeMessage p kind seq d deal = deal (s.takeFrame p seq) := by
  simp [State.takeMessage, State.outOfTurn_eq_false.mpr h]

/-- Out of its turn a frame changes nothing. -/
theorem State.takeMessage_out_of_turn {s : State} {p : Port} {kind seq : Byte} {d : List Byte} {deal : State → State}
    (h : ¬s.Takes p kind seq d) : s.takeMessage p kind seq d deal = s := by
  have : s.outOfTurn p ⟨kind, seq, d⟩ = true := by
    cases e : s.outOfTurn p ⟨kind, seq, d⟩
    · exact absurd (State.outOfTurn_eq_false.mp e) h
    · rfl
  simp [State.takeMessage, this]

/-! ### The full reset -/

@[simp] theorem State.fullReset_pins (s : State) (x : Cause) (pins : Pins) : (s.fullReset x pins).pins = pins := rfl

@[simp] theorem State.fullReset_table (s : State) (x : Cause) (pins : Pins) : (s.fullReset x pins).table = ⟨[], []⟩ := rfl

@[simp] theorem State.fullReset_windows (s : State) (x : Cause) (pins : Pins) :
    (s.fullReset x pins).windows = List.replicate 8 Window.off := rfl

@[simp] theorem State.fullReset_tenure (s : State) (x : Cause) (pins : Pins) : (s.fullReset x pins).arbiter.tenure = none :=
  rfl

@[simp] theorem State.fullReset_cut (s : State) (x : Cause) (pins : Pins) :
    (s.fullReset x pins).arbiter.cut = s.cutTenure := rfl

@[simp] theorem State.fullReset_fresh (s : State) (x : Cause) (pins : Pins) : (s.fullReset x pins).fresh = s.fresh + 1 := rfl

@[simp] theorem State.fullReset_pending (s : State) (x : Cause) (pins : Pins) : (s.fullReset x pins).pending = s.pending :=
  rfl

/-- The staging bytes stay on a PIN or MESSAGE reset (R54). -/
theorem State.fullReset_bytes {s : State} {x : Cause} (pins : Pins) (h : x ≠ .power) :
    (s.fullReset x pins).pool.bytes = s.pool.bytes := by
  simp [State.fullReset, State.afterReset, Pool.afterReset, h]

/-- After a full reset MCKE is low and MSELD# high (R116). -/
theorem State.fullReset_lines (s : State) (x : Cause) (pins : Pins) :
    (s.fullReset x pins).mcke = false ∧ (s.fullReset x pins).mseldHigh = true := ⟨rfl, rfl⟩

/-- All that the record of a cut-off tenure can say: nothing had begun, or the first `k` cycles of the work are done and
the next one was in progress (R57). -/
theorem Tenure.cutAt_cases (t : Tenure) (work : List BusCycle) (choice : Option Nat) :
    (t.cutAt work choice).tenure = t ∧
      (((t.cutAt work choice).done = [] ∧ (t.cutAt work choice).current = none) ∨
        ∃ k, (t.cutAt work choice).done = work.take k ∧
          (t.cutAt work choice).current = (work[k]?).map BusCycle.cutShort) := by
  cases choice with
  | none => exact ⟨rfl, .inl ⟨rfl, rfl⟩⟩
  | some k => exact ⟨rfl, .inr ⟨k % work.length, rfl, rfl⟩⟩

end Sys2Proof.Machine
end

