-- ==== Sys2Proof/WellFormed.lean ====
section
/-! DEFINITION. Which commands are well formed as syntax: what a port unit or a memory device can put to the part at all. -/
namespace Sys2Proof

/-- The largest payload of a frame (R166, R172). -/
def maxPayload : Nat := 4352

/-- A beat that completed was stretched by at most the largest wait limit of a profile (R75, R80). -/
def Sample.wellFormed (x : Sample) : Bool := decide (x.stretch ≤ 4095)

/-- Frames carry at most 4352 payload bytes; a chunk has at most 64 beats and an atomic at most 4 read beats;
a sector has 528 bytes and an identification 8. -/
def Instr.wellFormed : Instr → Bool
  | .read _ _ d | .write _ _ d | .cset _ _ d | .swap _ _ d | .fadd _ _ d => decide (d.length ≤ maxPayload)
  | .pgRead _ _ d | .pgProg _ _ d | .blkErase _ _ d | .nandId _ _ d => decide (d.length ≤ maxPayload)
  | .hello _ _ d | .info _ _ d | .status _ _ d | .winSet _ _ d | .winGet _ _ d => decide (d.length ≤ maxPayload)
  | .slotSet _ _ d | .slotGet _ _ d | .slotClear _ _ d => decide (d.length ≤ maxPayload)
  | .sdrSet _ _ d | .sdrGet _ _ d | .sdrSleep _ _ d => decide (d.length ≤ maxPayload)
  | .retireAdd _ _ d | .retireDrop _ _ d | .retireList _ _ d => decide (d.length ≤ maxPayload)
  | .cancel _ _ d | .portReset _ _ d | .bridgeReset _ _ d => decide (d.length ≤ maxPayload)
  | .chunkEnd xs => decide (xs.length ≤ 64) && xs.all Sample.wellFormed
  | .atomicEnd xs => decide (xs.length ≤ 8) && xs.all Sample.wellFormed
  | .waitLimitReached n xs => decide (n < 64) && decide (xs.length ≤ 64) && xs.all Sample.wellFormed
  | .unloadingTenureEnd bs => decide (bs.length = 528)
  | .idTenureEnd bs => decide (bs.length = 8)
  | .powerOn _ | .resetPin _ | .characterReceived _ _ _ | .frameGapTimeout _ | .linkBreak _ | .rxdRise _ => true
  | .holdChange _ _ | .frameSent _ => true
  | .nandCommandEnd _ | .loadingTenureEnd _ | .statusTenureEnd _ | .resetTenureEnd _ => true
  | .nandReadyRise _ | .nandTimeout _ | .recoveryResetExpiry _ | .clearResetExpiry _ | .loadBusyTimeout => true
  | .refreshExpiry | .refreshRoundEnd | .powerdownEntry | .selfRefreshTimer | .selfRefreshEntryEnd => true
  | .selfRefreshExitEnd | .stabilisationWaitEnd | .prechargeStepEnd | .refreshStepEnd | .modeStepEnd => true
  | .setupPortsEntry | .setupSlotEntry | .setupSdramEntry | .setupWindowEntry | .setupRetireEntry => true
  | .setupUnknownEntry => true

end Sys2Proof
end

