-- ==== Sys2Proof/Tests/Slice0.lean ====
section
/-! SUPPORT. Small tests: ill-formed commands, check values, one step each, and for the statements concrete states that meet their hypotheses. -/

namespace Sys2Proof.Tests

set_option Elab.async false

open Sys2Proof Sys2Proof.Machine

/-! ### WellFormed refuses an ill-formed command of each check -/

theorem test_refuses_long_payload : (Instr.write .a 0 (List.replicate 4353 0)).wellFormed = false := by decide +kernel

theorem test_refuses_many_chunk_samples : (Instr.chunkEnd (List.replicate 65 ⟨0, 0⟩)).wellFormed = false := by
  decide +kernel

theorem test_refuses_long_stretch : (Instr.chunkEnd [⟨0, 4096⟩]).wellFormed = false := by decide +kernel

theorem test_refuses_many_atomic_samples : (Instr.atomicEnd (List.replicate 9 ⟨0, 0⟩)).wellFormed = false := by
  decide +kernel

theorem test_refuses_late_wait_beat : (Instr.waitLimitReached 64 []).wellFormed = false := by decide +kernel

theorem test_refuses_short_sector : (Instr.unloadingTenureEnd [0, 0]).wellFormed = false := by decide +kernel

theorem test_refuses_short_id : (Instr.idTenureEnd [0]).wellFormed = false := by decide +kernel

/-! ### Check values: the ASCII digits 1 to 9 under the CRC of R165 and the CRC of R189 -/

def digits : List Byte := [0x31, 0x32, 0x33, 0x34, 0x35, 0x36, 0x37, 0x38, 0x39]

theorem test_crc16 : crc16 digits = 0x29B1 := by decide +kernel

theorem test_crc32 : crc32 digits = 0xCBF43926 := by decide +kernel

/-- No row of the table has bits. -/
theorem test_decode_none : decodeTableWord 8 0 = none ∧ State.reset.withFetchWord 8 0 = State.reset := by
  exact ⟨rfl, rfl⟩

/-! ### A small running part: port A UP with the CONFIG right, S1 an SRAM, S2 a NOR, S3 a NAND, SD ready -/

def sram : Profile :=
  { Profile.off with
    type := .sram, width := 8, recovery := 1, rights := ⟨.none, .none⟩, capacity := 65536, setup := 1, strobe := 2
    hold := 1, waitLimit := 16 }

def nor : Profile := { sram with type := .nor, width := 16, burstBeats := 4, burstPitch := 1 }

def flash : Profile :=
  { Profile.off with
    type := .nand, width := 8, rights := ⟨.readWrite, .read⟩, pageSize := 512, pagesPerBlock := 32, blockCount := 256
    ecc := .h1, threshold := 1, readLimit := 10, programLimit := 20, eraseLimit := 30, resetLimit := 40 }

def settings : Settings :=
  { width := 16, banks := 2, rowBits := 11, columnBits := 8, cas := 2, tRCD := 1, tRP := 1, tRAS := 1, tWR := 1, tRFC := 1
    policy := .opened, refreshInterval := 100, powerDownIdle := 5, selfRefreshIdle := 9 }

def onSram : Window :=
  { enabled := true, base := 0, size := 4096, target := some (.chip .s1), offset := 0, rights := ⟨.readWrite, .read⟩ }

def onSdram : Window :=
  { enabled := true, base := 4096, size := 4096, target := some .sd, offset := 0, rights := ⟨.readWrite, .none⟩ }

def live : State :=
  { State.reset with
    ports := ⟨{ PortUnit.afterReset true true with state := .up, expected := some 0 }, PortUnit.afterReset true false⟩
    windows := [onSram, onSdram] ++ List.replicate 6 Window.off
    arbiter := { Arbiter.afterReset 0 with profiles := ⟨sram, nor, flash, Profile.off⟩ }
    sdram := { Sdram.afterReset with
      settings := settings, state := .ready, rows := [none, none], refreshTimer := some 0, powerDownTimer := some 0
      selfRefreshTimer := some 0 } }

/-- The same part with entries of port A. -/
def holding (es : List Entry) : State := { live with table := ⟨es, []⟩ }

/-- An entry of port A in its first tenure. -/
def served (tag : Byte) (k : ReqKind) (slot : Slot) : Entry :=
  { tag := tag, port := .a, kind := k, ordered := false, raw := false, slot := slot, offset := 0, length := 4, page := 0
    block := 3, firstSector := 0, sectorCount := 1, ecc := .none, compare := 0, operand := 1, segments := [0]
    progress := some 0, bypass := none, state := .active, status := none, sectors := [] }

def waits (tag : Byte) (slot : Slot) : Entry := { served tag .read slot with state := .queued, progress := none }

/-- The tenure of an entry of port A with tag 1. -/
def tenure (slot : Slot) (x : Purpose) : Tenure := { slot := slot, purpose := x, entry := some ⟨.a, 1⟩, gap := 0, start := 0 }

/-- One entry of port A with tag 1 in its tenure, alone in its slot's queue. -/
def working (k : ReqKind) (slot : Slot) (x : Purpose) : State :=
  { holding [served 1 k slot] with
    arbiter := { live.arbiter with
      tenure := some (tenure slot x), queues := live.arbiter.queues.set slot [⟨.a, 1⟩] } }

/-- S3's context in a state, serving tag 1 of port A, in its tenure. -/
def flashing (k : ReqKind) (x : Context) (y : Purpose) : State :=
  { holding [served 1 k (.chip .s3)] with
    arbiter := { live.arbiter with tenure := some (tenure (.chip .s3) y) }
    nand := live.nand.set .s3 { x with entry := some ⟨.a, 1⟩ } }

/-- The next state of a command. -/
def after (c : Instr) (s : State) : State :=
  match exec c s with
  | .next t => t
  | _ => s

theorem tableLaw_of_lists {s : State}
    (h : ∀ p, (s.entries p).length ≤ 16 ∧ ((s.entries p).map Entry.tag).Nodup ∧ ∀ e ∈ s.entries p, e.port = p) :
    s.TableLaw := h

/-! ### One step each -/

/-- R63, R64: a READ of 4 bytes in the SRAM window is QUEUED and its chunk is granted at once. -/
theorem test_read_is_granted :
    (after (.read .a 0 [7, 0, 0, 0, 0, 0, 4, 0]) live).arbiter.tenure =
      some { slot := .chip .s1, purpose := .chunk, entry := some ⟨.a, 7⟩, gap := 0, start := 0 } := by decide +kernel

/-- R10: an address in no window is refused NOWINDOW. -/
theorem test_no_window :
    ((after (.read .a 0 [7, 0, 0, 0, 1, 0, 4, 0]) live).port .a).ready = [.refusal 7 .noWindow] := by decide +kernel

/-- R78, R77: the byte of a READ is the enabled lane's, and its REPLY joins the ready list. -/
theorem test_chunk_end :
    let t := after (.chunkEnd [⟨0xAA, 0⟩, ⟨0xBB, 0⟩, ⟨0xCC, 0⟩, ⟨0xDD, 0⟩]) (working .read (.chip .s1) .chunk)
    stagingRange t.pool.bytes [0] 0 4 = [0xAA, 0xBB, 0xCC, 0xDD] ∧ (t.port .a).ready = [.entryReply 1] := by
  decide +kernel

/-- R2, R83: FADD of 1 to 0xFFFFFFFF wraps to 0 and keeps the old value in staging. -/
theorem test_fadd_wraps :
    let t := after (.atomicEnd [⟨0xFF, 0⟩, ⟨0xFF, 0⟩, ⟨0xFF, 0⟩, ⟨0xFF, 0⟩]) (working .fadd (.chip .s1) .atomic)
    stagingRange t.pool.bytes [0] 0 4 = [0xFF, 0xFF, 0xFF, 0xFF] ∧
      t.arbiter.cycles[5]? = some (.beat true 0 [true] [0] 1 2 1 true) := by decide +kernel

/-- R67: a CSET that misses writes nothing and is answered CMP-MISS. -/
theorem test_cset_misses :
    let t := after (.atomicEnd [⟨1, 0⟩, ⟨0, 0⟩, ⟨0, 0⟩, ⟨0, 0⟩]) (working .cset (.chip .s1) .atomic)
    (t.entries .a).map Entry.status = [some .cmpMiss] ∧ t.arbiter.lastWrite = false := by decide +kernel

/-- R85: the WAIT limit stalls the slot. -/
theorem test_wait_limit :
    (after (.waitLimitReached 2 [⟨1, 0⟩, ⟨2, 0⟩]) (working .read (.chip .s1) .chunk)).health.get .s1 = .stalled := by
  decide +kernel

/-- R113: the debt rises by 1 and the round is granted, which takes it. -/
theorem test_refresh_expiry :
    (after .refreshExpiry live).arbiter.tenure =
      some { slot := .sd, purpose := .refreshRound 1, entry := none, gap := 0, start := 0 } := by decide +kernel

/-- R107: a 64-byte READ chunk at width 32 with a row miss, CAS latency 3 and tRCD 2 takes 2 + 16 + 3 = 21 MCLK. -/
theorem test_row_miss_time :
    let t := { settings with width := 32, banks := 4, columnBits := 9, rowBits := 13, cas := 3, tRCD := 2 }
    let x := sdReadChunk { now := 0, rows := List.replicate 4 none, cycles := [] } t 0x4800 64 []
    tenureMclk x.cycles = 21 ∧ x.now = 21 ∧ x.rows[1]? = some (some ⟨2, 0, none⟩) := by decide +kernel

/-- R92, R93: bank 3 of 4 is on MA[14:13] and the row on MA[12:0]; PRECHARGE ALL has MA[10] high; the mode word with CAS
latency 3 is 30 hexadecimal; only a self-refresh entry takes MCKE low. -/
theorem test_sd_lines :
    (SdCommand.activate 3 0x1ABC).lines.ma = 0x7ABC ∧ (SdCommand.read 1 0x3FF 0).lines.ma = 0x23FF ∧
      (SdCommand.write 1 5 [true, false] [7, 0]).lines.mbe = [some false, some true, none, none] ∧
      SdCommand.prechargeAll.lines.ma = 0x400 ∧
      (SdCommand.precharge 1).lines.ma = 0x2000 ∧ (SdCommand.modeSet 48).lines.ma = 0x30 ∧
      SdCommand.enterSelfRefresh.lines.mcke = some false ∧ SdCommand.autoRefresh.lines.mcke = some true := by decide +kernel

/-- R119: a command cycle has MA[24] high, an address cycle MA[25]; the strobe is low in MCLK 1 and 2. -/
theorem test_nand_lines :
    let k : Slot := .chip .s2
    ((NandCycle.command 0xFF).lines k 1).ma = 0x1000000 ∧ ((NandCycle.address 3).lines k 0).ma = 0x2000000 ∧
      ((NandCycle.command 0xFF).lines k 1).msel = ⟨true, false, true, true⟩ ∧
      (List.range 4).map (fun i => ((NandCycle.dataOut [1]).lines k i).mrd) = [some true, some false, some false, some true] ∧
      ((NandCycle.dataIn [1]).lines k 2).mwr = some false := by decide +kernel

/-- R77, R79: a write beat on a 16-bit slot with its upper lane outside the range. MBE[0]# alone is low, MWR# is low for the
strobe after the setup, and both lanes are driven. -/
theorem test_beat_lines :
    let x : BusCycle := .beat true 5 [true, false] [0xAB, 0] 1 2 1 true
    let l := fun i => x.lines (.chip .s3) Profile.off i
    (l 0).mbe = [some false, some true, some true, some true] ∧ (l 0).md = [0xAB, 0] ∧ (l 0).ma = 5 ∧
      (l 0).msel = ⟨true, true, false, true⟩ ∧
      (List.range 4).map (fun i => (l i).mwr) = [some true, some false, some false, some true] := by decide +kernel

/-- R93, R96: in the precharge step with tRP 3 MSELD# is low in the MCLK of PRECHARGE ALL and high in the wait after it. -/
theorem test_mseld :
    let s := { live with arbiter := { live.arbiter with tenure := some (tenure .sd .initPrecharge) } }
    let g : State := { s with sdram := { s.sdram with settings := { settings with tRP := 3 } } }
    (List.range 4).map (fun i => ({ g with now := (tenure .sd .initPrecharge).start + 1 + i } : State).mseldHigh) =
      [false, true, true, true] := by decide +kernel

/-- R164: at 500 kbit/s and 50 MHz a character takes 1000 MCLK. -/
theorem test_character_time :
    let x : Straps := ⟨0, 0, false⟩
    (⟨0, [1, 2, 3], 999⟩ : Sending).bytesSent x = 0 ∧ (⟨0, [1, 2, 3], 2000⟩ : Sending).bytesSent x = 2 := by decide +kernel

/-- R164: the character 0x53 on TXD at 500 kbit/s and 50 MHz, 100 MCLK a bit: start bit, 1 1 0 0 1 0 1 0, stop bit; then the
next start bit, and rest after the last stop bit. -/
theorem test_txd :
    let s := fun n => live.setPort .a { live.port .a with tx := some ⟨0, [0x53, 0xFF], n⟩ }
    (List.range 11).map (fun i => (s (100 * i + 99)).txd .a) =
      [false, true, true, false, false, true, false, true, false, true, false] ∧
      (s 2000).txd .a = true ∧ live.txd .a = true := by decide +kernel

/-- R171: HELLO brings port B UP. -/
theorem test_hello : ((after (.hello .b 9 [5]) live).port .b).state = .up ∧
    ((after (.hello .b 9 [5]) live).port .b).expected = some 10 := by decide +kernel

/-- R172: INFO is answered with the six characters of the part's name first. -/
theorem test_info :
    ((after (.info .a 0 [5]) live).port .a).ready.map (fun i => match i with | .ctrl _ _ _ b => b.take 6 | _ => []) =
      [[0x4B, 0x5A, 0x32, 0x34, 0x30, 0x36]] := by decide +kernel

/-- R140: a block is inserted in ascending order. -/
theorem test_retire_add : (after (.retireAdd .a 0 [1, 3, 9, 0]) live).retired.get .s3 = [9] := by decide +kernel

/-- Log entry 1: with no command waiting one MCLK passes. -/
theorem test_tick : (live.tick).now = 1 ∧ (live.tick).sdram.refreshTimer = some 1 := by decide +kernel

/-! ### States that meet the statements' hypotheses -/

theorem witness_StepTakesTheFrontCommand :
    ({ live with pending := [.refreshExpiry] } : State).pending = .refreshExpiry :: [] ∧ live.pending = [] ∧
      (live.now + 1) % 50 ≠ 0 ∧ (({ live with now := 49 } : State).now + 1) % 50 = 0 := ⟨rfl, rfl, by decide, by decide⟩

/-- Port A sending the OK of its BRIDGE-RESET. -/
def leaving : State :=
  { live.setPort .a { live.port .a with
      ready := [.ctrl 1 .bridgeReset .ok []], tx := some ⟨0, [], 0⟩, held := 1 } with bridgeReset := some .a }

theorem witness_StrapsCauseAndRightsHoldUntilAFullReset :
    (∃ t, exec .setupPortsEntry live = .next t) ∧ leaving.TakesFullReset (.powerOn Pins.default) .power ∧
      leaving.TakesFullReset (.resetPin Pins.default) .pin ∧ leaving.TakesFullReset (.frameSent .a) (.message .a) ∧
      leaving.TakesFullReset (.portReset .a 0 [1]) (.message .a) ∧ leaving.TakesFullReset (.linkBreak .a) (.message .a) :=
  ⟨⟨_, rfl⟩, .inl ⟨rfl, _, rfl⟩, .inr (.inl ⟨rfl, _, rfl⟩),
    .inr (.inr ⟨.a, rfl, rfl, .inl ⟨rfl, nofun, 1, [], [], rfl⟩⟩),
    .inr (.inr ⟨.a, rfl, rfl, .inr (.inl ⟨0, [1], rfl, .inl rfl, ⟨rfl, rfl⟩, nofun⟩)⟩),
    .inr (.inr ⟨.a, rfl, rfl, .inr (.inr ⟨rfl, rfl, nofun⟩)⟩)⟩

theorem witness_WindowTableChangesOnlyByItsWriters :
    (after (.resetPin Pins.default) live).windows ≠ live.windows ∧
      (after (.winSet .a 0 ([1, 0] ++ List.replicate 16 0)) live).windows ≠ live.windows := by decide +kernel

/-- A bit of the character in progress, and the rest after the last one. -/
theorem witness_TxdShowsTheFrame :
    let s := fun n => live.setPort .a { live.port .a with tx := some ⟨0, [0x53], n⟩ }
    ((s 300).port .a).tx = some ⟨0, [0x53], 300⟩ ∧ [(0x53 : Byte)][0]? = some 0x53 ∧
      (10 * 0 + 1) * (1000 * 50) ≤ 100 * 500 ∧ 199 * 500 < (10 * 0 + 1 + 1) * (1000 * 50) ∧
      10 * 1 * (1000 * 50) ≤ 1000 * 500 ∧ (live.port .a).tx = none := by decide +kernel

theorem witness_TransmitterBeginsTheOldestItem :
    (live.pushReady .a (.refusal 1 .badArg)).ports.a.tx = none ∧
      (live.pushReady .a (.refusal 1 .badArg)).pins.hold.get .a = true ∧
      (live.pushReady .a (.refusal 1 .badArg)).ports.a.ready = .refusal 1 .badArg :: [] ∧ (live.port .b).ready = [] := by
  decide +kernel

/-- Both branches: SD urgent, and the ring. -/
def urgent : State := { live with sdram := { live.sdram with debt := 6 } }

theorem witness_GrantGoesRoundTheRing :
    (working .read (.chip .s1) .chunk).arbiter.tenure ≠ none ∧ live.arbiter.tenure = none ∧
      (live.candidate .sd = false ∧ live.candidate (.chip .s1) = false) ∧
      urgent.arbiter.tenure = none ∧ urgent.candidate .sd = true ∧ 6 ≤ urgent.sdram.debt ∧
      { urgent with sdram := { urgent.sdram with debt := 1 } }.candidate .sd = true := by decide +kernel

/-- An idle bus with one waiting entry of port A, tag 1, in the queue of its slot. -/
def waiting (k : ReqKind) (slot : Slot) : State :=
  { holding [{ waits 1 slot with kind := k, bypass := some 0 }] with
    arbiter := { live.arbiter with queues := live.arbiter.queues.set slot [⟨.a, 1⟩] } }

/-- An idle bus with S3's context serving tag 1 of port A. -/
def resting (k : ReqKind) (x : Context) : State :=
  { holding [served 1 k (.chip .s3)] with nand := live.nand.set .s3 { x with entry := some ⟨.a, 1⟩ } }

/-- An idle bus with the SDRAM engine so. -/
def sdWith (d : Sdram) : State := { live with sdram := d }

/-- An idle bus in the setup load of a BOOT strap. -/
def loading (boot : BitVec 2) (x : LoadPhase) : State :=
  { State.afterReset .pin { Pins.default with boot := boot } [] 0 [] with
    nand := ByChip.all Context.idle
    startup := { Startup.afterReset boot .pin with load := some ⟨false, x, 0⟩ } }

/-- A NAND slot that is stalled with an entry in its queue, which no run reaches. -/
def stalledNand : State := { waiting .pgRead (.chip .s3) with health := live.health.set .s3 .stalled }

/-- Each kind of work that a grant begins has a state whose winner is its slot. -/
theorem witness_GrantBeginsWork :
    (waiting .read (.chip .s1)).winner = some (.chip .s1) ∧ (loading 1 .norChunks).winner = some (.chip .s1) ∧
      (loading 1 .norChunks).startup.loads .s1 = true ∧ (loading 2 .reading).winner = some (.chip .s1) ∧
      (∀ k ∈ [ReqKind.pgProg, .pgRead, .blkErase, .nandId], (waiting k (.chip .s3)).winner = some (.chip .s3)) ∧
      (∀ st ∈ [CtxState.loading, .busy, .unloading, .checking, .recovering, .clearing], ∀ op ∈ [NandOp.read, .program],
        (resting .pgRead { Context.idle with state := st, op := some op, left := 1, readySeen := true }).winner =
          some (.chip .s3)) ∧
      (∀ x ∈ [InitStep.precharge, .refresh, .mode], (sdWith { live.sdram with init := x }).winner = some .sd) ∧
      urgent.winner = some .sd ∧ (sdWith { live.sdram with debt := 1 }).winner = some .sd ∧
      (sdWith { live.sdram with srReached := true }).winner = some .sd ∧
      (sdWith { live.sdram with srReached := true }).selfRefreshDue = true ∧
      { waiting .read .sd with sdram := { live.sdram with state := .selfRefresh } }.winner = some .sd := by
  decide +kernel

/-- R60: every type of slot, as a candidate and not. -/
theorem witness_CandidatesFollowTheirConditions :
    (live.profile .s4).type = .off ∧ (live.profile .s1).type = .sram ∧ (live.profile .s2).type = .nor ∧
      (live.profile .s3).type = .nand ∧ (waiting .read (.chip .s1)).candidate (.chip .s1) = true ∧
      stalledNand.candidate (.chip .s3) = false ∧ (waiting .pgRead (.chip .s3)).candidate (.chip .s3) = true ∧
      (resting .pgRead { Context.idle with state := .busy }).candidate (.chip .s3) = false ∧
      (resting .pgRead { Context.idle with state := .recovering, resetIssued := true }).candidate (.chip .s3) = false ∧
      (sdWith { live.sdram with state := .selfRefresh }).candidate .sd = false := by decide +kernel

/-- A hit behind a head that is none: it is selected, unless the head already stands at 4. -/
def rowOpen : Sdram := { live.sdram with rows := [none, some ⟨0, 0, none⟩] }

theorem witness_SdSelectionPassesOnlyWithinItsLimits :
    let far := { waits 2 .sd with offset := 512, bypass := some 0 }
    sdSelect rowOpen [{ waits 1 .sd with bypass := some 3 }, far] = some far ∧
      sdSelect rowOpen [{ waits 1 .sd with bypass := some 4 }, far] = some { waits 1 .sd with bypass := some 4 } := by
  decide +kernel

/-- Two waiting SD entries, the second of them in an open row; or the second already ACTIVE. -/
def passing (second : EntryState) : State :=
  { holding [{ waits 1 .sd with bypass := some 3 }, { waits 2 .sd with offset := 512, bypass := some 0, state := second }] with
    arbiter := { live.arbiter with queues := live.arbiter.queues.set .sd [⟨.a, 1⟩, ⟨.a, 2⟩] }
    sdram := rowOpen }

theorem passing_tableLaw (x : EntryState) : (passing x).TableLaw := by
  intro p; cases p
  · refine ⟨Nat.le_of_ble_eq_true rfl, show [(1 : Byte), 2].Nodup by decide, ?_⟩; intro e he
    simp only [passing, holding, State.entries, ByPort.get, List.mem_cons, List.not_mem_nil, or_false] at he
    rcases he with rfl | rfl <;> rfl
  · exact ⟨Nat.zero_le _, List.nodup_nil, by intro e he; cases he⟩

theorem passing_queueLaw {x : EntryState} (h : x.waitsOrWorks) : (passing x).QueueLaw := by
  refine ⟨?_, ?_, ?_⟩
  · intro k; cases k with
    | chip c => cases c <;> exact ⟨List.nodup_nil, by intro r hr; cases hr⟩
    | sd =>
      refine ⟨show [(⟨.a, 1⟩ : Ref), ⟨.a, 2⟩].Nodup by decide, ?_⟩
      intro r hr
      rcases List.mem_cons.mp hr with rfl | hr
      · exact ⟨_, rfl, rfl, .inl rfl⟩
      · obtain rfl := List.mem_singleton.mp hr
        exact ⟨_, rfl, rfl, h⟩
  · intro p e he _; cases p
    · rcases List.mem_cons.mp he with rfl | he
      · exact .head _
      · obtain rfl := List.mem_singleton.mp he
        exact .tail _ (.head _)
    · cases he
  · intro r hr
    rcases List.mem_cons.mp hr with rfl | hr
    · exact ⟨_, 3, rfl, rfl, by decide⟩
    · obtain rfl := List.mem_singleton.mp hr
      exact ⟨_, 0, rfl, rfl, by decide⟩

theorem witness_SdSelectionAtTheGrant :
    (passing .queued).TableLaw ∧ (passing .queued).QueueLaw ∧ (passing .active).QueueLaw ∧
      (passing .queued).arbiter.tenure = none ∧ (passing .queued).winner = some .sd ∧ (passing .active).winner = some .sd ∧
      (passing .queued).sdram.debt < 6 ∧ (passing .queued).sdram.initDue = false :=
  ⟨passing_tableLaw _, passing_queueLaw (.inl rfl), passing_queueLaw (.inr (.inl rfl)), rfl, by decide +kernel,
    by decide +kernel, by decide +kernel, rfl⟩

/-- R110, R111: the hit passes the head, whose count rises to 4. -/
theorem test_bypass : ((passing .queued).grant.entries .a).map (fun e => (e.state, e.bypass)) =
    [(.queued, some 4), (.active, some 0)] := by decide +kernel

theorem witness_FullResetEmptiesTheTable :
    (leaving.port .a).tx ≠ none ∧ (leaving.port .a).ready = .ctrl 1 .bridgeReset .ok [] :: [] ∧
      leaving.bridgeReset = some .a ∧ leaving.Takes .a CtrlKind.portReset.code 0 [1] ∧ leaving.Serves .a ∧
      (leaving.port .a).receiver ≠ .inBreak ∧
      (working .write (.chip .s1) .chunk).arbiter.tenure = some (tenure (.chip .s1) .chunk) ∧
      (working .write (.chip .s1) .chunk).find ⟨.a, 1⟩ = some (served 1 .write (.chip .s1)) :=
  ⟨nofun, rfl, rfl, .inl rfl, ⟨rfl, rfl⟩, nofun, rfl, by decide +kernel⟩

/-- R47, R49: two bytes written across the end of the first segment listed lie at the end of segment 2 and the start of 0. -/
theorem test_staging_layout :
    let m := stagingWrite [] [2, 0] 255 [7, 9]
    Memory.read m (2 * 256 + 255) = 7 ∧ Memory.read m 0 = 9 ∧ stagingRead m [2, 0] 256 = 9 := by decide +kernel

theorem witness_BootStrapChoosesTheSource :
    ({ Pins.default with boot := 3 } : Pins).boot = 3 ∧ leaving.TakesFullReset (.frameSent .a) (.message .a) ∧
      leaving.pins.boot = 0 := ⟨rfl, .inr (.inr ⟨.a, rfl, rfl, .inl ⟨rfl, nofun, 1, [], [], rfl⟩⟩), rfl⟩

/-- R57: a WRITE of 4 bytes on an 8-bit slot cut off in its second beat leaves the first beat completed. -/
theorem test_cut_off_write :
    let t := tenure (.chip .s1) .chunk
    let cut := t.cutAt ((working .write (.chip .s1) .chunk).cutWork t (served 1 .write (.chip .s1))) (some 1)
    cut.done = [.beat true 0 [true] [0] 1 2 1 true] ∧ cut.current = some (.beat true 1 [true] [0] 1 2 1 false) := by
  decide +kernel

/-- A port whose receiver is in a state. -/
def receiving (r : Receiver) : State := live.setPort .a { live.port .a with receiver := r }

theorem witness_ReceiverTakesCharacters :
    ((receiving .inBreak).port .a).receiver = .inBreak ∧ ((receiving .hunting).port .a).receiver = .hunting ∧
      ((receiving (.inFrame [0x01])).port .a).receiver = .inFrame [0x01] ∧
      4352 < (0x01 : Byte).toNat + 256 * (0x11 : Byte).toNat ∧
      (at8 [0x00] 0).toNat + 256 * (0x11 : Byte).toNat ≤ 4352 ∧
      [0, 0, 5].length + 1 < (at8 [0, 0, 5] 0).toNat + 256 * (at8 [0, 0, 5] 1).toNat + 6 ∧
      live.pins.rxd.get .a = true ∧ (after (.characterReceived .a 0 false) live).pins.rxd.get .a = false := by
  decide +kernel

/-- R164: after a bad stop bit the next character is not taken until RXD has risen. -/
theorem test_bad_stop_bit :
    let t := after (.characterReceived .a 0 false) live
    ((after (.characterReceived .a 0xC3 true) t).port .a).receiver = .hunting ∧
      ((after (.characterReceived .a 0xC3 true) (after (.rxdRise .a) t)).port .a).receiver = .inFrame [] := by decide +kernel

/-- The end of a HELLO frame with a good CRC, of one with a bad CRC, and of a KIND that no host frame has. -/
theorem witness_ReceiverJudgesFrames :
    let last := fun (k : Byte) => (crc16 (frameBody 0 k [1])).toNat
    let state := fun (k : Byte) => receiving (.inFrame (frameBody 0 k [1] ++ [byte (last k)]))
    ((state 0x20).port .a).receiver = .inFrame (frameBody 0 0x20 [1] ++ [byte (last 0x20)]) ∧
      (byte (last 0x20)).toNat + 256 * (byte (last 0x20 / 256)).toNat = last 0x20 ∧ 0x20 ∈ knownKinds ∧
      (byte (last 0x20)).toNat + 256 * (byte (last 0x20 / 256 + 1)).toNat ≠ last 0x20 ∧
      (byte (last 0x80)).toNat + 256 * (byte (last 0x80 / 256)).toNat = last 0x80 ∧ (0x80 : Byte) ∉ knownKinds := by
  decide +kernel

theorem witness_HostFrameReachesThePort :
    (List.replicate 4352 (0 : Byte)).length ≤ 4352 ∧ 0x3D ∈ knownKinds ∧ (live.port .a).receiver = .hunting := by
  decide +kernel

theorem witness_LineEventsActOnTheirPort :
    ((receiving (.inFrame [])).port .a).receiver = .inFrame [] ∧ ((receiving .inBreak).port .a).receiver = .inBreak ∧
      (live.port .b).receiver ≠ .inBreak ∧ (live.port .b).state = .down ∧ live.startup.top = .running ∧
      (live.port .a).state = .up := by decide +kernel

/-- Every state of an entry among port A's, one of them queued on NAND. -/
def mixed : State :=
  { holding
      [{ served 1 .blkErase (.chip .s3) with state := .queued, segments := [] },
        { served 2 .read (.chip .s1) with state := .active, segments := [1] },
        { served 3 .read (.chip .s1) with state := .replying, status := some .ok, segments := [2] },
        { served 4 .read (.chip .s2) with state := .held, ordered := true, progress := none, segments := [3] }] with
    arbiter := { live.arbiter with queues := ⟨⟨[⟨.a, 2⟩], [], [⟨.a, 1⟩], []⟩, []⟩ } }

theorem mixed_tableLaw : mixed.TableLaw :=
  tableLaw_of_lists (by intro p; cases p <;> exact ⟨by decide +kernel, by decide +kernel, by decide +kernel⟩)

theorem witness_PortResetTakesItsSevenSteps :
    mixed.bridgeReset ≠ some .a ∧ mixed.queue (.chip .s3) = [⟨.a, 1⟩] ∧
      (mixed.find ⟨.a, 1⟩).map Entry.block = some 3 ∧ 3 ∉ mixed.retired.get .s3 := by decide +kernel

/-- S3 with an erase of A at its head and a PG-PROG of B behind it, whose block 3 has been listed since. -/
def brought : State :=
  { live with
    table := ⟨[{ served 1 .blkErase (.chip .s3) with state := .queued, block := 4, segments := [] }],
      [{ served 2 .pgProg (.chip .s3) with port := .b, state := .queued, segments := [0, 1, 2] }]⟩
    pool := { live.pool with free := (List.range 61).map (· + 3), holding := ⟨0, 3⟩ }
    retired := live.retired.set .s3 [3]
    arbiter := { live.arbiter with queues := ⟨⟨[], [], [⟨.a, 1⟩, ⟨.b, 2⟩], []⟩, []⟩ } }

/-- R53, R123: the port reset of A leaves B's entry and holding as they were; the examination after it completes the entry. -/
theorem test_portReset_retiredHead :
    let t := brought.portReset .a .message
    t.pool.holding = ⟨0, 3⟩ ∧ t.queue (.chip .s3) = [⟨.b, 2⟩] ∧ t.entries .b = brought.entries .b ∧
      (t.examineHeads.entries .b).map Entry.status = [some .retired] ∧ t.examineHeads.queue (.chip .s3) = [] ∧
      t.examineHeads.pool.holding = ⟨0, 0⟩ := by decide +kernel

theorem witness_FrameSentTakesItsEndEffects :
    let s := fun i => mixed.setPort .a { mixed.port .a with ready := [i], tx := some ⟨0, [], 0⟩ }
    (∀ i ∈ [Item.entryReply 3, .refusal 9 .badArg, .ctrl 1 .info .ok [], .notice 0 (.seqGap 0 1)],
        ((s i).port .a).tx ≠ none ∧ ((s i).port .a).ready = i :: []) ∧
      ((s (.entryReply 3)).find ⟨.a, 3⟩).isSome ∧ (mixed.port .a).tx = none := by decide +kernel

/-- Notice states at the queue's bounds. -/
def noticed (q : List (BitVec 16 × Notice)) (onList : Nat) : State :=
  { live with notices := live.notices.set .a { live.notices.a with queue := q, onList := onList } }

theorem witness_PostIsDiscardedNumberedOrLost :
    let x : BitVec 16 × Notice := (0, .seqGap 0 1)
    (live.port .b).state = .down ∧ ((noticed (List.replicate 8 x) 1).port .a).state = .up ∧
      8 ≤ ((noticed (List.replicate 8 x) 1).notices.get .a).queue.length ∧
      ((noticed (List.replicate 7 x) 1).notices.get .a).queue.length < 8 ∧
      0 < ((noticed (List.replicate 7 x) 1).notices.get .a).onList ∧ ((noticed [] 0).notices.get .a).onList = 0 := by
  decide +kernel

/-- Port A with the frame of an INFO waiting. -/
def arrived : State := live.setPort .a { live.port .a with arrived := [⟨0x21, 0, [5]⟩] }

theorem witness_SequenceNumbersAreChecked :
    (live.port .b).state = .down ∧ (live.port .a).state = .up ∧ (live.port .a).expected = some 0 ∧ (0 : Byte) ≠ 255 ∧
      arrived.Takes .a CtrlKind.info.code 0 [5] ∧ ¬arrived.Takes .a CtrlKind.status.code 0 [5] ∧
      ¬arrived.Takes .a ReqKind.read.code 0 [5] :=
  ⟨rfl, rfl, rfl, by decide, .inr rfl, by simp [State.Takes, arrived, CtrlKind.code],
    by simp [State.Takes, arrived, ReqKind.code]⟩

/-- A port with all 8 control reply slots held, and one with 7. -/
def held (n : Nat) : State := live.setPort .a { live.port .a with held := n }

theorem serves_held (n : Nat) : (held n).Serves .a := ⟨rfl, rfl⟩

/-- R174: with 8 slots held an INFO right in every way is not acted on, and neither is a HELLO on the DOWN port B. -/
theorem witness_PortUnitOverruns :
    let full := live.setPort .b { live.port .b with held := 8 }
    (held 8).Serves .a ∧ (held 8).Takes .a CtrlKind.info.code 0 [1] ∧ full.startup.top = .running ∧
      (full.port .b).state = .down ∧ 8 ≤ (full.port .b).held ∧ ((after (.info .a 0 [1]) (held 8)).port .a).overruns = 1 ∧
      ((after (.hello .b 0 [1]) full).port .b).state = .down ∧ ((after (.hello .b 0 [1]) full).port .b).overruns = 1 :=
  ⟨serves_held 8, .inl rfl, rfl, rfl, by decide +kernel, by decide +kernel, by decide +kernel, by decide +kernel⟩

theorem witness_PortUnitAnswersWhatItStops :
    (held 7).Serves .a ∧ (held 7).Takes .a CtrlKind.info.code 0 [1] ∧ ((held 7).port .a).held < 8 ∧ 8 ≤ ((held 8).port .a).held ∧
      ({ live with startup := { live.startup with top := .starting .apply } } : State).startup.top = .starting .apply ∧
      (live.port .b).state = .down ∧ [(1 : Byte)].length < 2 ∧ [1, 2].length ≠ CtrlKind.info.size ∧
      [(1 : Byte), 2].length = CtrlKind.slotClear.size ∧ CtrlKind.slotClear.needsRight = true ∧
      (live.port .b).config = false :=
  ⟨serves_held 7, .inl rfl, by decide +kernel, by decide +kernel, rfl, rfl, by decide, by decide, rfl, rfl, rfl⟩

/-- One state for each check: 16 entries, a tag in use, and then form, target, kind, health and segments. -/
theorem witness_FirstFailedCheckRefuses :
    let full := holding ((List.range 16).map (fun i => served (byte i) .read (.chip .s1)))
    16 ≤ (full.entries .a).length ∧ (mixed.entries .a).length < 16 ∧ (1 : Byte) ∈ (mixed.entries .a).map Entry.tag ∧
      (9 : Byte) ∉ (mixed.entries .a).map Entry.tag ∧
      (readRequest .read [9, 2, 0, 0, 0, 0, 4, 0]).wellFormed = false ∧
      live.target .a (readRequest .read [9, 0, 0, 0, 1, 0, 4, 0]) = .error .noWindow ∧
      live.target .a (readRequest .read [9, 0, 0, 0, 0, 0, 4, 0]) = .ok (.chip .s1, 0) ∧ live.isNor (.chip .s2) = true ∧
      ({ live with health := live.health.set .s1 .stalled } : State).healthy (.chip .s1) = false ∧
      ({ live.pool with free := [1, 2, 3] } : Pool).canClaim .a 1 = false := by decide +kernel

theorem live_windowLaw : live.WindowLaw := by
  refine ⟨rfl, ?_, by
    show live.windows.Pairwise (fun x y => x.overlaps y = false)
    decide +kernel⟩
  intro w hw
  simp only [live, List.cons_append, List.nil_append, List.mem_cons, List.mem_replicate] at hw
  rcases hw with rfl | rfl | ⟨_, rfl⟩
  · exact .inr (by decide +kernel)
  · exact .inr (by decide +kernel)
  · exact .inl rfl

/-- The first and the last byte of a window, one byte too many, no right, and no window. -/
theorem witness_WindowDecodeSearchesBoundsAndRights :
    onSram ∈ live.windows ∧ onSram.covers 4095 = true ∧ onSram.covers 4096 = false ∧
      onSram.base + onSram.size < 4095 + 2 ∧ 4095 + 1 ≤ onSram.base + onSram.size ∧ onSram.rights.get .b = .read ∧
      onSdram.rights.get .b = .none ∧ live.windows.any (fun w => w.covers 8192) = false := by decide +kernel

theorem witness_NandTargetIsTestedInTurn :
    let q := fun b => readRequest .blkErase [1, 0, 3, 0, b, 0, 0, 0]
    chipOfCode (q 3).slotCode = some .s3 ∧ (q 3).kind.isNand = true ∧ (live.profile .s3).type = .nand ∧
      (live.profile .s1).type ≠ .nand ∧ live.target .a (q 3) = .ok (.chip .s3, 0) ∧
      live.target .b (q 3) = .error .denied ∧ live.target .a (readRequest .blkErase [1, 0, 3, 0, 0, 1, 0, 0]) = .error .badArg ∧
      ({ live with retired := live.retired.set .s3 [3] } : State).target .a (q 3) = .error .retired := by decide +kernel

/-- A WRITE, an atomic and a READ on SD are admitted, one of them behind a fence. -/
theorem witness_WindowRequestBecomesAnEntry :
    live.Serves .a ∧ live.Takes .a ReqKind.write.code 0 [] ∧ (live.entries .a).length < 16 ∧ live.healthy (.chip .s1) = true ∧ live.pool.canClaim .a 4 = true ∧
      (readRequest .write [7, 0, 0, 0, 0, 0, 1, 0, 0x55]).wellFormed = true ∧
      live.decodeWindow .a (readRequest .write [7, 0, 0, 0, 0, 0, 1, 0, 0x55]) = .ok (.chip .s1, 0) ∧
      (readRequest .swap [7, 1, 4, 16, 0, 0, 4, 0, 1, 2, 3, 4]).wellFormed = true ∧
      live.decodeWindow .a (readRequest .swap [7, 1, 4, 16, 0, 0, 4, 0, 1, 2, 3, 4]) = .ok (.sd, 4) ∧
      (∃ o ∈ mixed.entries .a, o.state = .active) ∧ (7 : Byte) ∉ (mixed.entries .a).map Entry.tag :=
  ⟨⟨rfl, rfl⟩, .inl rfl, by decide +kernel, by decide +kernel, by decide +kernel, by decide +kernel, by decide +kernel,
    by decide +kernel, by decide +kernel, by decide +kernel, by decide +kernel⟩

/-- Staging with the second sector of a PG-PROG under H1: data bytes 9, then host spare bytes 64 and on. -/
def programmed : List Host.Cell :=
  stageSector [] [0, 1, 2, 3, 4] (frameSpare .h1 false) 1
    (List.replicate 512 9 ++ (List.range 13).map (fun i => byte (64 + i)))

/-- R50: its data stand from 528 on, and its third host spare byte at spare byte 5, after the check positions. -/
theorem test_pgProg_staging :
    [527, 528, 1039, 1040, 1041, 1042, 1044, 1045, 1055].map (stagingRead programmed [0, 1, 2, 3, 4]) =
      [0, 9, 9, 64, 65, 0, 0, 66, 76] := by decide +kernel

/-- A PG-PROG of a page of one sector under H1 meets the premises of the layout of its bytes. -/
theorem witness_PgProgIsLaidOut :
    let d : List Byte := [7, 0, 3, 31, 255, 0, 0, 0] ++ List.replicate 525 9
    (readRequest .pgProg d).wellFormed = true ∧ live.target .a (readRequest .pgProg d) = .ok (.chip .s3, 0) ∧
      live.PoolLaw ∧ Memory.wf live.pool.bytes = true ∧ d.length = 8 + (flash.pageSize / 512) * (512 + 13) :=
  ⟨by decide +kernel, by decide +kernel, ⟨by decide +kernel, by decide +kernel, by intro p; cases p <;> rfl, by decide +kernel⟩,
    rfl, by decide +kernel⟩

theorem witness_NandRequestBecomesAnEntry :
    live.Serves .a ∧ live.Takes .a ReqKind.pgRead.code 0 [] ∧ live.health.get .s3 = .ok ∧ live.pool.canClaim .a 3 = true ∧
      (readRequest .pgRead [7, 0, 3, 31, 255, 0, 0, 1]).wellFormed = true ∧
      live.target .a (readRequest .pgRead [7, 0, 3, 31, 255, 0, 0, 1]) = .ok (.chip .s3, 0) ∧
      live.target .a (readRequest .nandId [7, 0, 3, 0, 0, 0, 0, 0]) = .ok (.chip .s3, 0) :=
  ⟨⟨rfl, rfl⟩, .inl rfl, by decide +kernel, by decide +kernel, by decide +kernel, by decide +kernel, by decide +kernel⟩

theorem witness_FinishedEntryIsAnsweredOnce :
    mixed.TableLaw ∧ (mixed.find ⟨.a, 2⟩).map Entry.state = some .active ∧
      ((mixed.updateEntry ⟨.a, 2⟩ (fun e => { e with state := .orphaned })).find ⟨.a, 2⟩).map Entry.state =
        some .orphaned := ⟨mixed_tableLaw, by decide +kernel, by decide +kernel⟩

theorem witness_FenceEvaluationLeavesOnlyFencedEntries :
    (∀ e ∈ mixed.entries .a, e.state ≠ .orphaned) ∧ (∀ e ∈ mixed.entries .b, e.state ≠ .orphaned) ∧
      ((mixed.evalFences .a).entries .a).map Entry.state = [.queued, .active, .replying, .held] := by decide +kernel

/-- One HELD entry of port A that nothing fences. -/
def free (k : ReqKind) (slot : Slot) : State := holding [{ served 1 k slot with state := .held, progress := none }]

/-- On SD, on a healthy and on a stalled slot, and at the head of a NAND queue with its block retired. -/
theorem witness_FenceEvaluationReleases :
    (free .read .sd).entries .a = [] ++ { served 1 .read .sd with state := .held, progress := none } :: [] ∧
      (free .read (.chip .s1)).healthy (.chip .s1) = true ∧
      { free .read (.chip .s1) with health := live.health.set .s1 .stalled }.healthy (.chip .s1) = false ∧
      (let s := { free .blkErase (.chip .s3) with retired := live.retired.set .s3 [3] }
       s.queue (.chip .s3) = [] ∧ (s.profile .s3).type = .nand ∧ (s.context .s3).state = .idle ∧ 3 ∈ s.retired.get .s3 ∧
         ((s.evalFences .a).entries .a).map Entry.status = [some .retired]) ∧
      ((free .read .sd).evalFences .a).queue .sd = [⟨.a, 1⟩] := by decide +kernel

theorem free_tableLaw (k : ReqKind) (slot : Slot) : (free k slot).TableLaw := by
  intro p; cases p
  · refine ⟨Nat.le_of_ble_eq_true rfl, List.nodup_singleton _, ?_⟩; intro e he
    simp only [free, holding, State.entries, ByPort.get, List.mem_singleton] at he; rw [he]; rfl
  · exact ⟨Nat.zero_le _, List.nodup_nil, by intro e he; cases he⟩

/-- A stalled NOR slot with two waiting entries. -/
def stalled : State :=
  { holding [waits 1 (.chip .s2), waits 2 (.chip .s2)] with
    health := live.health.set .s2 .stalled
    arbiter := { live.arbiter with queues := live.arbiter.queues.set (.chip .s2) [⟨.a, 1⟩, ⟨.a, 2⟩] } }

theorem witness_FlushAnswersEveryQueuedEntry :
    stalled.TableLaw ∧ stalled.healthy (.chip .s2) = false ∧ (stalled.queue (.chip .s2)).Nodup ∧
      (∀ r ∈ stalled.queue (.chip .s2), (stalled.find r).map Entry.slot = some (.chip .s2)) ∧
      (∀ r ∈ stalled.queue (.chip .s2), stalled.isQueued r = true) :=
  ⟨tableLaw_of_lists (by intro p; cases p <;> exact ⟨by decide +kernel, by decide +kernel, by decide +kernel⟩),
    by decide +kernel, by decide +kernel, by decide +kernel, by decide +kernel⟩

/-- A REPLYING entry of a kind with a status. -/
def answered (k : ReqKind) (st : Status) : State := holding [{ served 1 k .sd with state := .replying, status := some st }]

theorem witness_ReplyDataFollowsKindAndStatus :
    (∀ x ∈ [(ReqKind.read, Status.ok), (.read, .busTimeout), (.write, .ok), (.cset, .cmpMiss), (.fadd, .ok),
        (.pgRead, .eccFail), (.nandId, .ok), (.blkErase, .nandFail), (.read, .flushed)],
      ((answered x.1 x.2).find ⟨.a, 1⟩).map (fun e => (e.kind, e.status)) = some (x.1, some x.2)) := by decide +kernel

theorem witness_ClaimsKeepTheReserves :
    live.pool.free.Pairwise (· < ·) ∧ (8 - live.pool.holding.a) + (8 - live.pool.holding.b) ≤ live.pool.free.length ∧
      live.pool.canClaim .a 56 = true ∧ live.pool.canClaim .a 57 = false := by decide +kernel

theorem witness_StagingReadsBackWhatIsWritten :
    Memory.wf [(3, 5)] = true ∧ [0, 2].Nodup ∧ 510 + [(1 : Byte), 2].length ≤ 256 * [0, 2].length := by decide +kernel

theorem witness_ChunkEndsAtSixtyFourOrAtTheRange :
    (served 1 .read .sd).moved < (served 1 .read .sd).length ∧ settings.inRanges = true ∧
      ({ served 1 .read .sd with offset := 63, length := 2 } : Entry).chunkLength = 1 := by decide +kernel

theorem witness_BeatsCarryTheRange : 0 < 2 ∧ 0 < [(1 : Byte), 2].length ∧ 1 + 1 ≤ (1 + 2 - 1) / 2 - 1 / 2 + 1 ∧
    (writeBeats nor 2 1 [1, 2] [] 0 2 false).length = 2 ∧
    ((writeBeats nor 2 1 [1, 2] [] 0 2 false).map (fun x => (x.lines (.chip .s2) nor 0).mbe)) =
      [[some true, some false, some true, some true], [some false, some true, some true, some true]] := by
  decide +kernel

/-- R81, example 5.9.2: 24 beats of 16 bits in groups of 8 take 3 × (2 + 10 + 7 × 2 + 1) = 81 MCLK, and every beat of a group
but its first takes the burst pitch alone. -/
theorem test_nor_groups :
    let f := { nor with setup := 2, strobe := 10, hold := 1, burstBeats := 8, burstPitch := 2 }
    let beats := readBeats f 2 0x1010 48 (List.replicate 24 ⟨0, 0⟩) (beatCount 2 0x1010 48) false
    beats.length = 24 ∧ tenureMclk beats = 81 ∧
      beats[1]? = some (.beat false 0x809 [true, true] [0, 0] 0 2 0 true) := by decide +kernel

theorem witness_HelloAloneBringsThePortUp :
    live.startup.top = .running ∧ (live.port .b).held < 8 ∧ (live.port .b).state = .down ∧ (live.port .a).state = .up ∧
      ((after (.hello .b 0 [1]) live).port .b).state = .up := by decide +kernel

theorem reaches (k : CtrlKind) (d : List Byte) (h : d.length = k.size) : live.Reaches k .a 0 d :=
  ⟨.inl rfl, ⟨rfl, rfl⟩, by decide +kernel, h, fun _ => rfl⟩

theorem live_poolLaw : live.PoolLaw :=
  ⟨by decide +kernel, by decide +kernel, by intro p; cases p <;> decide +kernel, by decide +kernel⟩

theorem witness_QueriesAnswerAndChangeNothing :
    live.Reaches .status .a 0 [1] ∧ live.Reaches .winGet .a 0 [1, 7] ∧ live.Reaches .retireList .a 0 [1, 3] ∧ live.PoolLaw ∧
      live.windows[(7 : Byte).toNat]? = some Window.off ∧ live.windows.length ≤ (8 : Byte).toNat ∧
      chipOfCode 3 = some .s3 ∧ chipOfCode 5 = none ∧ (live.profile .s1).type ≠ .nand :=
  ⟨reaches _ _ rfl, reaches _ _ rfl, reaches _ _ rfl, live_poolLaw, rfl, by decide +kernel, by decide +kernel,
    by decide +kernel, by decide +kernel⟩

/-- A window block for the NOR slot: accepted at 64 KiB base, refused where it overlaps, is too large or is unaligned. -/
def winBlock (target base : Byte) (size : Byte) : List Byte := [1, target, 2, 2, 0, base, 0, 0, 0, size, 0, 0, 0, 0, 0, 0]

theorem witness_WinSetJudgesTheWholeRecord :
    live.Reaches .winSet .a 0 ([1, 7] ++ winBlock 2 0x20 0x10) ∧ at8 (winBlock 2 0x20 0x10) 0 = 1 ∧ at8 [2] 0 ≠ 0 ∧ at8 [2] 0 ≠ 1 ∧
      live.judgeWindow 7 (winBlock 2 0x20 0x10) ≠ .error .badArg ∧ live.judgeWindow 8 (winBlock 2 0x20 0x10) = .error .badArg ∧
      live.judgeWindow 7 (winBlock 2 0 0x10) = .error .conflict ∧ live.judgeWindow 7 (winBlock 3 0x20 0x10) = .error .badArg ∧
      State.reset.judgeWindow 7 (winBlock 5 0x20 0x10) = .error .notReady ∧
      live.judgeWindow 7 [1, 2, 2, 2, 0, 0, 4, 0, 0, 0, 2, 0, 0, 0, 0, 0] = .error .badArg :=
  ⟨reaches _ _ rfl, rfl, by decide, by decide, by decide +kernel, by decide +kernel, by decide +kernel, by decide +kernel,
    by decide +kernel, by decide +kernel⟩

theorem witness_WinSetDisablesWhateverTheOtherFieldsHold :
    live.Reaches .winSet .a 0 (1 :: 7 :: List.replicate 16 0) ∧ at8 (List.replicate 16 (0 : Byte)) 0 = 0 ∧
      (7 : Byte).toNat ≤ 7 ∧ 7 < (8 : Byte).toNat := ⟨reaches _ _ rfl, rfl, by decide, by decide⟩

theorem witness_SlotSetReplacesTheProfile :
    live.Reaches .slotSet .a 0 ([1, 4] ++ flash.block) ∧ live.Reaches .slotSet .a 0 ([1, 1] ++ flash.block) ∧
      live.Reaches .slotSet .a 0 ([1, 9] ++ flash.block) ∧ chipOfCode 9 = none ∧
      live.judgeSlot 4 flash.block = .ok (.s4, flash) ∧ live.judgeSlot 1 flash.block = .error .conflict ∧
      mixed.judgeSlot 2 flash.block = .error .busy ∧ live.judgeSlot 4 (List.replicate 32 7) = .error .badArg ∧
      (live.profile .s3).keepsList flash = true :=
  ⟨reaches _ _ rfl, reaches _ _ rfl, reaches _ _ rfl, rfl, by decide +kernel, by decide +kernel, by decide +kernel,
    by decide +kernel, by decide +kernel⟩

theorem witness_BlocksReadBackAsTheRecord :
    flash.Legal ∧ nor.Legal ∧ settings.inRanges = true ∧ onSram.Formed ∧ onSram.enabled = true ∧ onSram.offset < 2 ^ 32 ∧
      (profileOfBlock nor.block).isSome :=
  ⟨⟨by decide +kernel, by decide +kernel, by decide +kernel⟩, ⟨by decide +kernel, by decide +kernel, by decide +kernel⟩,
    by decide +kernel, .inr (by decide +kernel), rfl, by decide +kernel, by decide +kernel⟩

theorem witness_SlotClearReturnsTheHealth :
    live.Reaches .slotClear .a 0 [1, 3] ∧ live.Reaches .slotClear .a 0 [1, 1] ∧ chipOfCode 1 = some .s1 ∧
      (live.profile .s1).type ≠ .nand ∧ (live.profile .s3).type = .nand ∧ live.health.get .s3 = .ok ∧
      ({ live with health := live.health.set .s3 .stalled } : State).health.get .s3 = .stalled :=
  ⟨reaches _ _ rfl, reaches _ _ rfl, by decide +kernel, by decide +kernel, by decide +kernel, by decide +kernel,
    by decide +kernel⟩

theorem witness_SdrSetAndSdrSleepActByState :
    let free := { live with windows := List.replicate 8 Window.off }
    live.Reaches .sdrSet .a 0 (1 :: settings.block) ∧ live.Reaches .sdrSleep .a 0 [1] ∧ live.windowOn .sd = true ∧
      free.windowOn .sd = false ∧ free.judgeSdr settings.block = .ok settings ∧
      free.judgeSdr (List.replicate 17 0) = .error .badArg ∧ live.sdram.state = .ready ∧ live.queue .sd = [] ∧
      live.sdram.sleepPending = false ∧ State.reset.sdram.state = .uninit :=
  ⟨reaches _ _ rfl, reaches _ _ rfl, by decide +kernel, by decide +kernel, by decide +kernel, by decide +kernel, rfl, rfl,
    rfl, rfl⟩

/-- R94, R95: in READY MCKE is high already; from UNINIT the SDR-SET raises it. -/
theorem test_applySdr_mckeRoseAt :
    let s := fun (st : SdState) => ({ sdWith { live.sdram with state := st, mckeRoseAt := 3 } with now := 9 } : State)
    ((s .ready).applySdr settings none).sdram.mckeRoseAt = 3 ∧ ((s .uninit).applySdr settings none).sdram.mckeRoseAt = 9 := by
  decide +kernel

theorem witness_RetiredListTakesItsMessages :
    live.Reaches .retireAdd .a 0 [1, 3, 255, 0] ∧ live.Reaches .retireDrop .a 0 [1, 3, 255, 0] ∧ chipOfCode 0 = none ∧
      (live.profile .s3).type = .nand ∧ 255 < (live.profile .s3).blockCount ∧ 255 ∉ live.retired.get .s3 ∧
      32 ≤ (List.range 32).length ∧ [3, 9].Pairwise (· < ·) :=
  ⟨reaches _ _ rfl, reaches _ _ rfl, rfl, rfl, by decide +kernel, by decide +kernel, by decide, by decide⟩

/-- S3 with an erase and a program of the retired block 3 ahead of a read; the erase fences a HELD program behind it. -/
def retiredHeads : State :=
  let entry := fun tag k => { waits tag (.chip .s3) with kind := k, segments := [] }
  { holding [{ entry 1 .blkErase with ordered := true }, entry 2 .pgProg, entry 3 .pgRead,
      { entry 4 .pgProg with state := .held }] with
    retired := live.retired.set .s3 [3]
    arbiter := { live.arbiter with queues := live.arbiter.queues.set (.chip .s3) [⟨.a, 1⟩, ⟨.a, 2⟩, ⟨.a, 3⟩] } }

/-- R123: both retired heads complete in one examination, the read stays at the head, and the program that the erase fenced
joins behind it. The examination goes on from the state after the first head. -/
theorem test_examine :
    let s := retiredHeads
    (s.examine .s3).queue (.chip .s3) = [⟨.a, 3⟩, ⟨.a, 4⟩] ∧
      ((s.examine .s3).entries .a).map Entry.status = [some .retired, some .retired, none, none] ∧
      s.examine .s3 = (((s.dequeue (.chip .s3) ⟨.a, 1⟩).finish ⟨.a, 1⟩ .retired).evalFences .a).examine .s3 ∧
      (s.examine .s3).examine .s3 = s.examine .s3 := by decide +kernel

theorem witness_ExaminationsRetireTheirHeads :
    retiredHeads.TableLaw ∧ (retiredHeads.profile .s3).type = .nand ∧ (retiredHeads.context .s3).state = .idle ∧
      retiredHeads.health.get .s3 = .ok ∧ (retiredHeads.find ⟨.a, 1⟩).map Entry.block = some 3 ∧
      3 ∈ retiredHeads.retired.get .s3 ∧ live.queue (.chip .s3) = [] :=
  ⟨tableLaw_of_lists (by intro p; cases p <;> exact ⟨by decide +kernel, by decide +kernel, by decide +kernel⟩),
    by decide +kernel, by decide +kernel, by decide +kernel, by decide +kernel, by decide +kernel, by decide +kernel⟩

theorem witness_CancelAndBridgeResetAnswerOnce :
    mixed.Reaches .cancel .a 0 [1, 4] ∧ mixed.Reaches .bridgeReset .a 0 [1] ∧ mixed.find ⟨.a, 9⟩ = none ∧
      (∀ x ∈ [((1 : Byte), EntryState.queued), (2, .active), (3, .replying), (4, .held)],
        (mixed.find ⟨.a, x.1⟩).map (fun e => (e.port, e.state)) = some (.a, x.2)) ∧ mixed.bridgeReset = none :=
  ⟨⟨.inl rfl, ⟨rfl, rfl⟩, by decide +kernel, rfl, fun _ => rfl⟩, ⟨.inl rfl, ⟨rfl, rfl⟩, by decide +kernel, rfl, fun _ => rfl⟩, by decide +kernel,
    by decide +kernel, rfl⟩

theorem witness_TenureEndIsRecordedAndGapsAreCounted :
    let s := { stalled with health := live.health }
    let used := fun k write => ({ s with arbiter := { s.arbiter with lastUsed := some k, endTime := some 0, lastWrite := write } } : State)
    (working .read (.chip .s1) .chunk).arbiter.tenure = some (tenure (.chip .s1) .chunk) ∧ s.arbiter.tenure = none ∧
      s.winner = some (.chip .s2) ∧ (used .sd true).winner = some (.chip .s2) ∧
      (used (.chip .s2) false).winner = some (.chip .s2) ∧ (used (.chip .s1) false).winner = some (.chip .s2) := by
  decide +kernel

theorem working_tableLaw (k : ReqKind) (slot : Slot) (x : Purpose) : (working k slot x).TableLaw := by
  intro p; cases p
  · refine ⟨Nat.le_of_ble_eq_true rfl, List.nodup_singleton _, ?_⟩; intro e he
    simp only [working, holding, State.entries, ByPort.get, List.mem_singleton] at he; rw [he]; rfl
  · exact ⟨Nat.zero_le _, List.nodup_nil, by intro e he; cases he⟩

theorem witness_StaticChunkMovesItsBytes :
    let s := working .write (.chip .s1) .chunk
    s.TableLaw ∧ s.arbiter.tenure = some (tenure (.chip .s1) .chunk) ∧
      s.find ⟨.a, 1⟩ = some (served 1 .write (.chip .s1)) ∧
      (served 1 .write (.chip .s1)).moved + (served 1 .write (.chip .s1)).chunkLength = 4 ∧
      ({ served 1 .write (.chip .s1) with length := 65 } : Entry).chunkLength ≠ 65 :=
  ⟨working_tableLaw _ _ _, rfl, by decide +kernel, by decide +kernel, by decide +kernel⟩

theorem witness_SdChunkMovesItsBytesAndKeepsTheRowTable :
    let s := working .read .sd .chunk
    s.TableLaw ∧ s.arbiter.tenure = some (tenure .sd .chunk) ∧ s.find ⟨.a, 1⟩ = some (served 1 .read .sd) ∧
      s.sdram.settings.inRanges = true ∧ s.sdram.rows.length = s.sdram.settings.banks :=
  ⟨working_tableLaw _ _ _, rfl, by decide +kernel, by decide +kernel, by decide +kernel⟩

theorem witness_AtomicReadsDecidesAndWrites :
    (working .cset (.chip .s1) .atomic).TableLaw ∧ (working .swap .sd .atomic).TableLaw ∧
      (working .cset (.chip .s1) .atomic).arbiter.tenure = some (tenure (.chip .s1) .atomic) ∧
      (working .swap .sd .atomic).arbiter.tenure = some (tenure .sd .atomic) ∧
      (working .swap .sd .atomic).find ⟨.a, 1⟩ = some (served 1 .swap .sd) :=
  ⟨working_tableLaw _ _ _, working_tableLaw _ _ _, rfl, rfl, by decide +kernel⟩

theorem witness_WaitLimitStallsTheSlot :
    let s := working .write (.chip .s1) .chunk
    s.TableLaw ∧ s.arbiter.tenure = some (tenure (.chip .s1) .chunk) ∧ (s.profile .s1).waitLimit ≠ 0 ∧
      3 < beatCount ((s.profile .s1).width / 8) 0 4 ∧ (live.profile .s4).waitLimit = 0 ∧
      (working .fadd (.chip .s1) .atomic).TableLaw ∧ (served 1 .fadd (.chip .s1)).moved = 0 ∧
      ((served 1 .fadd (.chip .s1)).newBytes 1 []).isSome ∧ 7 < 2 * beatCount 1 0 4 :=
  ⟨working_tableLaw _ _ _, rfl, by decide +kernel, by decide +kernel, rfl, working_tableLaw _ _ _, by decide +kernel, rfl,
    by decide +kernel⟩

theorem flashing_tableLaw (k : ReqKind) (x : Context) (y : Purpose) : (flashing k x y).TableLaw := by
  intro p; cases p
  · refine ⟨Nat.le_of_ble_eq_true rfl, List.nodup_singleton _, ?_⟩; intro e he
    simp only [flashing, holding, State.entries, ByPort.get, List.mem_singleton] at he; rw [he]; rfl
  · exact ⟨Nat.zero_le _, List.nodup_nil, by intro e he; cases he⟩

/-- The contexts that the ends of the NAND tenures meet. -/
def busy (op : NandOp) : Context := { Context.idle with state := .busy, op := some op, left := 1 }

theorem witness_BusyPeriodsBeginAtTenureEnds :
    (flashing .blkErase (busy .erase) .nandCommand).TableLaw ∧
      ((flashing .blkErase (busy .erase) .nandCommand).context .s3).op = some .erase ∧
      ((flashing .pgRead (busy .read) .nandCommand).context .s3).op = some .read ∧
      ((flashing .pgProg { busy .program with state := .loading } .nandLoad).context .s3).state = .loading ∧
      (flashing .pgProg (busy .program) .nandLoad).find ⟨.a, 1⟩ = some (served 1 .pgProg (.chip .s3)) ∧
      (flashing .pgProg (busy .program) .nandLoad).arbiter.tenure = some (tenure (.chip .s3) .nandLoad) :=
  ⟨flashing_tableLaw _ _ _, rfl, rfl, rfl, by decide +kernel, rfl⟩

/-- R120, R121: the read command of page 2 of block 3 on a small page sends 00, column 0 and the row 98 in 2 bytes; an
unloading of sector 1 of a large page at width 16 sends 05, the word column 264, E0 and 264 data cycles. -/
theorem test_nand_cycles :
    readCommandCycles flash 3 2 =
        [.nand (.command 0), .nand (.address 0), .nand (.address 98), .nand (.address 0), .idle 10] ∧
      (unloadingCycles { flash with width := 16, pageSize := 2048 } 1 (List.replicate 528 7)).take 6 =
        [.nand (.command 5), .nand (.address 8), .nand (.address 1), .nand (.command 0xE0), .idle 8, .nand (.dataOut [7, 7])] ∧
      tenureMclk (unloadingCycles { flash with width := 16, pageSize := 2048 } 1 (List.replicate 528 7)) = 1080 := by
  decide +kernel

theorem witness_NandOperationsEndWithTheirStatus :
    (flashing .pgRead { busy .read with state := .unloading } .nandUnload).TableLaw ∧
      ((flashing .pgRead { busy .read with state := .unloading } .nandUnload).context .s3).entry = some ⟨.a, 1⟩ ∧
      (flashing .pgRead { busy .read with state := .unloading } .nandUnload).find ⟨.a, 1⟩ =
        some (served 1 .pgRead (.chip .s3)) ∧
      (List.replicate 528 (0 : Byte)).length = 528 ∧ (0xE0 : Byte).getLsbD 0 = false ∧ (0xE1 : Byte).getLsbD 0 = true ∧
      3 ∉ live.retired.get .s3 ∧ (live.retired.get .s3).length < 32 :=
  ⟨flashing_tableLaw _ _ _, rfl, by decide +kernel, by decide +kernel, by decide, by decide, by decide +kernel,
    by decide +kernel⟩

theorem witness_ResetsRisesAndExpiriesMoveTheContext :
    let armed := fun st => flashing .pgRead { busy .read with state := st, timer := some ⟨10, 0⟩ } .nandReset
    (∀ st ∈ [CtxState.busy, .recovering, .clearing],
        (armed st).startup.load = none ∧ ((armed st).context .s3).state = st ∧ ((armed st).context .s3).timer ≠ none ∧
          ((armed st).context .s3).entry = some ⟨.a, 1⟩) ∧ (live.context .s3).timer = none ∧
      (armed .recovering).arbiter.tenure = some (tenure (.chip .s3) .nandReset) := by decide +kernel

theorem witness_EncodedSectorsReadBackClean :
    (List.replicate 528 (0 : Byte)).length = 528 ∧ EccMode.h1 ≠ .none ∧
      EccMode.h1.t < zeroBits (List.replicate 528 0) ∧ zeroBits (List.replicate 528 0xFF) ≤ EccMode.h1.t ∧
      SectorResult.failed ∈ [SectorResult.clean, .failed] ∧ SectorResult.failed ∉ [SectorResult.corrected 1] ∧
      (∃ k, SectorResult.corrected k ∈ [SectorResult.corrected 1] ∧ 1 ≤ k) :=
  ⟨by decide +kernel, by decide, by decide +kernel, by decide +kernel, by decide, by decide, 1, by decide, by decide⟩

/-- The erased test at its bound: one zero bit is within it under H1, and two are not; eight are under B8. -/
theorem witness_ErasedTestTakesAnySector :
    let sector := fun (b : Byte) => b :: List.replicate 527 0xFF
    (sector 0xFE).length = 528 ∧ zeroBits (sector 0xFE) = EccMode.h1.t ∧ EccMode.h1.t < zeroBits (sector 0xFC) ∧
      zeroBits (sector 0) = EccMode.b8.t := by decide +kernel

/-- An erased sector but for its mark byte, which is 0, and its first byte. -/
def disturbed (first : Byte) : List Byte := first :: List.replicate 511 0xFF ++ 0 :: List.replicate 15 0xFF

/-- The bits in which the disturbed sector differs from the erased codeword (R147). -/
theorem disturbed_apart (m : EccMode) (h : m ≠ .none) (first : Byte) :
    bitDistance (protectedMessage m (disturbed first) ++ heldCheck m (disturbed first))
        (List.replicate (512 + (coveredSpare m).length) 0xFF ++
          checkBytes m (List.replicate (512 + (coveredSpare m).length) 0xFF)) =
      bitDistance (protectedMessage m (disturbed first) ++ heldCheck m (disturbed first))
        (List.replicate (512 + (coveredSpare m).length) 0xFF ++ List.replicate (checkSpare m).length 0xFF) := by
  rw [checkBytes_erased m h]

/-- R151: one bit from the erased H1 codeword, eight bits from the erased B8 one, and two bits from the H1 one and so more
than one from every other, in a sector with more zero bits than the code corrects. -/
theorem witness_SectorsNearACodeword :
    (let held := fun b => protectedMessage .h1 (disturbed b) ++ heldCheck .h1 (disturbed b)
     let erased := List.replicate 524 0xFF ++ checkBytes .h1 (List.replicate 524 0xFF)
     (disturbed 0xFE).length = 528 ∧ EccMode.h1.t < zeroBits (disturbed 0xFE) ∧ bitDistance (held 0xFE) erased = 1 ∧
       bitDistance (held 0xFC) erased = 2 ∧
       ∀ msg : List Byte, msg.length = 524 → 1 < bitDistance (held 0xFC) (msg ++ checkBytes .h1 msg)) ∧
    EccMode.b8.t < zeroBits (disturbed 0) ∧
    bitDistance (protectedMessage .b8 (disturbed 0) ++ heldCheck .b8 (disturbed 0))
      (List.replicate 513 0xFF ++ checkBytes .b8 (List.replicate 513 0xFF)) = 8 := by
  have two : bitDistance (protectedMessage .h1 (disturbed 0xFC) ++ heldCheck .h1 (disturbed 0xFC))
      (List.replicate 524 0xFF ++ checkBytes .h1 (List.replicate 524 0xFF)) = 2 :=
    (disturbed_apart .h1 (by decide) 0xFC).trans (by decide +kernel)
  refine ⟨⟨by decide +kernel, by decide +kernel, (disturbed_apart .h1 (by decide) 0xFE).trans (by decide +kernel), two, ?_⟩,
    by decide +kernel, (disturbed_apart .b8 (by decide) 0).trans (by decide +kernel)⟩
  intro msg hm
  by_cases h : msg = List.replicate 524 0xFF
  · rw [h, two]; decide
  · have far := h1_apart hm (List.length_replicate ..) h
    have held : (protectedMessage .h1 (disturbed 0xFC) ++ heldCheck .h1 (disturbed 0xFC)).length = 527 := by decide +kernel
    have word : ∀ x : List Byte, x.length = 524 → (x ++ checkBytes .h1 x).length = 527 := by
      intro x hx; rw [List.length_append, hx, checkBytes_length]; rfl
    have sum := bitDistance_triangle ((word msg hm).trans held.symm)
      (held.trans (word (List.replicate 524 0xFF) (List.length_replicate ..)).symm)
    rw [two] at sum
    have swap : bitDistance (msg ++ checkBytes .h1 msg)
        (protectedMessage .h1 (disturbed 0xFC) ++ heldCheck .h1 (disturbed 0xFC)) =
        bitDistance (protectedMessage .h1 (disturbed 0xFC) ++ heldCheck .h1 (disturbed 0xFC))
          (msg ++ checkBytes .h1 msg) := bitDistance_comm _ _
    show 1 < bitDistance (protectedMessage .h1 (disturbed 0xFC) ++ heldCheck .h1 (disturbed 0xFC))
      (msg ++ checkBytes .h1 msg)
    omega

/-- R147: nine bits from the erased B8 codeword, one more than B8 corrects, in a sector with more zero bits than that. -/
theorem witness_B8SectorNineBitsAway :
    let sector : List Byte := 0 :: 0xFE :: List.replicate 510 0xFF ++ 0 :: List.replicate 15 0xFF
    sector.length = 528 ∧ EccMode.b8.t < zeroBits sector ∧
      bitDistance (protectedMessage .b8 sector ++ heldCheck .b8 sector)
        (List.replicate 513 0xFF ++ checkBytes .b8 (List.replicate 513 0xFF)) = EccMode.b8.t + 1 := by
  refine ⟨by decide +kernel, by decide +kernel, ?_⟩
  rw [show checkBytes .b8 (List.replicate 513 0xFF) = List.replicate 14 0xFF from checkBytes_erased .b8 (by decide)]
  decide +kernel

theorem witness_RefreshDebtRisesAndIsPaid :
    live.sdram.refreshTimer ≠ none ∧ live.sdram.debt < 8 ∧ State.reset.sdram.refreshTimer = none ∧
      8 ≤ ({ live.sdram with debt := 8 } : Sdram).debt ∧
      (working .read .sd (.refreshRound 3)).arbiter.tenure = some (tenure .sd (.refreshRound 3)) := by decide +kernel

theorem witness_IdleSdramPowersDownAndSleeps :
    (sdWith { live.sdram with powerDownTimer := some 5 }).canPowerDown = true ∧
      (sdWith { live.sdram with powerDownTimer := some 4 }).canPowerDown = false ∧ urgent.canPowerDown = false ∧ live.sdram.selfRefreshTimer = some 0 ∧
      live.sdram.settings.selfRefreshIdle ≤ 9 ∧
      (after .selfRefreshTimer (sdWith { live.sdram with selfRefreshTimer := some 9 })).arbiter.tenure.map (·.purpose) =
        some (.selfRefreshEntry 0) ∧
      after .selfRefreshTimer (sdWith { live.sdram with selfRefreshTimer := some 8 }) =
        sdWith { live.sdram with selfRefreshTimer := some 8 } ∧
      live.sdram.state = .ready ∧ live.sdram.settings.selfRefreshIdle ≠ 0 ∧
      (working .read .sd (.selfRefreshEntry 2)).arbiter.tenure = some (tenure .sd (.selfRefreshEntry 2)) ∧
      (working .read .sd .selfRefreshExit).arbiter.tenure = some (tenure .sd .selfRefreshExit) ∧
      ({ live.sdram with state := .selfRefresh } : Sdram).state = .selfRefresh := by decide +kernel

/-- R99, R101: with both timers at their thresholds the self-refresh entry is due, and POWERDOWN is not entered, though
SELF_REFRESH_TIMER is still to be taken. -/
theorem test_powerdownEntry_selfRefreshDue :
    let s := fun n => sdWith { live.sdram with powerDownTimer := some 9, selfRefreshTimer := some n }
    live.sdram.settings.selfRefreshIdle = 9 ∧ (s 8).canPowerDown = true ∧ (s 9).canPowerDown = false ∧
      (s 9).selfRefreshDue = false := by decide +kernel

theorem witness_InitialisationStepsEndInReady :
    ({ live.sdram with init := .waiting } : Sdram).init = .waiting ∧ live.sdram.init ≠ .waiting ∧
      (working .read .sd .initPrecharge).arbiter.tenure = some (tenure .sd .initPrecharge) ∧
      (working .read .sd .initRefresh).arbiter.tenure = some (tenure .sd .initRefresh) ∧
      (working .read .sd .initMode).arbiter.tenure = some (tenure .sd .initMode) ∧ live.startup.top = .running ∧
      ({ live with startup := { live.startup with top := .starting .settle } } : State).startup.top ≠ .running := by
  decide +kernel

/-- A part started with BOOT 01 and with BOOT 10. -/
def booted (boot : BitVec 2) : State := after (.resetPin { Pins.default with boot := boot }) State.reset

theorem witness_SetupLoadEndsInACopyOrTheDefaults :
    (booted 1).startup.load = some ⟨false, .norChunks, 0⟩ ∧ ((booted 1).arbiter.tenure).map Tenure.purpose = some .loadChunk ∧
      (booted 2).startup.load = some ⟨false, .firstReset, 0⟩ ∧ ((booted 2).port .a).state = .down ∧
      ((booted 2).port .b).state = .down ∧
      ((after (.resetTenureEnd false) (booted 2)).context .s1).timer = some ⟨1000, 0⟩ ∧
      ((after (.resetTenureEnd false) (booted 2)).context .s1).state = .recovering ∧
      ((after (.resetTenureEnd true) (booted 2)).context .s1).state = .busy ∧
      ((after (.resetTenureEnd true) (booted 2)).arbiter.tenure).map Tenure.purpose = some .nandCommand ∧
      ((after (.nandCommandEnd true) (after (.resetTenureEnd true) (booted 2))).arbiter.tenure).map Tenure.purpose =
        some .nandUnload := by decide +kernel

/-- A part in the NOR load with chunks read, and one in the NAND load with S1's context so. -/
def chunked (n : Nat) : State :=
  { booted 1 with startup := { (booted 1).startup with load := some ⟨true, .norChunks, n⟩, buffer := List.replicate 512 1 } }

def nandLoad (x : LoadPhase) (st : CtxState) (y : Purpose) : State :=
  { booted 2 with
    arbiter := { (booted 2).arbiter with tenure := some ⟨.chip .s1, y, none, 0, 0⟩ }
    nand := (booted 2).nand.set .s1 { Context.idle with state := st, op := some .read, timer := some ⟨1000, 0⟩ }
    startup := { (booted 2).startup with load := some ⟨false, x, 0⟩ } }

theorem witness_SetupLoadPlaces :
    (chunked 0).startup.load = some ⟨true, .norChunks, 0⟩ ∧ (chunked 7).startup.load = some ⟨true, .norChunks, 7⟩ ∧
      ((chunked 7).arbiter.tenure).map Tenure.purpose = some .loadChunk ∧
      ((booted 2).arbiter.tenure).map (fun t => (t.slot, t.purpose)) = some (.chip .s1, .nandReset) ∧
      ((booted 2).context .s1).state = .recovering ∧ ((booted 2).context .s1).timer = none ∧
      ((nandLoad .timeoutReset .recovering .nandReset).context .s1).timer ≠ none ∧
      ((nandLoad .reading .busy .nandCommand).context .s1).state = .busy ∧
      ((nandLoad .reading .busy .nandCommand).context .s1).entry = none ∧
      ((nandLoad .reading .unloading .nandUnload).arbiter.tenure).map Tenure.purpose = some .nandUnload ∧
      ((nandLoad .reading .busy .nandCommand).port .b).state = .down ∧ live.startup.load = none := by decide +kernel

/-- R187, R190: chunk 0 fills the first 64 places of the buffer, and the bytes after them stay. -/
theorem test_nor_chunk :
    let t := after (.chunkEnd (List.replicate 32 ⟨0x0302, 0⟩)) (chunked 0)
    t.startup.buffer.take 66 = (List.range 64).map (fun i => if i % 2 = 0 then 2 else 3) ++ [1, 1] ∧
      t.startup.load = some ⟨true, .norChunks, 1⟩ := by decide +kernel

/-- A part in the walk of a record with one entry. -/
def walking (entry : List Byte) : State :=
  { booted 1 with
    arbiter := { (booted 1).arbiter with tenure := none }
    startup := { (booted 1).startup with
      top := .starting .apply, load := none, walk := some ⟨8, 0⟩
      buffer := [0x5A, 0xC3, 0x24, 0x06, 1, 1, byte (12 + entry.length), 0] ++ entry ++ [0, 0, 0, 0] } }

/-- R192, R195: a PORTS entry gives port B the CONFIG right, and the part is RUNNING after the last entry. -/
theorem test_ports_entry :
    let t := after .setupPortsEntry (walking [1, 4, 0, 1])
    (t.port .a).config = false ∧ (t.port .b).config = true ∧ t.startup.top = .running ∧ t.startup.result.applied = 1 := by
  decide +kernel

theorem witness_SetupWalkAppliesOrSkipsEachEntry :
    let s := walking [1, 4, 0, 1]
    s.startup.walk = some ⟨8, 0⟩ ∧ (at8 s.startup.buffer 9).toNat = 4 ∧ 8 + 4 ≤ field s.startup.buffer 6 2 - 4 ∧
      8 + 4 ≤ s.startup.buffer.length ∧ (at8 s.startup.buffer 8).toNat = 1 ∧ grantOfCode 0 = some false ∧
      (walking [7, 3, 0, 0]).startup.walk = some ⟨8, 0⟩ ∧ (at8 (walking [7, 3, 0, 0]).startup.buffer 9).toNat < 4 := by
  decide +kernel

/-- A SLOT entry and an SDRAM entry reached by the walk, each with a block that its judgement takes and one that it refuses. -/
theorem witness_SetupSlotAndSdramEntries :
    let slot := [2, 35, 3] ++ flash.block
    let sdram := [3, 19] ++ settings.block
    (∀ e ∈ [slot, sdram],
      let s := walking e
      s.startup.walk = some ⟨8, 0⟩ ∧ (at8 s.startup.buffer 9).toNat = e.length ∧
        8 + e.length ≤ field s.startup.buffer 6 2 - 4 ∧ 8 + e.length ≤ s.startup.buffer.length ∧
        (s.startup.buffer.drop 8).take e.length = e) ∧
      slot.length = 35 ∧ sdram.length = 19 ∧ (at8 slot 0).toNat = 2 ∧ (at8 sdram 0).toNat = 3 ∧
      (walking slot).judgeSlot (at8 slot 2) (slot.drop 3) = .ok (.s3, flash) ∧
      (walking slot).judgeSlot (at8 slot 2) (List.replicate 32 0xFF) = .error .badArg ∧
      (walking sdram).judgeSdr (sdram.drop 2) = .ok settings ∧
      (walking sdram).judgeSdr (List.replicate 17 0) = .error .badArg := by decide +kernel

/-- R192: the SLOT entry gives S3 its profile, and the SDRAM entry begins the initialisation, which holds off RUNNING. -/
theorem test_slot_and_sdram_entries :
    let t := after .setupSlotEntry (walking ([2, 35, 3] ++ flash.block))
    let u := after .setupSdramEntry (walking ([3, 19] ++ settings.block))
    t.profile .s3 = flash ∧ t.startup.result.applied = 1 ∧ u.sdram.settings = settings ∧
      u.sdram.state = .initialising ∧ u.startup.top ≠ .running := by decide +kernel

/-- A part in the walk of a WINDOW entry for index 7, with an SD window of that index put off. -/
def putOff : State :=
  let s := walking ([4, 19, 7] ++ winBlock 2 0x20 0x10)
  { s with startup := { s.startup with deferred := [⟨0, 7, winBlock 5 0x20 0x10⟩] } }

/-- A part in the walk of a RETIRE entry for S3 with the blocks 255 and 256, of 256. -/
def retiring : State :=
  let s := walking [5, 8, 3, 2, 255, 0, 0, 1]
  { s with arbiter := { s.arbiter with profiles := live.arbiter.profiles } }

theorem witness_SetupWindowAndRetireEntries :
    putOff.startup.deferred = [] ++ ⟨0, 7, winBlock 5 0x20 0x10⟩ :: [] ∧ (at8 putOff.startup.buffer 8).toNat = 4 ∧
      (at8 putOff.startup.buffer 9).toNat = 19 ∧ (at8 putOff.startup.buffer 10).toNat = 7 ∧
      8 + 19 ≤ field putOff.startup.buffer 6 2 - 4 ∧ 8 + 19 ≤ putOff.startup.buffer.length ∧
      putOff.judgeWindow 7 (winBlock 5 0x20 0x10) = .error .notReady ∧
      live.judgeWindow 7 (winBlock 5 0x20 0x10) =
        .ok { onSdram with base := 0x2000, size := 0x1000, rights := ⟨.readWrite, .readWrite⟩ } ∧
      (retiring.profile .s3).type = .nand ∧ retiring.retired.get .s3 = [] ∧
      retireBlocks [5, 8, 3, 2, 255, 0, 0, 1] = [255, 256] ∧ (retiring.profile .s3).blockCount = 256 := by decide +kernel

/-- R194: the block that fits stays on the list, and the entry counts as skipped. -/
theorem test_retire_entry :
    let t := after .setupRetireEntry retiring
    t.retired.get .s3 = [255] ∧ t.startup.result.skipped = 1 ∧ t.startup.result.applied = 0 := by decide +kernel

/-- R193: the entry put off is counted skipped. -/
theorem test_superseded_window :
    (after .setupWindowEntry putOff).startup.deferred = [] ∧ 1 ≤ (after .setupWindowEntry putOff).startup.result.skipped := by
  decide +kernel

theorem witness_EveryStepKeepsTheLaws : (∃ t, step State.reset = .next t) ∧ (∃ t, step live = .next t) ∧ live.WindowLaw ∧
    live.PoolLaw ∧ Memory.wf live.pool.bytes = true := ⟨⟨_, rfl⟩, ⟨_, rfl⟩, live_windowLaw, live_poolLaw, rfl⟩

theorem working_targetLaw : (working .read (.chip .s1) .chunk).TargetLaw := by
  intro w hw he
  simp only [working, holding, live, List.cons_append, List.nil_append, List.mem_cons, List.mem_replicate] at hw
  rcases hw with rfl | rfl | ⟨_, rfl⟩
  · exact ⟨_, rfl, by decide +kernel, by decide +kernel⟩
  · exact ⟨_, rfl, by decide +kernel, by decide +kernel⟩
  · cases he

theorem working_profileLaw : (working .read (.chip .s1) .chunk).ProfileLaw := by
  intro c; cases c
  · exact ⟨by decide +kernel, by decide +kernel, by decide +kernel⟩
  · exact ⟨by decide +kernel, by decide +kernel, by decide +kernel⟩
  · exact ⟨by decide +kernel, by decide +kernel, by decide +kernel⟩
  · exact ⟨by decide +kernel, rfl⟩

theorem working_queueLaw : (working .read (.chip .s1) .chunk).QueueLaw := by
  refine ⟨?_, ?_, by intro r hr; cases hr⟩
  · intro k; cases k with
    | sd => exact ⟨List.nodup_nil, by intro r hr; cases hr⟩
    | chip c =>
      cases c
      · refine ⟨List.nodup_singleton _, ?_⟩
        intro r hr
        obtain rfl := List.mem_singleton.mp hr
        exact ⟨_, rfl, rfl, .inr (.inl rfl)⟩
      all_goals exact ⟨List.nodup_nil, by intro r hr; cases hr⟩
  · intro p e he hq; cases p
    · obtain rfl := List.mem_singleton.mp he
      cases hq
    · cases he

theorem working_workLaws :
    (working .read (.chip .s1) .chunk).KindLaw ∧ (working .read (.chip .s1) .chunk).WorkLaw ∧
      (working .read (.chip .s1) .chunk).ReplyLaw := by
  refine ⟨?_, ⟨?_, ?_⟩, ?_⟩
  · intro p e he _; cases p
    · obtain rfl := List.mem_singleton.mp he
      exact ⟨by decide +kernel, by decide +kernel⟩
    · cases he
  · intro c r hr; cases c <;> cases hr
  · intro t r ht hr _
    cases ht; cases hr
    exact ⟨.head _, _, rfl, rfl, .inl rfl⟩
  · intro p; cases p <;> exact ⟨List.nodup_nil, by intro tag h; cases h⟩

/-- A part at the bound of the refresh debt, and one with a self-refresh entry on the bus that has taken its debt of 2. -/
theorem witness_EveryStepKeepsTheRefreshDebt :
    let owing := sdWith { live.sdram with debt := 8 }
    let entering : State := { working .read .sd (.selfRefreshEntry 2) with sdram := { live.sdram with refreshTimer := none } }
    owing.DebtLaw ∧ entering.DebtLaw ∧ entering.entryDebt = some 2 ∧
      (∃ t, step { owing with pending := [.refreshExpiry] } = .next t) ∧
      ∃ t, step { entering with pending := [.selfRefreshEntryEnd] } = .next t :=
  ⟨⟨by decide +kernel, by decide +kernel, by decide +kernel, by decide +kernel⟩,
    ⟨by decide +kernel, by decide +kernel, by decide +kernel, by decide +kernel⟩, rfl, ⟨_, rfl⟩, ⟨_, rfl⟩⟩

/-- A part with port A's notice queue full and notices lost, two NOTICE frames and an answer on its ready list, and two
deferred replies: of an SDR-SET of A in INITIALISING, and of a SLOT-CLEAR of the stalled S3. -/
def answering : State :=
  { live with
    ports := live.ports.set .a { live.port .a with
      ready := [.notice 0 (.seqGap 0 1), .ctrl 1 .info .ok [], .notice 1 (.seqGap 0 1)], held := 3 }
    notices := live.notices.set .a { live.notices.a with
      queue := (List.range 8).map (fun i => (BitVec.ofNat 16 (i + 2), .seqGap 0 1)), onList := 2, lost := 5 }
    sdram := { live.sdram with
      state := .initialising, init := .waiting, setReply := some ⟨.a, 1⟩, refreshTimer := none, powerDownTimer := none
      selfRefreshTimer := none }
    health := live.health.set .s3 .clearing
    nand := live.nand.set .s3 { Context.idle with state := .clearing, op := some .reset, clearReply := some ⟨.a, 2⟩ } }

/-- The part that answers meets the laws of notices, slots and deferred replies, and a part in the setup load that of STARTING. -/
theorem witness_EveryStepKeepsNoticesAndReplySlots :
    answering.NoticeLaw ∧ answering.SlotLaw ∧ answering.DeferredLaw ∧ answering.StartingLaw ∧
      (∃ t, step { answering with pending := [.stabilisationWaitEnd] } = .next t) ∧
      (booted 1).StartingLaw ∧ (booted 1).startup.top ≠ .running ∧ (booted 1).startup.load.isSome :=
  ⟨by intro p; cases p <;> decide +kernel, by intro p; cases p <;> decide +kernel,
    ⟨by decide +kernel, by decide +kernel, by intro c; cases c <;> decide +kernel, by intro c; cases c <;> decide +kernel⟩,
    ⟨by decide +kernel, fun h => absurd rfl h⟩, ⟨_, rfl⟩,
    ⟨by decide +kernel, fun _ p => by cases p <;> decide +kernel⟩, by decide +kernel, by decide +kernel⟩

/-- A part with a chunk in progress meets the laws of the slot queues and of the retired lists. -/
theorem witness_EveryStepKeepsQueuesAndLists :
    let s := working .read (.chip .s1) .chunk
    s.TableLaw ∧ s.TargetLaw ∧ s.ProfileLaw ∧ s.QueueLaw ∧ s.KindLaw ∧ s.WorkLaw ∧ s.ReplyLaw ∧ s.RetiredLaw ∧
      s.ListPlaceLaw ∧ ∃ t, step { s with pending := [.chunkEnd []] } = .next t :=
  ⟨working_tableLaw _ _ _, working_targetLaw, working_profileLaw, working_queueLaw, working_workLaws.1, working_workLaws.2.1,
    working_workLaws.2.2, by intro c; cases c <;> exact ⟨List.Pairwise.nil, by decide⟩,
    by intro c; cases c <;> exact ⟨fun _ => rfl, by intro b hb; cases hb⟩, ⟨_, rfl⟩⟩

end Sys2Proof.Tests
end

section
/-! The Request Table read by the names of its entries: what `find` answers after each update, and that the table law
rests on the names alone (R6, R7). -/
namespace Sys2Proof.Machine

/-! ### Looking an entry up -/

theorem State.find_mem {s : State} {r : Ref} {e : Entry} (h : s.find r = some e) : e ∈ s.entries r.port :=
  List.mem_of_find?_eq_some h

theorem State.find_tag {s : State} {r : Ref} {e : Entry} (h : s.find r = some e) : e.tag = r.tag := by
  simpa using List.find?_some h

/-- A lookup depends on the table alone. -/
theorem State.find_of_table {s t : State} (h : t.table = s.table) (r : Ref) : t.find r = s.find r := by
  simp only [State.find, State.entries, h]

theorem State.entries_of_table {s t : State} (h : t.table = s.table) (p : Port) : t.entries p = s.entries p := by
  simp only [State.entries, h]

/-- Under the table law an entry's own name is the name it is found by. -/
theorem State.TableLaw.ref_of_find {s : State} (ht : s.TableLaw) {r : Ref} {e : Entry} (h : s.find r = some e) :
    e.ref = r := by
  obtain ⟨-, -, hport⟩ := ht r.port
  cases r
  simp [Entry.ref, hport e (State.find_mem h), State.find_tag h]

/-- Under the table law the entries before and after the one found carry other tags. -/
theorem State.TableLaw.split_of_mem {s : State} (ht : s.TableLaw) {p : Port} {older younger : List Entry} {e : Entry}
    (h : s.entries p = older ++ e :: younger) : (∀ x ∈ older, x.tag ≠ e.tag) ∧ ∀ x ∈ younger, x.tag ≠ e.tag := by
  obtain ⟨-, hn, -⟩ := ht p
  rw [h, List.map_append, List.map_cons, List.nodup_append] at hn
  obtain ⟨-, hy, ho⟩ := hn
  rw [List.nodup_cons] at hy
  exact ⟨fun x hx => ho _ (List.mem_map_of_mem hx) _ (by simp),
    fun x hx hxe => hy.1 (hxe ▸ List.mem_map_of_mem hx)⟩

theorem State.TableLaw.find_of_split {s : State} (ht : s.TableLaw) {p : Port} {older younger : List Entry} {e : Entry}
    (h : s.entries p = older ++ e :: younger) : s.find ⟨p, e.tag⟩ = some e := by
  have ho := (ht.split_of_mem h).1
  simp only [State.find, h, List.find?_append, List.find?_cons, beq_self_eq_true, Option.or_eq_some_iff]
  exact .inr ⟨List.find?_eq_none.2 (by simpa using ho), trivial⟩

theorem State.TableLaw.find_of_mem {s : State} (ht : s.TableLaw) {p : Port} {e : Entry} (h : e ∈ s.entries p) :
    s.find ⟨p, e.tag⟩ = some e := by
  obtain ⟨older, younger, hs⟩ := List.append_of_mem h
  exact ht.find_of_split hs

/-- The place of a found entry in its port's admission list. -/
theorem State.TableLaw.split_of_find {s : State} (ht : s.TableLaw) {r : Ref} {e : Entry} (h : s.find r = some e) :
    ∃ older younger, s.entries r.port = older ++ e :: younger ∧ (∀ x ∈ older, x.tag ≠ r.tag) ∧
      ∀ x ∈ younger, x.tag ≠ r.tag := by
  obtain ⟨older, younger, hs⟩ := List.append_of_mem (State.find_mem h)
  obtain ⟨ho, hy⟩ := ht.split_of_mem hs
  rw [State.find_tag h] at ho hy
  exact ⟨older, younger, hs, ho, hy⟩

/-! ### Lookups after an update -/

theorem find?_map_at {f : Entry → Entry} (hf : ∀ e, (f e).tag = e.tag) (tag x : Byte) (es : List Entry) :
    (es.map (fun e => if e.tag = tag then f e else e)).find? (fun e => e.tag == x) =
      (es.find? (fun e => e.tag == x)).map (fun e => if e.tag = tag then f e else e) := by
  rw [List.find?_map]
  congr 2
  funext e
  simp only [Function.comp]
  split <;> simp [hf]

/-- A change in place that keeps tags changes what its own name finds and nothing else. -/
theorem State.find_updateEntry (s : State) (r x : Ref) {f : Entry → Entry} (hf : ∀ e, (f e).tag = e.tag) :
    (s.updateEntry r f).find x = if x = r then (s.find r).map f else s.find x := by
  unfold State.updateEntry State.find
  rw [State.entries_setEntries]
  by_cases hp : x.port = r.port
  · rw [if_pos hp, find?_map_at hf, hp]
    cases hfind : (s.entries r.port).find? (fun e => e.tag == x.tag) with
    | none =>
      split
      · next h => subst h; simp [hfind]
      · rfl
    | some e =>
      have he : e.tag = x.tag := by simpa using List.find?_some hfind
      by_cases hx : x = r
      · subst hx
        simp [hfind, he]
      · have : x.tag ≠ r.tag := fun h => hx (by cases x; cases r; simp_all)
        simp [hx, he, this]
  · rw [if_neg hp, if_neg (fun h => hp (by rw [h]))]

theorem State.entries_updateEntry (s : State) (r : Ref) (f : Entry → Entry) (p : Port) :
    (s.updateEntry r f).entries p =
      if p = r.port then (s.entries r.port).map (fun e => if e.tag = r.tag then f e else e) else s.entries p := by
  unfold State.updateEntry
  rw [State.entries_setEntries]

/-- An entry dropped is found no more; every other name finds what it found. -/
theorem State.find_dropEntry (s : State) (r x : Ref) :
    (s.dropEntry r).find x = if x = r then none else s.find x := by
  unfold State.dropEntry State.find
  rw [State.entries_setEntries]
  by_cases hp : x.port = r.port
  · rw [if_pos hp, List.find?_filter]
    by_cases hx : x = r
    · subst hx
      rw [if_pos rfl, List.find?_eq_none]
      simp
    · have : x.tag ≠ r.tag := fun h => hx (by cases x; cases r; simp_all)
      rw [if_neg hx, hp]
      congr 1
      funext e
      by_cases he : e.tag = x.tag <;> simp [he, this]
  · rw [if_neg hp, if_neg (fun h => hp (by rw [h]))]

/-- Where the entry is, a change in place of its own entry alone. -/
theorem State.updateEntry_of_split {s : State} {r : Ref} {e : Entry} {older younger : List Entry}
    (hs : s.entries r.port = older ++ e :: younger) (he : e.tag = r.tag) (ho : ∀ x ∈ older, x.tag ≠ r.tag)
    (hy : ∀ x ∈ younger, x.tag ≠ r.tag) (f : Entry → Entry) :
    s.updateEntry r f = s.setEntries r.port (older ++ f e :: younger) := by
  unfold State.updateEntry
  congr 1
  rw [hs, List.map_append, List.map_cons, if_pos he]
  have hmap : ∀ l : List Entry, (∀ x ∈ l, x.tag ≠ r.tag) → l.map (fun e => if e.tag = r.tag then f e else e) = l :=
    fun l hl => (List.map_congr_left fun x hx => if_neg (hl x hx)).trans (List.map_id' l)
  rw [hmap older ho, hmap younger hy]

theorem State.dropEntry_of_split {s : State} {r : Ref} {e : Entry} {older younger : List Entry}
    (hs : s.entries r.port = older ++ e :: younger) (he : e.tag = r.tag) (ho : ∀ x ∈ older, x.tag ≠ r.tag)
    (hy : ∀ x ∈ younger, x.tag ≠ r.tag) : s.dropEntry r = s.setEntries r.port (older ++ younger) := by
  unfold State.dropEntry
  congr 1
  rw [hs, List.filter_append, List.filter_cons_of_neg (by simp [he]), List.filter_eq_self.2 (by simpa using ho),
    List.filter_eq_self.2 (by simpa using hy)]

@[simp] theorem State.find_setPort (s : State) (p : Port) (u : PortUnit) (r : Ref) : (s.setPort p u).find r = s.find r := rfl

@[simp] theorem State.find_pushReady (s : State) (p : Port) (i : Item) (r : Ref) : (s.pushReady p i).find r = s.find r := rfl

@[simp] theorem State.find_setQueue (s : State) (k : Slot) (q : List Ref) (r : Ref) : (s.setQueue k q).find r = s.find r := rfl

@[simp] theorem State.find_dequeue (s : State) (k : Slot) (x r : Ref) : (s.dequeue k x).find r = s.find r := rfl

/-! ### The table law -/

/-- Names taken away, none added and none moved, keep the table law. -/
theorem State.TableLaw.of_sublist {s t : State} (h : s.TableLaw)
    (hsub : ∀ p, ((t.entries p).map Entry.ref).Sublist ((s.entries p).map Entry.ref)) : t.TableLaw := by
  intro p
  obtain ⟨hlen, htags, hport⟩ := h p
  have tags : ∀ es : List Entry, (es.map Entry.ref).map Ref.tag = es.map Entry.tag := fun es => by
    rw [List.map_map]; rfl
  refine ⟨?_, ?_, fun e he => ?_⟩
  · have := (hsub p).length_le
    simp only [List.length_map] at this
    exact this.trans hlen
  · rw [← tags] at htags ⊢
    exact ((hsub p).map _).nodup htags
  · obtain ⟨x, hx, hxe⟩ := List.mem_map.1 ((hsub p).subset (List.mem_map_of_mem he))
    rw [← hport x hx]
    exact congrArg Ref.port hxe.symm

/-- The law of one entry more under a new tag. -/
theorem State.TableLaw.append {s t : State} {p : Port} {e : Entry} (h : s.TableLaw) (hlen : (s.entries p).length < 16)
    (htag : ∀ x ∈ s.entries p, x.tag ≠ e.tag) (hport : e.port = p)
    (hs : ∀ q, t.entries q = if q = p then s.entries p ++ [e] else s.entries q) : t.TableLaw := by
  intro q
  rw [hs]
  split
  · next hq =>
    subst hq
    obtain ⟨-, htags, hports⟩ := h q
    refine ⟨by simpa using hlen, ?_, ?_⟩
    · rw [List.map_append, List.nodup_append]
      refine ⟨htags, by simp, fun a ha b hb => ?_⟩
      obtain ⟨x, hx, rfl⟩ := List.mem_map.1 ha
      simp only [List.map_cons, List.map_nil, List.mem_singleton] at hb
      exact hb ▸ htag x hx
    · intro x hx
      rcases List.mem_append.1 hx with hx | hx
      · exact hports x hx
      · rw [List.mem_singleton.1 hx, hport]
  · exact h q

end Sys2Proof.Machine
end

section
/-! The operations of the Request Table change it by four parts alone: an entry changed in place, its segments released,
an entry freed, and what lies outside the table and the pool. A condition that the four keep is kept by them all. -/
namespace Sys2Proof.Machine

/-- What a grant may rest on: `P` is kept by what lies outside the table and the pool and by the two changes of an entry that a
grant makes. -/
structure GrantOps (P : State → Prop) : Prop where
  frame : ∀ {s t : State}, P s → t.table = s.table → t.pool = s.pool → P t
  activate : ∀ {s : State} (r : Ref), P s → P (s.updateEntry r Entry.activate)
  bypassed : ∀ {s : State} (r : Ref), P s → P (s.updateEntry r Entry.bypassed)

/-- What an operation of the table may rest on: `P` is kept by each of the four parts. -/
structure TableOps (P : State → Prop) : Prop where
  frame : ∀ {s t : State}, P s → t.table = s.table → t.pool = s.pool → P t
  touch : ∀ {s : State} (r : Ref) {f : Entry → Entry}, (∀ e, (f e).ref = e.ref ∧ (f e).segments = e.segments) →
    P s → P (s.updateEntry r f)
  release : ∀ {s : State} (r : Ref), P s → P (s.releaseSegments r)
  free : ∀ {s : State} (r : Ref), P s → P (s.freeEntry r)

theorem Entry.activate_keeps (e : Entry) : e.activate.ref = e.ref ∧ e.activate.segments = e.segments := by
  unfold Entry.activate
  split <;> exact ⟨rfl, rfl⟩

namespace GrantOps

variable {P : State → Prop} {s : State}

theorem beginStatic (h : GrantOps P) (c : Chip) (hs : P s) : P (s.beginStatic c).1 := by
  unfold State.beginStatic
  split
  · exact hs
  · split
    · split
      · exact h.activate _ hs
      · exact hs
    · exact hs

theorem beginNandHead (h : GrantOps P) (c : Chip) (r : Ref) (e : Entry) (hs : P s) : P (s.beginNandHead c r e).1 := by
  have ha : P ((s.dequeue (.chip c) r).updateEntry r Entry.activate) := h.activate r (h.frame hs rfl rfl)
  unfold State.beginNandHead
  dsimp only
  split <;> exact h.frame ha rfl rfl

theorem beginUnload (h : GrantOps P) (c : Chip) (x : Context) (hs : P s) : P (s.beginUnload c x).1 := by
  unfold State.beginUnload
  dsimp only
  split <;> exact h.frame hs rfl rfl

theorem beginNand (h : GrantOps P) (c : Chip) (hs : P s) : P (s.beginNand c).1 := by
  unfold State.beginNand
  dsimp only
  split
  · split
    · exact h.frame hs rfl rfl
    · split
      · split
        · exact h.beginNandHead _ _ _ hs
        · exact hs
      · exact hs
  · split <;> exact h.frame hs rfl rfl
  · split
    · exact h.beginUnload _ _ hs
    · exact h.frame hs rfl rfl
  · exact h.beginUnload _ _ hs
  · exact hs
  · exact hs
  · exact hs

theorem bypassAll (h : GrantOps P) : ∀ (l : List Ref) {s : State}, P s →
    P (l.foldl (fun s x => s.updateEntry x Entry.bypassed) s)
  | [], _, hs => hs
  | r :: l, _, hs => h.bypassAll l (h.bypassed r hs)

theorem beginSdEntry (h : GrantOps P) (hs : P s) : P s.beginSdEntry.1 := by
  unfold State.beginSdEntry
  split
  · refine h.activate _ ?_
    split
    · exact hs
    · exact h.bypassAll _ hs
  · exact hs

theorem beginSd (h : GrantOps P) (hs : P s) : P s.beginSd.1 := by
  unfold State.beginSd State.beginRefresh
  split_ifs
  · exact hs
  · exact hs
  · exact hs
  · exact h.frame hs rfl rfl
  · exact h.beginSdEntry hs
  · exact h.frame hs rfl rfl
  · exact hs
  · exact h.frame hs rfl rfl

theorem grant (h : GrantOps P) (hs : P s) : P s.grant := by
  unfold State.grant
  split
  · exact hs
  · split
    · next k _ =>
      have hb : P (s.beginOn k).1 := by
        unfold State.beginOn
        split
        · split
          · exact h.beginNand _ hs
          · exact h.beginStatic _ hs
        · exact h.beginSd hs
      exact h.frame hb rfl rfl
    · exact hs

end GrantOps

namespace TableOps

variable {P : State → Prop} {s : State}

theorem finish (h : TableOps P) (r : Ref) (st : Status) (hs : P s) : P (s.finish r st) := by
  unfold State.finish
  split
  · exact hs
  · next e _ =>
    split
    · exact h.free r hs
    · have hu : P (if releasedAtEnd e.kind st then s.releaseSegments r else s) := by
        split
        · exact h.release r hs
        · exact hs
      exact h.frame (h.touch r (f := fun e => { e with state := .replying, status := some st }) (fun _ => ⟨rfl, rfl⟩) hu) rfl rfl

theorem retireHead (h : TableOps P) (c : Chip) (r : Ref) (hs : P s) : P (s.retireHead c r) :=
  h.finish r .retired (h.frame hs rfl rfl)

theorem join (h : TableOps P) (r : Ref) (k : Slot) (hs : P s) : P (s.join r k) := by
  unfold State.join
  dsimp only
  split
  · have hu : P (s.setQueue .sd (s.queue .sd ++ [r])) := h.frame hs rfl rfl
    exact h.frame (h.touch r (f := fun e => { e with state := .queued, bypass := some 0 }) (fun _ => ⟨rfl, rfl⟩) hu) rfl rfl
  · next c =>
    have hq : P (s.setQueue (.chip c) (s.queue (.chip c) ++ [r])) := h.frame hs rfl rfl
    have hu := h.touch r (f := fun e => { e with state := .queued }) (fun _ => ⟨rfl, rfl⟩) hq
    split
    · exact h.retireHead _ _ hu
    · exact hu

theorem releaseHeld (h : TableOps P) (p : Port) (e : Entry) (hs : P s) : P (s.releaseHeld p e) := by
  unfold State.releaseHeld
  split
  · exact h.join _ _ hs
  · exact h.finish _ _ hs

theorem evalFences (h : TableOps P) (p : Port) (hs : P s) : P (s.evalFences p) := by
  have fuel : ∀ n, ∀ {s : State}, P s → P (State.evalFencesFuel n s p) := by
    intro n
    induction n with
    | zero => exact id
    | succ n ih =>
      intro s hs
      unfold State.evalFencesFuel
      split
      · exact ih (h.releaseHeld p _ hs)
      · exact hs
  exact fuel _ hs

theorem complete (h : TableOps P) (r : Ref) (st : Status) (hs : P s) : P (s.complete r st) := by
  unfold State.complete
  split
  · exact hs
  · split
    · exact h.finish r st hs
    · exact h.evalFences _ (h.finish r st hs)

theorem examine (h : TableOps P) (c : Chip) (hs : P s) : P (s.examine c) := by
  have fuel : ∀ n, ∀ {s : State}, P s → P (State.examineFuel n s c) := by
    intro n
    induction n with
    | zero => exact id
    | succ n ih =>
      intro s hs
      unfold State.examineFuel
      split
      · exact ih (h.evalFences _ (h.retireHead c _ hs))
      · exact hs
  exact fuel _ hs

theorem flushList (h : TableOps P) (k : Slot) : ∀ (l : List Ref) {s : State}, P s → P (s.flushList k l)
  | [], _, hs => hs
  | r :: l, s, hs => by
    unfold State.flushList
    refine h.flushList k l ?_
    split
    · exact h.finish r _ (h.frame hs rfl rfl)
    · exact hs

theorem flush (h : TableOps P) (k : Slot) (hs : P s) : P (s.flush k) := by
  unfold State.flush
  have hl := h.flushList k (s.queue k) hs
  dsimp only
  split <;> split
  · exact h.evalFences _ (h.evalFences _ hl)
  · exact h.evalFences _ hl
  · exact h.evalFences _ hl
  · exact hl

theorem grantOps (h : TableOps P) : GrantOps P where
  frame := h.frame
  activate r hs := h.touch r Entry.activate_keeps hs
  bypassed r hs := h.touch r (fun _ => ⟨rfl, rfl⟩) hs

theorem grant (h : TableOps P) (hs : P s) : P s.grant := h.grantOps.grant hs

theorem settle (h : TableOps P) (hs : P s) : P s.settle :=
  h.grant (h.frame hs (by simp) (by simp))

end TableOps

end Sys2Proof.Machine
end

section
/-! The Segment Pool (R43): a release and a claim keep every segment free or held by exactly one entry, and with the table
law and the form of the staging memory this is kept by every operation of the table. -/
namespace Sys2Proof.Machine

/-! ### Free segments -/

theorem perm_insertAsc {n : Nat} : ∀ {l : List Nat}, n ∉ l → (insertAsc n l).Perm (n :: l)
  | [], _ => .refl _
  | m :: ms, h => by
    rw [List.mem_cons, not_or] at h
    unfold insertAsc
    split
    · exact .refl _
    · rw [if_neg h.1]
      exact ((perm_insertAsc h.2).cons m).trans (.swap n m ms)

/-- Released segments are added to the free ones. -/
theorem perm_foldl_insertAsc : ∀ {segments l : List Nat}, (l ++ segments).Nodup →
    (segments.foldl (fun l n => insertAsc n l) l).Perm (l ++ segments)
  | [], l, _ => by simp
  | n :: ns, l, h => by
    have hn : n ∉ l := fun hl => (List.nodup_append.1 h).2.2 n hl n (by simp) rfl
    have hp : (insertAsc n l ++ ns).Perm (l ++ n :: ns) :=
      ((perm_insertAsc hn).append_right ns).trans List.perm_middle.symm
    exact (perm_foldl_insertAsc (hp.nodup_iff.2 h)).trans hp

theorem pairwise_foldl_insertAsc : ∀ (segments : List Nat) {l : List Nat}, l.Pairwise (· < ·) →
    (segments.foldl (fun l n => insertAsc n l) l).Pairwise (· < ·)
  | [], _, h => h
  | n :: ns, l, h => pairwise_foldl_insertAsc ns (pairwise_insertAsc n l h)

/-! ### The pool law -/

/-- The pool law as one port sees it. -/
theorem State.PoolLaw.perm_of_port {s : State} (h : s.PoolLaw) (p : Port) :
    (s.pool.free ++ (s.heldSegments p ++ s.heldSegments p.other)).Perm (List.range 64) := by
  cases p with
  | a => exact h.1
  | b => exact (List.perm_append_comm.append_left _).trans h.1

theorem State.PoolLaw.reserve_of_port {s : State} (h : s.PoolLaw) (p : Port) :
    unusedReserve (s.pool.holding.get p) + unusedReserve (s.pool.holding.get p.other) ≤ s.pool.free.length := by
  obtain ⟨-, -, -, hreserve⟩ := h
  cases p with
  | a => exact hreserve
  | b => exact Nat.add_comm _ _ ▸ hreserve

/-- A pool that gives a port some segments, or takes some back, keeps the law. -/
theorem State.PoolLaw.change {s t : State} {p : Port} (h : s.PoolLaw)
    (hfree : (t.pool.free ++ t.heldSegments p).Perm (s.pool.free ++ s.heldSegments p))
    (hother : t.heldSegments p.other = s.heldSegments p.other) (hasc : t.pool.free.Pairwise (· < ·))
    (hown : t.pool.holding.get p = (t.heldSegments p).length)
    (hkeep : t.pool.holding.get p.other = s.pool.holding.get p.other)
    (hreserve : unusedReserve (t.pool.holding.get p) + unusedReserve (t.pool.holding.get p.other) ≤ t.pool.free.length) :
    t.PoolLaw := by
  have hperm : (t.pool.free ++ (t.heldSegments p ++ t.heldSegments p.other)).Perm (List.range 64) := by
    rw [hother, ← List.append_assoc]
    refine (hfree.append_right _).trans ?_
    rw [List.append_assoc]
    exact h.perm_of_port p
  have hhold : ∀ q, t.pool.holding.get q = (t.heldSegments q).length := fun q => by
    rcases Port.eq_or_other p q with rfl | rfl
    · exact hown
    · rw [hkeep, hother, h.2.2.1]
  refine ⟨?_, hasc, hhold, ?_⟩
  · cases p with
    | a => exact hperm
    | b => exact (List.perm_append_comm.append_left _).trans hperm
  · cases p with
    | a => exact hreserve
    | b => exact Nat.add_comm _ _ ▸ hreserve

/-- The law after segments of a port's entries are released (R43, R51). -/
theorem State.PoolLaw.release {s t : State} {p : Port} {segments : List Nat} (h : s.PoolLaw)
    (hheld : (s.heldSegments p).Perm (segments ++ t.heldSegments p))
    (hother : t.heldSegments p.other = s.heldSegments p.other) (hpool : t.pool = s.pool.release p segments) :
    t.PoolLaw := by
  have hall := h.perm_of_port p
  have hr := h.reserve_of_port p
  obtain ⟨-, hasc, hhold, -⟩ := id h
  have hnodup : (s.pool.free ++ segments).Nodup := by
    have hn := (hall.nodup_iff.2 List.nodup_range)
    rw [← List.append_assoc] at hn
    have hn := ((hheld.append_left s.pool.free).nodup_iff.1 (List.nodup_append.1 hn).1)
    rw [← List.append_assoc] at hn
    exact (List.nodup_append.1 hn).1
  have hfree : t.pool.free.Perm (s.pool.free ++ segments) := hpool ▸ perm_foldl_insertAsc hnodup
  have hlen : (s.heldSegments p).length = segments.length + (t.heldSegments p).length := by
    simpa using hheld.length_eq
  have hown : t.pool.holding.get p = s.pool.holding.get p - segments.length := by
    rw [hpool]; simp [Pool.release]
  have hkeep : t.pool.holding.get p.other = s.pool.holding.get p.other := by
    rw [hpool]; simp [Pool.release]
  refine h.change (p := p) ?_ hother ?_ ?_ hkeep ?_
  · refine (hfree.append_right _).trans ?_
    rw [List.append_assoc]
    exact hheld.symm.append_left _
  · rw [hpool]
    exact pairwise_foldl_insertAsc _ hasc
  · have := hhold p
    omega
  · have hfl := hfree.length_eq
    have := hhold p
    rw [List.length_append] at hfl
    rw [hown, hkeep]
    unfold unusedReserve at hr ⊢
    omega

/-- The law after a met claim of a port's new entry (R43, R45). -/
theorem State.PoolLaw.claim {s t : State} {p : Port} {n : Nat} (h : s.PoolLaw) (hn : s.pool.canClaim p n = true)
    (hheld : t.heldSegments p = s.heldSegments p ++ s.pool.free.take n)
    (hother : t.heldSegments p.other = s.heldSegments p.other) (hfree : t.pool.free = s.pool.free.drop n)
    (hholding : t.pool.holding = s.pool.holding.set p (s.pool.holding.get p + n)) : t.PoolLaw := by
  have hr := h.reserve_of_port p
  obtain ⟨-, hasc, hhold, -⟩ := id h
  have hclaim : n ≤ s.pool.free.length ∧
      unusedReserve (s.pool.holding.get p.other) + unusedReserve (s.pool.holding.get p + n) ≤ s.pool.free.length - n := by
    simp only [Pool.canClaim, Bool.or_eq_true, beq_iff_eq, Bool.and_eq_true, decide_eq_true_eq] at hn
    rcases hn with rfl | hn
    · simpa [Nat.add_comm] using hr
    · exact hn
  have hown : t.pool.holding.get p = s.pool.holding.get p + n := by simp [hholding]
  have hkeep : t.pool.holding.get p.other = s.pool.holding.get p.other := by simp [hholding]
  refine h.change (p := p) ?_ hother ?_ ?_ hkeep ?_
  · rw [hfree, hheld]
    refine List.perm_iff_count.2 fun x => ?_
    have hsplit := congrArg (List.count x) (List.take_append_drop n s.pool.free)
    simp only [List.count_append] at hsplit ⊢
    omega
  · exact hfree ▸ hasc.sublist (List.drop_sublist _ _)
  · rw [hown, hheld, hhold p, List.length_append, List.length_take, Nat.min_eq_left hclaim.1]
  · rw [hown, hkeep, hfree, List.length_drop]
    have := hclaim.2
    omega

/-! ### Table, pool and staging memory -/

/-- The table law, the pool law and the canonical form of the staging memory together (R6, R7, R43). -/
structure State.Sound (s : State) : Prop where
  table : s.TableLaw
  pool : s.PoolLaw
  bytes : Memory.wf s.pool.bytes = true

theorem State.heldSegments_of_table {s t : State} (h : t.table = s.table) (p : Port) :
    t.heldSegments p = s.heldSegments p := by
  simp only [State.heldSegments, State.entries, h]

theorem State.Sound.frame {s t : State} (hs : s.Sound) (htable : t.table = s.table) (hpool : t.pool = s.pool) :
    t.Sound := by
  obtain ⟨ht, hp, hb⟩ := hs
  refine ⟨fun p => ?_, ?_, hpool ▸ hb⟩
  · rw [State.entries_of_table htable]
    exact ht p
  · unfold State.PoolLaw
    simp only [hpool, State.heldSegments_of_table htable]
    exact hp

/-- Changes in place that keep each entry's name. -/
theorem State.TableLaw.updateEntry {s : State} (h : s.TableLaw) (r : Ref) {f : Entry → Entry}
    (hf : ∀ e, (f e).ref = e.ref) : (s.updateEntry r f).TableLaw := by
  refine h.of_sublist fun p => ?_
  rw [State.entries_updateEntry]
  split
  · next hp =>
    rw [hp, List.map_map]
    rw [List.map_congr_left (g := Entry.ref) fun e _ => ?_]
    · simp only [Function.comp]
      split
      · exact hf e
      · rfl
  · exact .refl _

theorem State.heldSegments_updateEntry {s : State} (r : Ref) {f : Entry → Entry}
    (hf : ∀ e, (f e).segments = e.segments) (p : Port) :
    (s.updateEntry r f).heldSegments p = s.heldSegments p := by
  unfold State.heldSegments
  rw [State.entries_updateEntry]
  split
  · next hp =>
    rw [hp, List.flatMap_map]
    refine List.flatMap_congr fun e _ => ?_
    split
    · exact hf e
    · rfl
  · rfl

theorem State.Sound.touch {s : State} (hs : s.Sound) (r : Ref) {f : Entry → Entry}
    (hf : ∀ e, (f e).ref = e.ref ∧ (f e).segments = e.segments) : (s.updateEntry r f).Sound := by
  obtain ⟨ht, hp, hb⟩ := hs
  refine ⟨ht.updateEntry r fun e => (hf e).1, ?_, hb⟩
  unfold State.PoolLaw
  simp only [State.heldSegments_updateEntry r fun e => (hf e).2]
  exact hp

/-- The segments of a port whose entries are known. -/
theorem State.heldSegments_of_split {s : State} {p : Port} {older younger : List Entry} {e : Entry}
    (h : s.entries p = older ++ e :: younger) :
    (s.heldSegments p).Perm (e.segments ++ (older ++ younger).flatMap Entry.segments) := by
  unfold State.heldSegments
  rw [h, List.flatMap_append, List.flatMap_cons, List.flatMap_append, ← List.append_assoc, ← List.append_assoc]
  exact List.perm_append_comm.append_right _

/-- What the release of an entry's segments does, where the entry stands. -/
theorem State.releaseSegments_of_split {s : State} {r : Ref} {e : Entry} {older younger : List Entry}
    (hfind : s.find r = some e) (hs : s.entries r.port = older ++ e :: younger) (ho : ∀ x ∈ older, x.tag ≠ r.tag)
    (hy : ∀ x ∈ younger, x.tag ≠ r.tag) :
    s.releaseSegments r = { s with
      table := s.table.set r.port (older ++ { e with segments := [] } :: younger)
      pool := s.pool.release r.port e.segments } := by
  unfold State.releaseSegments
  rw [hfind]
  exact State.updateEntry_of_split (s := { s with pool := s.pool.release r.port e.segments }) hs (State.find_tag hfind) ho hy _

theorem State.releaseSegments_of_none {s : State} {r : Ref} (h : s.find r = none) : s.releaseSegments r = s := by
  unfold State.releaseSegments
  rw [h]

theorem State.dropEntry_of_none {s : State} {r : Ref} (h : s.find r = none) : s.dropEntry r = s := by
  unfold State.dropEntry
  rw [List.filter_eq_self.2]
  · simp [State.setEntries, State.entries]
  · simpa [State.find] using h

/-- What the freeing of an entry does, where the entry stands (R19, R26). -/
theorem State.freeEntry_of_split {s : State} {r : Ref} {e : Entry} {older younger : List Entry}
    (hfind : s.find r = some e) (hs : s.entries r.port = older ++ e :: younger) (ho : ∀ x ∈ older, x.tag ≠ r.tag)
    (hy : ∀ x ∈ younger, x.tag ≠ r.tag) :
    s.freeEntry r = { s with
      table := s.table.set r.port (older ++ younger), pool := s.pool.release r.port e.segments } := by
  have htag : ({ e with segments := [] } : Entry).tag = r.tag := (State.find_tag hfind :)
  unfold State.freeEntry
  rw [State.releaseSegments_of_split hfind hs ho hy,
    State.dropEntry_of_split (e := { e with segments := [] }) (by simp [State.entries]) htag ho hy]
  simp [State.setEntries]

theorem State.freeEntry_of_none {s : State} {r : Ref} (h : s.find r = none) : s.freeEntry r = s := by
  unfold State.freeEntry
  rw [State.releaseSegments_of_none h, State.dropEntry_of_none h]

theorem State.Sound.releaseSegments {s : State} (hs : s.Sound) (r : Ref) : (s.releaseSegments r).Sound := by
  cases hfind : s.find r with
  | none => rwa [State.releaseSegments_of_none hfind]
  | some e =>
    obtain ⟨older, younger, hes, ho, hy⟩ := hs.table.split_of_find hfind
    rw [State.releaseSegments_of_split hfind hes ho hy]
    refine ⟨hs.table.of_sublist fun p => ?_, hs.pool.release (p := r.port) (segments := e.segments) ?_ ?_ rfl, hs.bytes⟩
    · simp only [State.entries, ByPort.get_set]
      split
      · next hp => subst hp; rw [← State.entries, hes]; simp [Entry.ref]
      · exact .refl _
    · simpa [State.heldSegments, State.entries] using State.heldSegments_of_split hes
    · simp [State.heldSegments, State.entries]

theorem State.Sound.freeEntry {s : State} (hs : s.Sound) (r : Ref) : (s.freeEntry r).Sound := by
  cases hfind : s.find r with
  | none => rwa [State.freeEntry_of_none hfind]
  | some e =>
    obtain ⟨older, younger, hes, ho, hy⟩ := hs.table.split_of_find hfind
    rw [State.freeEntry_of_split hfind hes ho hy]
    refine ⟨hs.table.of_sublist fun p => ?_, hs.pool.release (p := r.port) (segments := e.segments) ?_ ?_ rfl, hs.bytes⟩
    · simp only [State.entries, ByPort.get_set]
      split
      · next hp => subst hp; rw [← State.entries, hes]; simp
      · exact .refl _
    · simpa [State.heldSegments, State.entries] using State.heldSegments_of_split hes
    · simp [State.heldSegments, State.entries]

theorem tableOps_sound : TableOps State.Sound where
  frame := State.Sound.frame
  touch r _ hf hs := hs.touch r hf
  release r hs := hs.releaseSegments r
  free r hs := hs.freeEntry r

theorem State.Sound.stage {s : State} (hs : s.Sound) (segments : List Nat) (j : Nat) (d : List Byte) :
    (s.stage segments j d).Sound := by
  obtain ⟨ht, hp, hb⟩ := hs
  exact ⟨ht, hp, stagingWrite_wf segments d _ j hb⟩

theorem State.TableLaw.releaseSegments {s : State} (h : s.TableLaw) (r : Ref) : (s.releaseSegments r).TableLaw := by
  unfold State.releaseSegments
  split
  · next e _ => exact State.TableLaw.updateEntry (s := { s with pool := s.pool.release r.port e.segments }) h r fun _ => rfl
  · exact h

theorem State.TableLaw.dropEntry {s : State} (h : s.TableLaw) (r : Ref) : (s.dropEntry r).TableLaw := by
  refine h.of_sublist fun p => ?_
  unfold State.dropEntry
  rw [State.entries_setEntries]
  split
  · next hp => exact hp ▸ List.filter_sublist.map _
  · exact .refl _

theorem State.TableLaw.frame {s t : State} (h : s.TableLaw) (htable : t.table = s.table) : t.TableLaw := fun p => by
  rw [State.entries_of_table htable]
  exact h p

theorem tableOps_tableLaw : TableOps State.TableLaw where
  frame h ht _ := h.frame ht
  touch r _ hf h := h.updateEntry r fun e => (hf e).1
  release r h := h.releaseSegments r
  free r h := (h.releaseSegments r).dropEntry r

end Sys2Proof.Machine
end

section
/-! Changes beside the Request Table: what an operation leaves as it was, but for work that it ends, is enough to keep the
laws of entries, queues, contexts and replies. -/
namespace Sys2Proof.Machine

/-- The tags of the REPLYs on a port's ready list (R24, R176). -/
def State.replies (s : State) (p : Port) : List Byte := (s.port p).ready.filterMap Item.replyTag

theorem State.mem_replies {s : State} {p : Port} {tag : Byte} :
    tag ∈ s.replies p ↔ Item.entryReply tag ∈ (s.port p).ready := by
  unfold State.replies
  rw [List.mem_filterMap]
  constructor
  · rintro ⟨i, hi, htag⟩
    cases i <;> simp_all [Item.replyTag]
  · exact fun h => ⟨_, h, rfl⟩

/-- `t` has the entries, segments, queues and profiles of `s`; its tenure and its contexts serve what they served or nothing,
and its ready lists hold no further REPLY. -/
structure State.Lapse (s t : State) : Prop where
  table : t.table = s.table
  pool : t.pool = s.pool
  queues : t.arbiter.queues = s.arbiter.queues
  profiles : t.arbiter.profiles = s.arbiter.profiles
  tenure : t.arbiter.tenure = s.arbiter.tenure ∨ t.arbiter.tenure = none
  context : ∀ c, (t.context c).entry = (s.context c).entry ∨ (t.context c).entry = none
  replies : ∀ p, (t.replies p).Sublist (s.replies p)

namespace State.Lapse

variable {s t u : State}

theorem refl (s : State) : s.Lapse s := ⟨rfl, rfl, rfl, rfl, .inl rfl, fun _ => .inl rfl, fun _ => .refl _⟩

theorem trans (h : s.Lapse t) (g : t.Lapse u) : s.Lapse u where
  table := g.table.trans h.table
  pool := g.pool.trans h.pool
  queues := g.queues.trans h.queues
  profiles := g.profiles.trans h.profiles
  tenure := g.tenure.elim (fun e => e ▸ h.tenure) .inr
  context c := (g.context c).elim (fun e => e ▸ h.context c) .inr
  replies p := (g.replies p).trans (h.replies p)

theorem after (g : t.Lapse u) (h : s.Lapse t) : s.Lapse u := h.trans g

/-- Nothing but the SDRAM engine, the windows, the start-up controller and the like has changed. -/
theorem of_eq (hports : t.ports = s.ports) (htable : t.table = s.table) (hpool : t.pool = s.pool)
    (harbiter : t.arbiter = s.arbiter) (hnand : t.nand = s.nand) : s.Lapse t where
  table := htable
  pool := hpool
  queues := by rw [harbiter]
  profiles := by rw [harbiter]
  tenure := .inl (by rw [harbiter])
  context c := .inl (by simp only [State.context, hnand])
  replies p := by simp only [State.replies, State.port, hports]; exact .refl _

/-- Nothing but the ports and their notices has changed, and no REPLY has come. -/
theorem of_ports (h : t = { s with ports := t.ports, notices := t.notices })
    (hr : ∀ p, (t.replies p).Sublist (s.replies p)) : s.Lapse t := by
  rw [h] at hr ⊢
  exact ⟨rfl, rfl, rfl, rfl, .inl rfl, fun _ => .inl rfl, hr⟩

/-- A port unit whose ready list holds no further REPLY. -/
theorem setPort (p : Port) {u : PortUnit}
    (hu : (u.ready.filterMap Item.replyTag).Sublist ((s.port p).ready.filterMap Item.replyTag)) :
    s.Lapse (s.setPort p u) := by
  refine of_ports rfl fun q => ?_
  unfold State.replies
  rw [State.port_setPort]
  split
  · next h => exact h ▸ hu
  · exact .refl _

theorem setPort_ready (p : Port) {u : PortUnit} (hu : u.ready = (s.port p).ready) : s.Lapse (s.setPort p u) :=
  setPort p (hu ▸ .refl _)

/-- A control reply slot becomes free (R174). -/
theorem freeSlot (s : State) (p : Port) : s.Lapse (s.setPort p { s.port p with held := (s.port p).held - 1 }) :=
  setPort_ready p rfl

theorem setNotices (s : State) (x : ByPort NoticeState) : s.Lapse { s with notices := x } := of_eq rfl rfl rfl rfl rfl

theorem setEcc (s : State) (n : Nat) (x : EccUnit) : s.Lapse { s with fresh := n, ecc := x } := of_eq rfl rfl rfl rfl rfl

theorem setContext (c : Chip) {x : Context} (hx : x.entry = (s.context c).entry ∨ x.entry = none) :
    s.Lapse (s.setContext c x) where
  table := rfl
  pool := rfl
  queues := rfl
  profiles := rfl
  tenure := .inl rfl
  context d := by
    rw [State.context_setContext]
    split
    · next h => exact h ▸ hx
    · exact .inl rfl
  replies _ := .refl _

theorem endTenure (s : State) (w : Bool) (cs : List BusCycle) : s.Lapse (s.endTenure w cs) where
  table := by simp
  pool := by simp
  queues := by unfold State.endTenure; split <;> rfl
  profiles := by unfold State.endTenure; split <;> rfl
  tenure := by
    unfold State.endTenure
    split
    · exact .inl rfl
    · exact .inr rfl
  context c := .inl (by simp [State.context])
  replies p := by simp [State.replies, State.port]

/-! ### Ready lists and notices -/

theorem pushReady (s : State) (p : Port) {i : Item} (hi : i.replyTag = none) : s.Lapse (s.pushReady p i) :=
  setPort p (by simp [hi])

theorem moveNotice (s : State) (p : Port) : s.Lapse (s.moveNotice p) := by
  refine of_ports (s.moveNotice_only p) fun q => ?_
  unfold State.moveNotice
  dsimp only
  split
  · unfold State.replies
    by_cases hq : q = p
    · subst hq
      split <;> simp [State.port, State.setPort, Item.replyTag]
    · simp [State.port, State.setPort, hq]
  · exact .refl _

theorem post (s : State) (p : Port) (x : Notice) : s.Lapse (s.post p x) := by
  unfold State.post
  dsimp only
  split
  · exact refl s
  · split
    · exact (moveNotice _ p).after (of_eq rfl rfl rfl rfl rfl)
    · exact of_eq rfl rfl rfl rfl rfl

theorem postBoth (s : State) (x : Notice) : s.Lapse (s.postBoth x) := (post s .a x).trans (post _ .b x)

theorem holdSlot (s : State) (p : Port) : s.Lapse (s.holdSlot p) := setPort_ready p rfl

theorem answer (s : State) (p : Port) {i : Item} (hi : i.replyTag = none) : s.Lapse (s.answer p i) :=
  (holdSlot s p).trans (pushReady _ p hi)

theorem overrun (s : State) (p : Port) : s.Lapse (s.overrun p) := (post _ p _).after (setPort_ready p rfl)

theorem slotAnswer (s : State) (p : Port) {i : Item} (hi : i.replyTag = none) : s.Lapse (s.slotAnswer p i) := by
  unfold State.slotAnswer
  split
  · exact answer s p hi
  · exact overrun s p

theorem reply (s : State) (p : Port) (token : Byte) (k : CtrlKind) (st : Status) (d : List Byte) :
    s.Lapse (s.reply p token k st d) := answer s p rfl

theorem deferredReply (s : State) (d : Option Deferred) (k : CtrlKind) (st : Status) (body : List Byte) :
    s.Lapse (s.deferredReply d k st body) := by
  cases d with
  | none => exact refl s
  | some x => exact pushReady s x.port rfl

theorem pump (s : State) (p : Port) : s.Lapse (s.pump p) := by
  unfold State.pump
  dsimp only
  split
  · exact setPort_ready p rfl
  · exact refl s

theorem takeFrame (s : State) (p : Port) (seq : Byte) : s.Lapse (s.takeFrame p seq) := by
  have hconsume : s.Lapse (s.consume p) := setPort_ready p rfl
  refine hconsume.trans ?_
  unfold State.takeFrame State.sequenceCheck
  split
  · refine after (setPort_ready p rfl) ?_
    split
    · exact refl _
    · exact post _ p _
  · exact setPort_ready p rfl
  · exact refl _

theorem tick (s : State) : s.Lapse s.tick := by
  have hticks : s.Lapse { s with now := s.now + 1, ports := ⟨s.ports.a.tick, s.ports.b.tick⟩, sdram := s.sdram.tick } := by
    refine ⟨rfl, rfl, rfl, rfl, .inl rfl, fun _ => .inl rfl, fun p => ?_⟩
    cases p <;> exact .refl _
  unfold State.tick
  dsimp only
  split
  · refine hticks.trans ⟨rfl, rfl, rfl, rfl, .inl rfl, fun c => .inl ?_, fun _ => .refl _⟩
    cases c <;> rfl
  · exact hticks

/-! ### The start-up controller -/

theorem setStartup (s : State) (x : Startup) : s.Lapse (s.setStartup x) := of_eq rfl rfl rfl rfl rfl

theorem setSdram (s : State) (d : Sdram) : s.Lapse (s.setSdram d) := of_eq rfl rfl rfl rfl rfl

theorem setRetired (s : State) (c : Chip) (l : List Nat) : s.Lapse (s.setRetired c l) := of_eq rfl rfl rfl rfl rfl

theorem setHealth (s : State) (c : Chip) (h : Health) : s.Lapse (s.setHealth c h) := of_eq rfl rfl rfl rfl rfl

theorem setReady (s : State) (c : Chip) (level : Bool) : s.Lapse (s.setReady c level) := of_eq rfl rfl rfl rfl rfl

theorem setRxd (s : State) (p : Port) (level : Bool) : s.Lapse (s.setRxd p level) := of_eq rfl rfl rfl rfl rfl

theorem tryRun (s : State) : s.Lapse s.tryRun := by
  unfold State.tryRun
  dsimp only
  split
  · split <;> exact setStartup s _
  · exact refl s

theorem copyEnded (s : State) (l : Load) (x : CopyReason) : s.Lapse (s.copyEnded l x) := by
  unfold State.copyEnded
  dsimp only
  split
  · exact (setStartup s _).trans (tryRun _)
  · split
    · exact (setStartup s _).trans (tryRun _)
    · exact setStartup s _

theorem countApplied (s : State) : s.Lapse s.countApplied := setStartup s _

theorem countSkipped (s : State) (n index : Nat) : s.Lapse (s.countSkipped n index) := setStartup s _

theorem advanceWalk (s : State) (size : Nat) : s.Lapse (s.advanceWalk size) := by
  unfold State.advanceWalk
  split
  · exact refl s
  · exact setStartup s _

theorem applyPorts (s : State) (e : NextEntry) : s.Lapse (s.applyPorts e) := by
  unfold State.applyPorts
  split
  · next ra rb _ _ =>
    have ha : s.Lapse (s.setPort .a { s.port .a with config := ra }) := setPort_ready .a rfl
    have hb := ha.trans (setPort_ready .b (u := { s.port .b with config := rb }) rfl)
    exact hb.trans (countApplied _)
  · exact countSkipped s _ _

theorem applySdramEntry (s : State) (e : NextEntry) : s.Lapse (s.applySdramEntry e) := by
  unfold State.applySdramEntry
  split
  · exact (setSdram s _).trans (countApplied _)
  · exact countSkipped s _ _

theorem applyWindowBlock (s : State) (entry index : Nat) (d : List Byte) : s.Lapse (s.applyWindowBlock entry index d) := by
  unfold State.applyWindowBlock
  split
  · exact (countApplied _).after (of_eq rfl rfl rfl rfl rfl)
  · exact countSkipped s _ _

theorem supersede (s : State) (index : Nat) : s.Lapse (s.supersede index) := by
  unfold State.supersede
  split
  · exact (countSkipped s _ _).trans (setStartup _ _)
  · exact refl s

theorem applyWindowEntry (s : State) (e : NextEntry) : s.Lapse (s.applyWindowEntry e) := by
  unfold State.applyWindowEntry
  dsimp only
  split
  · exact (supersede s _).trans (setStartup _ _)
  · exact (supersede s _).trans (applyWindowBlock _ _ _ _)

theorem applyRetireBlocks (code : Byte) : ∀ (l : List Nat) (s : State), s.Lapse (s.applyRetireBlocks code l).1
  | [], s => refl s
  | b :: l, s => by
    unfold State.applyRetireBlocks
    split
    · dsimp only
      split
      · exact applyRetireBlocks code l s
      · exact (setRetired s _ _).trans (applyRetireBlocks code l _)
    · exact applyRetireBlocks code l s

theorem applyRetireEntry (s : State) (e : NextEntry) : s.Lapse (s.applyRetireEntry e) := by
  unfold State.applyRetireEntry
  split
  · refine (applyRetireBlocks (at8 e.bytes 2) (retireBlocks e.bytes) s).trans ?_
    dsimp only
    unfold State.counted
    split
    · exact countApplied _
    · exact countSkipped _ _ _
  · exact countSkipped s _ _

theorem walkUnknown (s : State) : s.Lapse s.walkUnknown := by
  unfold State.walkUnknown
  split
  · exact refl s
  · split
    · exact ((countSkipped s _ _).trans (setStartup _ _)).trans (tryRun _)
    · split
      · exact ((countSkipped s _ _).trans (advanceWalk _ _)).trans (tryRun _)
      · exact refl s

theorem applyDeferred (s : State) : s.Lapse s.applyDeferred := by
  have all : ∀ (l : List DeferredWindow) (s : State),
      s.Lapse (l.foldl (fun s x => s.applyWindowBlock x.entry x.index x.block) s) := fun l => by
    induction l with
    | nil => exact refl
    | cons x l ih => exact fun s => (applyWindowBlock s _ _ _).trans (ih _)
  exact (all _ s).trans (setStartup _ _)

theorem settleStartup (s : State) : s.Lapse s.settleStartup := by
  unfold State.settleStartup
  split
  · exact (applyDeferred s).trans (tryRun _)
  · exact refl s

/-! ### The SDRAM engine -/

theorem endSd (s : State) (w : Bool) (x : SdTrace) : s.Lapse (s.endSd w x) := (setSdram s _).trans (endTenure _ _ _)

theorem wakeIfDue (s : State) : s.Lapse s.wakeIfDue := by
  unfold State.wakeIfDue
  split
  · exact setSdram s _
  · exact refl s

theorem refreshExpiry (s : State) : s.Lapse s.refreshExpiry := by
  unfold State.refreshExpiry
  dsimp only
  split
  · exact refl s
  · split
    · exact setSdram s _
    · exact (setSdram s _).trans (postBoth _ _)

theorem refreshRoundEnd (s : State) : s.Lapse s.refreshRoundEnd := by
  unfold State.refreshRoundEnd
  split
  · exact endSd s _ _
  · exact refl s

theorem enterPowerDown (s : State) : s.Lapse s.enterPowerDown := by
  unfold State.enterPowerDown
  split
  · exact setSdram s _
  · exact refl s

theorem selfRefreshReached (s : State) : s.Lapse s.selfRefreshReached := by
  unfold State.selfRefreshReached
  dsimp only
  split
  · exact (setSdram s _).trans (wakeIfDue _)
  · exact refl s

theorem selfRefreshEntryEnd (s : State) : s.Lapse s.selfRefreshEntryEnd := by
  unfold State.selfRefreshEntryEnd
  dsimp only
  split
  · split
    · exact ((endSd s _ _).trans (setSdram _ _)).trans (deferredReply _ _ _ _ _)
    · exact endSd s _ _
  · exact refl s

theorem selfRefreshExitEnd (s : State) : s.Lapse s.selfRefreshExitEnd := by
  unfold State.selfRefreshExitEnd
  dsimp only
  split
  · split
    · exact (endSd s _ _).trans (setSdram _ _)
    · exact endSd s _ _
  · exact refl s

theorem stabilised (s : State) : s.Lapse s.stabilised := by
  unfold State.stabilised
  split
  · exact setSdram s _
  · exact refl s

theorem prechargeStepEnd (s : State) : s.Lapse s.prechargeStepEnd := by
  unfold State.prechargeStepEnd
  split
  · exact (endSd s _ _).trans (setSdram _ _)
  · exact refl s

theorem refreshStepEnd (s : State) : s.Lapse s.refreshStepEnd := by
  unfold State.refreshStepEnd
  split
  · exact (endSd s _ _).trans (setSdram _ _)
  · exact refl s

theorem modeStepEnd (s : State) : s.Lapse s.modeStepEnd := by
  unfold State.modeStepEnd
  dsimp only
  split
  · exact (((endSd s _ _).trans (setSdram _ _)).trans (deferredReply _ _ _ _ _)).trans (settleStartup _)
  · exact refl s

/-! ### The receiver -/

theorem dropFrame (s : State) (p : Port) (r : DropReason) : s.Lapse (s.dropFrame p r) :=
  (post _ p _).after (setPort_ready p rfl)

theorem receive (s : State) (p : Port) (c : Byte) : s.Lapse (s.receive p c) := by
  unfold State.receive State.judgeFrame
  dsimp only
  split
  · exact refl s
  · exact setPort_ready p rfl
  · split_ifs
    · exact dropFrame s p _
    · exact dropFrame s p _
    · exact setPort_ready p rfl
    · exact dropFrame s p _
    · exact setPort_ready p rfl

theorem character (s : State) (p : Port) (c : Byte) (stop : Bool) : s.Lapse (s.character p c stop) := by
  unfold State.character
  split
  · exact refl s
  · exact (setRxd s p stop).trans (receive _ p c)

theorem gapTimeout (s : State) (p : Port) : s.Lapse (s.gapTimeout p) := by
  unfold State.gapTimeout
  split
  · exact dropFrame s p _
  · exact refl s

theorem rxdHigh (s : State) (p : Port) : s.Lapse (s.rxdHigh p) := by
  unfold State.rxdHigh
  dsimp only
  split
  · exact (setRxd s p true).trans (setPort_ready p rfl)
  · exact setRxd s p true

end State.Lapse

end Sys2Proof.Machine
end

section
/-! The commands one by one: a condition on states that is kept by the parts named in `CommandOps` is kept by every command
and by every step. The table laws and the laws of queues, work and replies are both carried through the commands so. -/
namespace Sys2Proof.Machine

/-- A change of an entry that moves neither its name nor what queues, contexts and the pool rest on. -/
structure Entry.Alike (x y : Entry) : Prop where
  ref : y.ref = x.ref
  segments : y.segments = x.segments
  kind : y.kind = x.kind
  slot : y.slot = x.slot
  block : y.block = x.block
  bypass : y.bypass = x.bypass
  state : y.state = x.state

theorem Entry.alike_sectorDone (e : Entry) : e.Alike e.sectorDone := ⟨rfl, rfl, rfl, rfl, rfl, rfl, rfl⟩

theorem Entry.alike_unloaded (e : Entry) (r : SectorResult) : e.Alike (e.unloaded r) := ⟨rfl, rfl, rfl, rfl, rfl, rfl, rfl⟩

/-- The parts of the commands that make, serve, answer or end entries. `P` is the condition they keep; `K` is what `P` needs
besides at admission. -/
structure CommandOps (K P : State → Prop) : Prop where
  table : ∀ {s : State}, P s → s.TableLaw
  lapse : ∀ {s t : State}, P s → s.Lapse t → P t
  touch : ∀ {s : State} (r : Ref) {f : Entry → Entry}, (∀ e : Entry, e.Alike (f e)) → P s → P (s.updateEntry r f)
  stage : ∀ {s : State} (l : List Nat) (j : Nat) (d : List Byte), P s → P (s.stage l j d)
  examine : ∀ {s : State} (c : Chip), P s → P (s.examine c)
  flush : ∀ {s : State} (k : Slot), P s → P (s.flush k)
  grant : ∀ {s : State}, P s → P s.grant
  create : ∀ {s : State} {p : Port} {q : Request} {e : Entry}, K s → P s → s.judge p q = .ok e → P (s.create e q.data)
  cancel : ∀ {s : State} {r : Ref} {e : Entry}, P s → s.find r = some e → e.state = .held ∨ e.state = .queued →
    P (s.cancelEntry e)
  endServing : ∀ {s : State} {c : Chip} {r : Ref} (st : Status) {x : Context}, P s → (s.context c).entry = some r →
    x.entry = none → P ((s.complete r st).setContext c x)
  chunkEnd : ∀ {s : State} (xs : List Sample), P s → P (s.chunkEnd xs)
  atomicEnd : ∀ {s : State} (xs : List Sample), P s → P (s.atomicEnd xs)
  waitLimit : ∀ {s : State} (k : Nat) (xs : List Sample), P s → P (s.waitLimit k xs)
  replySent : ∀ {s : State} {p : Port} {tag : Byte} {rest : List Item} {u : PortUnit}, P s →
    (s.port p).ready = .entryReply tag :: rest → u.ready = rest → P ((s.setPort p u).freeEntry ⟨p, tag⟩)
  applySlot : ∀ {s : State} {code : Byte} {d : List Byte} {c : Chip} {f : Profile}, P s → s.judgeSlot code d = .ok (c, f) →
    P (s.applySlot c f)
  portReset : ∀ {s : State} (p : Port) (cause : PortStart), P s → P (s.portReset p cause)
  fullReset : ∀ {s : State} (cause : Cause) (pins : Pins), P s → P (s.fullReset cause pins)

namespace CommandOps

variable {K P : State → Prop} {s : State}

theorem settle (h : CommandOps K P) (hs : P s) : P s.settle :=
  h.grant (h.lapse hs ((State.Lapse.pump s .a).trans (State.Lapse.pump _ .b)))

/-! ### Message rows -/

theorem takeMessage (h : CommandOps K P) {p : Port} {kind seq : Byte} {d : List Byte} {deal : State → State} (hs : P s)
    (hdeal : P (s.takeFrame p seq) → P (deal (s.takeFrame p seq))) : P (s.takeMessage p kind seq d deal) := by
  unfold State.takeMessage
  split
  · exact hs
  · exact hdeal (h.lapse hs (.takeFrame s p seq))

theorem dealRequest (h : CommandOps K P) (k : ReqKind) (p : Port) (d : List Byte) (hk : K s) (hs : P s) :
    P (s.dealRequest k p d) := by
  unfold State.dealRequest State.admitRequest
  split
  · exact h.lapse hs (.slotAnswer s p rfl)
  · exact h.lapse hs (.slotAnswer s p rfl)
  · split
    · exact h.lapse hs (.slotAnswer s p rfl)
    · split
      · next hj => exact h.create hk hs hj
      · exact h.lapse hs (.slotAnswer s p rfl)

theorem takeRequest (h : CommandOps K P) (hK : ∀ p seq, K s → K (s.takeFrame p seq)) (k : ReqKind) (p : Port)
    (seq : Byte) (d : List Byte) (hk : K s) (hs : P s) : P (s.takeRequest k p seq d).settle :=
  h.settle (h.takeMessage hs fun hu => h.dealRequest k p d (hK p seq hk) hu)

theorem dealControl (h : CommandOps K P) (k : CtrlKind) (p : Port) (d : List Byte) {owner : State → State} (hs : P s)
    (howner : P (owner s)) : P (s.dealControl k p d owner) := by
  unfold State.dealControl State.stopped
  split
  · exact h.lapse hs (.slotAnswer s p rfl)
  · exact h.lapse hs (.slotAnswer s p rfl)
  · split
    · next hstop =>
      split_ifs at hstop <;> obtain rfl := Option.some.inj hstop
      · exact h.lapse hs (.overrun s p)
      · exact h.lapse hs (.reply s p _ _ _ _)
      · exact h.lapse hs (.reply s p _ _ _ _)
    · exact howner

theorem takeControl (h : CommandOps K P) (k : CtrlKind) (p : Port) (seq : Byte) (d : List Byte) {owner : State → State}
    (hs : P s) (howner : ∀ {u : State}, P u → P (owner u)) : P (s.takeControl k p seq d owner).settle :=
  h.settle (h.takeMessage hs fun hu => h.dealControl k p d hu (howner hu))

theorem takeHello (h : CommandOps K P) (p : Port) (seq : Byte) (d : List Byte) (hs : P s) :
    P (s.takeHello p seq d).settle := by
  refine h.settle (h.takeMessage hs fun hu => ?_)
  unfold State.dealHello
  split
  · split
    · exact h.lapse hu (.slotAnswer _ p rfl)
    · split
      · exact h.lapse hu ((State.Lapse.reply _ p _ _ _ _).after (.setPort_ready p rfl))
      · exact h.lapse hu (.overrun _ p)
  · exact h.dealControl _ p d hu (h.lapse hu (.reply _ p _ _ _ _))

theorem winSetAct (h : CommandOps K P) (p : Port) (d : List Byte) (hs : P s) : P (s.winSetAct p d) := by
  unfold State.winSetAct
  dsimp only
  split
  · exact h.lapse hs ((State.Lapse.reply _ p _ _ _ _).after (.of_eq rfl rfl rfl rfl rfl))
  · exact h.lapse hs (.reply s p _ _ _ _)

theorem winGetAct (h : CommandOps K P) (p : Port) (d : List Byte) (hs : P s) : P (s.winGetAct p d) := by
  unfold State.winGetAct
  split <;> exact h.lapse hs (.reply s p _ _ _ _)

theorem slotSetAct (h : CommandOps K P) (p : Port) (d : List Byte) (hs : P s) : P (s.slotSetAct p d) := by
  unfold State.slotSetAct
  split
  · next hj => exact h.lapse (h.applySlot hs hj) (.reply _ p _ _ _ _)
  · exact h.lapse hs (.reply s p _ _ _ _)

theorem slotGetAct (h : CommandOps K P) (p : Port) (d : List Byte) (hs : P s) : P (s.slotGetAct p d) := by
  unfold State.slotGetAct
  split <;> exact h.lapse hs (.reply s p _ _ _ _)

theorem slotClearAct (h : CommandOps K P) (p : Port) (d : List Byte) (hs : P s) : P (s.slotClearAct p d) := by
  unfold State.slotClearAct State.beginClear
  dsimp only
  split
  · exact h.lapse hs (.reply s p _ _ _ _)
  · next c _ =>
    split
    · split
      · exact h.lapse hs (.reply s p _ _ _ _)
      · exact h.lapse hs (.reply s p _ _ _ _)
      · exact h.lapse hs ((State.Lapse.holdSlot _ p).after ((State.Lapse.setContext c (.inr rfl)).after (.setHealth s c _)))
    · exact h.lapse hs ((State.Lapse.reply _ p _ _ _ _).after (.setHealth s c _))

theorem sdrSetAct (h : CommandOps K P) (p : Port) (d : List Byte) (hs : P s) : P (s.sdrSetAct p d) := by
  unfold State.sdrSetAct
  split
  · exact h.lapse hs ((State.Lapse.holdSlot _ p).after (.setSdram s _))
  · exact h.lapse hs (.reply s p _ _ _ _)

theorem sdrSleepAct (h : CommandOps K P) (p : Port) (d : List Byte) (hs : P s) : P (s.sdrSleepAct p d) := by
  have slept : P (if s.sdram.sleepPending || !(s.queue .sd).isEmpty then s.reply p (answerToken d) .sdrSleep .busy []
      else ((s.setSdram { s.sdram with sleepPending := true, sleepReply := some ⟨p, answerToken d⟩ }).holdSlot
        p).wakeIfDue) := by
    split
    · exact h.lapse hs (.reply s p _ _ _ _)
    · exact h.lapse hs ((State.Lapse.wakeIfDue _).after ((State.Lapse.holdSlot _ p).after (.setSdram s _)))
  unfold State.sdrSleepAct
  dsimp only
  split
  · exact h.lapse hs (.reply s p _ _ _ _)
  · exact h.lapse hs (.reply s p _ _ _ _)
  · exact h.lapse hs (.reply s p _ _ _ _)
  · exact slept
  · exact slept

theorem retireAddAct (h : CommandOps K P) (p : Port) (d : List Byte) (hs : P s) : P (s.retireAddAct p d) := by
  unfold State.retireAddAct
  dsimp only
  split
  · refine h.lapse ?_ (.reply _ p _ _ _ _)
    split
    · exact hs
    · exact h.examine _ (h.lapse hs (.setRetired s _ _))
  · exact h.lapse hs (.reply s p _ _ _ _)

theorem retireDropAct (h : CommandOps K P) (p : Port) (d : List Byte) (hs : P s) : P (s.retireDropAct p d) := by
  unfold State.retireDropAct
  dsimp only
  split
  · exact h.lapse hs (.reply s p _ _ _ _)
  · split
    · exact h.lapse hs ((State.Lapse.reply _ p _ _ _ _).after (.setRetired s _ _))
    · exact h.lapse hs (.reply s p _ _ _ _)

theorem retireListAct (h : CommandOps K P) (p : Port) (d : List Byte) (hs : P s) : P (s.retireListAct p d) := by
  unfold State.retireListAct
  split <;> exact h.lapse hs (.reply s p _ _ _ _)

theorem cancelAct (h : CommandOps K P) (p : Port) (d : List Byte) (hs : P s) : P (s.cancelAct p d) := by
  unfold State.cancelAct
  dsimp only
  split
  · exact h.lapse hs (.reply s p _ _ _ _)
  · next e hfind =>
    split
    · next hst => exact h.lapse (h.cancel hs hfind (.inl hst)) (.reply _ p _ _ _ _)
    · next hst => exact h.lapse (h.cancel hs hfind (.inr hst)) (.reply _ p _ _ _ _)
    · exact h.lapse hs (.reply s p _ _ _ _)
    · exact h.lapse hs (.reply s p _ _ _ _)
    · exact h.lapse hs (.reply s p _ _ _ _)

theorem bridgeResetAct (h : CommandOps K P) (p : Port) (d : List Byte) (hs : P s) : P (s.bridgeResetAct p d) := by
  unfold State.bridgeResetAct
  split
  · exact h.lapse hs ((State.Lapse.reply _ p _ _ _ _).after (.of_eq rfl rfl rfl rfl rfl))
  · exact h.lapse hs (.reply s p _ _ _ _)

theorem portResetStep (h : CommandOps K P) (p : Port) (cause : PortStart) (hs : P s) : P (s.portResetStep p cause) :=
  h.examine _ (h.examine _ (h.examine _ (h.examine _ (h.portReset p cause hs))))

theorem takePortReset (h : CommandOps K P) (p : Port) (seq : Byte) (d : List Byte) (hs : P s) :
    P (s.takePortReset p seq d).settle := by
  refine h.settle (h.takeMessage hs fun hu => ?_)
  unfold State.dealPortReset
  split
  · exact h.lapse hu (.slotAnswer _ p rfl)
  · exact h.lapse hu (.slotAnswer _ p rfl)
  · split
    · exact h.lapse hu (.slotAnswer _ p rfl)
    · exact h.portResetStep p _ hu

/-! ### Lines -/

theorem breakTaken (h : CommandOps K P) (p : Port) (hs : P s) : P (s.breakTaken p) := by
  unfold State.breakTaken
  dsimp only
  split
  · exact hs
  · have hu := h.lapse hs (.setRxd s p false)
    have hv := h.lapse hu (.setPort_ready p (u := { (s.setRxd p false).port p with receiver := .inBreak }) rfl)
    split
    · exact h.portResetStep p _ hv
    · exact hv

theorem frameSent (h : CommandOps K P) (p : Port) (hs : P s) : P (s.frameSent p) := by
  unfold State.frameSent
  split
  · next i rest _ hready =>
    have hrest : P (s.setPort p { s.port p with tx := none, ready := rest }) := by
      refine h.lapse hs (.setPort p ?_)
      rw [hready]
      exact (List.sublist_cons_self i rest).filterMap _
    cases i with
    | entryReply tag => exact h.replySent hs hready rfl
    | refusal tag st => exact h.lapse hrest (.freeSlot _ p)
    | ctrl token k st body =>
      have hfree := h.lapse hrest (.freeSlot _ p)
      unfold State.itemSent
      dsimp only
      split
      · exact h.fullReset _ _ hfree
      · exact hfree
    | notice n x => exact h.lapse hrest ((State.Lapse.setNotices _ _).trans (.moveNotice _ p))
  · exact hs

/-! ### NAND slots -/

theorem idleContext (h : CommandOps K P) (c : Chip) (hs : P s) : P (s.idleContext c) :=
  h.examine c (h.lapse hs (.setContext c (.inr rfl)))

theorem endOperation (h : CommandOps K P) {c : Chip} {r : Ref} (st : Status) (hs : P s)
    (hr : (s.context c).entry = some r) : P (s.endOperation c r st) :=
  h.examine c (h.endServing st hs hr rfl)

theorem loadResetDone (h : CommandOps K P) (hs : P s) : P s.loadResetDone := by
  have hu := h.lapse hs (.setContext .s1 (x := Context.idle) (.inr rfl))
  unfold State.loadResetDone
  dsimp only
  split
  · split
    · exact h.lapse hu (.copyEnded _ _ _)
    · exact h.lapse hu (.setStartup _ _)
  · exact hu

theorem endClear (h : CommandOps K P) (c : Chip) (x : Health) (st : Status) (hs : P s) : P (s.endClear c x st) :=
  h.lapse hs ((State.Lapse.deferredReply _ _ _ _ _).after ((State.Lapse.setContext c (.inr rfl)).after (.setHealth s c x)))

theorem takeRise (h : CommandOps K P) (c : Chip) (hs : P s) : P (s.takeRise c) := by
  unfold State.takeRise
  split
  · split
    · exact h.loadResetDone hs
    · exact h.idleContext c hs
  · exact h.endClear c _ _ hs
  · exact h.lapse hs (.setContext c (.inl rfl))

theorem arm (h : CommandOps K P) (c : Chip) (limit : Nat) (ready : Bool) (hs : P s) : P (s.arm c limit ready) := by
  have hu := h.lapse (h.lapse hs (.setReady s c ready)) (.setContext c
    (x := { (s.setReady c ready).context c with timer := some ⟨limit, 0⟩, readySeen := false }) (.inl rfl))
  unfold State.arm
  dsimp only
  split
  · exact h.takeRise c hu
  · exact hu

theorem readyRise (h : CommandOps K P) (c : Chip) (hs : P s) : P (s.readyRise c) := by
  have hu := h.lapse hs (.setReady s c true)
  unfold State.readyRise
  dsimp only
  split
  · exact h.takeRise c hu
  · exact hu

theorem commandEnd (h : CommandOps K P) (ready : Bool) (hs : P s) : P (s.commandEnd ready) := by
  unfold State.commandEnd
  dsimp only
  split
  · exact hs
  · split <;> exact h.arm _ _ _ (h.lapse hs (.endTenure s _ _))

theorem loadingEnd (h : CommandOps K P) (ready : Bool) (hs : P s) : P (s.loadingEnd ready) := by
  unfold State.loadingEnd
  dsimp only
  split
  · exact hs
  · next c _ =>
    split
    · exact hs
    · next e _ =>
      have hu := h.touch e.ref Entry.alike_sectorDone (h.lapse hs (.endTenure s true
        (loadingCycles (s.profile c) e.block e.page (e.moved == 0) ((s.context c).left == 1)
          (loadSector (s.profile c).ecc e.raw (s.stagedSector e e.moved)))))
      have hv := fun st left => h.lapse hu (.setContext c (x := { s.context c with left := left, state := st })
        (.inl (by simp [State.context])))
      split
      · exact h.arm _ _ _ (hv _ _)
      · exact hv _ _

/-- The name under which a context's entry is found. -/
theorem entry_of_contextEntry {c : Chip} {e : Entry} (ht : s.TableLaw) (hce : s.contextEntry c = some e) :
    (s.context c).entry = some e.ref := by
  obtain ⟨r, hr, hfind⟩ := Option.bind_eq_some_iff.1 hce
  rw [hr, ht.ref_of_find hfind]

theorem loadSectorEnd (h : CommandOps K P) (l : Load) (raw : List Byte) (hs : P s) : P (s.loadSectorEnd l raw) := by
  unfold State.loadSectorEnd
  dsimp only
  refine h.lapse hs ((State.Lapse.copyEnded _ _ _).after ((State.Lapse.setStartup _ _).after ?_))
  exact (State.Lapse.setEcc _ _ _).after ((State.Lapse.setContext .s1 (.inr rfl)).after (.endTenure s _ _))

/-- A sector's bytes and result, and after the last one the end of the operation. -/
theorem sectorUnloaded (h : CommandOps K P) {c : Chip} {r : Ref} (l : List Nat) (j : Nat) (d : List Byte)
    (x : SectorResult) {y : Context} (st : Status) (last : Prop) [Decidable last] (hs : P s)
    (hentry : (s.context c).entry = some r) (hy : y.entry = some r) :
    P (if last then
        (((s.stage l j d).updateEntry r (fun z => z.unloaded x)).setContext c y).endOperation c r st
      else ((s.stage l j d).updateEntry r (fun z => z.unloaded x)).setContext c y) := by
  have hu := h.lapse (h.touch r (fun z => z.alike_unloaded x) (h.stage l j d hs))
    (.setContext c (x := y) (.inl (hy.trans hentry.symm)))
  split
  · exact h.endOperation st hu (by simpa using hy)
  · exact hu

theorem unloadingEnd (h : CommandOps K P) (bytes : List Byte) (hs : P s) : P (s.unloadingEnd bytes) := by
  unfold State.unloadingEnd
  dsimp only
  split
  · exact hs
  · next c _ =>
    split
    · next e hce =>
      have hentry := entry_of_contextEntry (h.table hs) hce
      exact h.sectorUnloaded _ _ _ _ _ _
        (h.lapse hs ((State.Lapse.setEcc _ _ _).after (.endTenure s _ _)))
        (by simpa [State.context] using hentry) hentry
    · split
      · exact h.loadSectorEnd _ _ hs
      · exact hs
    · exact hs

theorem postSome (h : CommandOps K P) (x : Option Notice) (hs : P s) : P (s.postSome x) := by
  cases x with
  | none => exact hs
  | some n => exact h.lapse hs (.postBoth s n)

theorem lapse_autoRetire (s : State) (c : Chip) (block : Nat) : s.Lapse (s.autoRetire c block).1 := by
  unfold State.autoRetire
  split
  · exact .refl s
  · split
    · exact .setRetired s c _
    · exact .refl s

theorem statusEnd (h : CommandOps K P) (b : Byte) (hs : P s) : P (s.statusEnd b) := by
  unfold State.statusEnd
  dsimp only
  split
  · exact hs
  · next c _ =>
    split
    · exact hs
    · next e hce =>
      have hentry := entry_of_contextEntry (h.table hs) hce
      have hu := h.lapse hs (.endTenure s false (statusCycles b))
      have hentry : ((s.endTenure false (statusCycles b)).context c).entry = some e.ref := by
        simpa [State.context] using hentry
      split
      · refine h.postSome _ (h.endOperation .nandFail (h.lapse hu (lapse_autoRetire _ c e.block)) ?_)
        rw [← hentry]
        unfold State.autoRetire
        split_ifs <;> rfl
      · exact h.endOperation .ok hu hentry

theorem idEnd (h : CommandOps K P) (bytes : List Byte) (hs : P s) : P (s.idEnd bytes) := by
  unfold State.idEnd
  dsimp only
  split
  · exact hs
  · next c _ =>
    split
    · exact hs
    · next e hce =>
      have hentry := entry_of_contextEntry (h.table hs) hce
      exact h.endOperation .ok (h.lapse (h.stage _ _ _ hs) (.endTenure _ _ _)) (by simpa [State.context] using hentry)

theorem resetEnd (h : CommandOps K P) (ready : Bool) (hs : P s) : P (s.resetEnd ready) := by
  unfold State.resetEnd
  dsimp only
  split
  · exact hs
  · next c _ =>
    have hu := h.lapse hs (.endTenure s true resetCycles)
    exact h.arm _ _ _ (h.lapse hu (.setContext c (.inl rfl)))

theorem busyTimeout (h : CommandOps K P) (c : Chip) (hs : P s) : P (s.busyTimeout c) := by
  unfold State.busyTimeout
  dsimp only
  split
  · next hr _ => exact h.lapse (h.endServing .nandTimeout hs hr rfl) (.post _ _ _)
  · exact hs

theorem recoveryExpiry (h : CommandOps K P) (c : Chip) (hs : P s) : P (s.recoveryExpiry c) := by
  unfold State.recoveryExpiry
  dsimp only
  split
  · exact h.lapse (h.flush _ (h.lapse hs ((State.Lapse.setContext c (.inr rfl)).after (.setHealth s c _))))
      (.postBoth _ _)
  · exact hs

theorem clearExpiry (h : CommandOps K P) (c : Chip) (hs : P s) : P (s.clearExpiry c) := by
  unfold State.clearExpiry
  split
  · exact h.endClear c _ _ hs
  · exact hs

theorem loadTimeout (h : CommandOps K P) (hs : P s) : P s.loadTimeout := by
  unfold State.loadTimeout
  dsimp only
  split
  · split
    · exact h.loadResetDone hs
    · exact h.lapse hs ((State.Lapse.postBoth _ _).after ((State.Lapse.setStartup _ _).after (.setContext .s1 (.inr rfl))))
    · exact hs
  · exact hs

/-! ### Tenures of the setup load, and its walk -/

theorem loadChunkEnd (h : CommandOps K P) (xs : List Sample) (hs : P s) : P (s.loadChunkEnd xs) := by
  unfold State.loadChunkEnd
  dsimp only
  split
  · have hu := fun cs x => h.lapse (h.lapse hs (.endTenure s false cs)) (.setStartup _ x)
    split
    · exact hu _ _
    · exact h.lapse (hu _ _) (.copyEnded _ _ _)
  · exact hs

theorem walkStep (h : CommandOps K P) (t : EntryType) {apply : State → NextEntry → State} (hs : P s)
    (happly : ∀ e, P (apply s e)) : P (s.walkStep t apply) := by
  unfold State.walkStep
  dsimp only
  split
  · exact hs
  · split
    · exact hs
    · refine h.lapse ?_ ((State.Lapse.advanceWalk _ _).trans (.tryRun _))
      split
      · exact happly _
      · exact h.lapse hs (.countSkipped s _ _)

theorem applySlotEntry (h : CommandOps K P) (e : NextEntry) (hs : P s) : P (s.applySlotEntry e) := by
  unfold State.applySlotEntry
  split
  · next hj => exact h.lapse (h.applySlot hs hj) (.countApplied _)
  · exact h.lapse hs (.countSkipped s _ _)

/-! ### Every command, every step -/

theorem exec (h : CommandOps K P) (hK : ∀ {s : State} p seq, K s → K (s.takeFrame p seq)) (i : Instr) (hk : K s)
    (hs : P s) : ∃ t, Machine.exec i s = .next t ∧ P t := by
  cases i with
  | powerOn pins => exact ⟨_, rfl, h.settle (h.fullReset _ _ hs)⟩
  | resetPin pins => exact ⟨_, rfl, h.settle (h.fullReset _ _ hs)⟩
  | characterReceived p c stop => exact ⟨_, rfl, h.settle (h.lapse hs (.character s p c stop))⟩
  | frameGapTimeout p => exact ⟨_, rfl, h.settle (h.lapse hs (.gapTimeout s p))⟩
  | linkBreak p => exact ⟨_, rfl, h.settle (h.breakTaken p hs)⟩
  | rxdRise p => exact ⟨_, rfl, h.settle (h.lapse hs (.rxdHigh s p))⟩
  | holdChange p level => exact ⟨_, rfl, h.settle (h.lapse hs (.of_eq rfl rfl rfl rfl rfl))⟩
  | frameSent p => exact ⟨_, rfl, h.settle (h.frameSent p hs)⟩
  | read p seq d => exact ⟨_, rfl, h.takeRequest hK .read p seq d hk hs⟩
  | write p seq d => exact ⟨_, rfl, h.takeRequest hK .write p seq d hk hs⟩
  | cset p seq d => exact ⟨_, rfl, h.takeRequest hK .cset p seq d hk hs⟩
  | swap p seq d => exact ⟨_, rfl, h.takeRequest hK .swap p seq d hk hs⟩
  | fadd p seq d => exact ⟨_, rfl, h.takeRequest hK .fadd p seq d hk hs⟩
  | pgRead p seq d => exact ⟨_, rfl, h.takeRequest hK .pgRead p seq d hk hs⟩
  | pgProg p seq d => exact ⟨_, rfl, h.takeRequest hK .pgProg p seq d hk hs⟩
  | blkErase p seq d => exact ⟨_, rfl, h.takeRequest hK .blkErase p seq d hk hs⟩
  | nandId p seq d => exact ⟨_, rfl, h.takeRequest hK .nandId p seq d hk hs⟩
  | hello p seq d => exact ⟨_, rfl, h.takeHello p seq d hs⟩
  | info p seq d => exact ⟨_, rfl, h.takeControl .info p seq d hs fun hu => h.lapse hu (.reply _ p _ _ _ _)⟩
  | status p seq d => exact ⟨_, rfl, h.takeControl .status p seq d hs fun hu => h.lapse hu (.reply _ p _ _ _ _)⟩
  | winSet p seq d => exact ⟨_, rfl, h.takeControl .winSet p seq d hs (h.winSetAct p d)⟩
  | winGet p seq d => exact ⟨_, rfl, h.takeControl .winGet p seq d hs (h.winGetAct p d)⟩
  | slotSet p seq d => exact ⟨_, rfl, h.takeControl .slotSet p seq d hs (h.slotSetAct p d)⟩
  | slotGet p seq d => exact ⟨_, rfl, h.takeControl .slotGet p seq d hs (h.slotGetAct p d)⟩
  | slotClear p seq d => exact ⟨_, rfl, h.takeControl .slotClear p seq d hs (h.slotClearAct p d)⟩
  | sdrSet p seq d => exact ⟨_, rfl, h.takeControl .sdrSet p seq d hs (h.sdrSetAct p d)⟩
  | sdrGet p seq d => exact ⟨_, rfl, h.takeControl .sdrGet p seq d hs fun hu => h.lapse hu (.reply _ p _ _ _ _)⟩
  | sdrSleep p seq d => exact ⟨_, rfl, h.takeControl .sdrSleep p seq d hs (h.sdrSleepAct p d)⟩
  | retireAdd p seq d => exact ⟨_, rfl, h.takeControl .retireAdd p seq d hs (h.retireAddAct p d)⟩
  | retireDrop p seq d => exact ⟨_, rfl, h.takeControl .retireDrop p seq d hs (h.retireDropAct p d)⟩
  | retireList p seq d => exact ⟨_, rfl, h.takeControl .retireList p seq d hs (h.retireListAct p d)⟩
  | cancel p seq d => exact ⟨_, rfl, h.takeControl .cancel p seq d hs (h.cancelAct p d)⟩
  | portReset p seq d => exact ⟨_, rfl, h.takePortReset p seq d hs⟩
  | bridgeReset p seq d => exact ⟨_, rfl, h.takeControl .bridgeReset p seq d hs (h.bridgeResetAct p d)⟩
  | chunkEnd xs =>
    refine ⟨_, rfl, h.settle ?_⟩
    split
    · exact h.loadChunkEnd xs hs
    · exact h.chunkEnd xs hs
  | atomicEnd xs => exact ⟨_, rfl, h.settle (h.atomicEnd xs hs)⟩
  | waitLimitReached k xs => exact ⟨_, rfl, h.settle (h.waitLimit k xs hs)⟩
  | nandCommandEnd ready => exact ⟨_, rfl, h.settle (h.commandEnd ready hs)⟩
  | loadingTenureEnd ready => exact ⟨_, rfl, h.settle (h.loadingEnd ready hs)⟩
  | unloadingTenureEnd bytes => exact ⟨_, rfl, h.settle (h.unloadingEnd bytes hs)⟩
  | statusTenureEnd b => exact ⟨_, rfl, h.settle (h.statusEnd b hs)⟩
  | idTenureEnd bytes => exact ⟨_, rfl, h.settle (h.idEnd bytes hs)⟩
  | resetTenureEnd ready => exact ⟨_, rfl, h.settle (h.resetEnd ready hs)⟩
  | nandReadyRise c => exact ⟨_, rfl, h.settle (h.readyRise c hs)⟩
  | nandTimeout c => exact ⟨_, rfl, h.settle (h.busyTimeout c hs)⟩
  | recoveryResetExpiry c => exact ⟨_, rfl, h.settle (h.recoveryExpiry c hs)⟩
  | clearResetExpiry c => exact ⟨_, rfl, h.settle (h.clearExpiry c hs)⟩
  | loadBusyTimeout => exact ⟨_, rfl, h.settle (h.loadTimeout hs)⟩
  | refreshExpiry => exact ⟨_, rfl, h.settle (h.lapse hs (.refreshExpiry s))⟩
  | refreshRoundEnd => exact ⟨_, rfl, h.settle (h.lapse hs (.refreshRoundEnd s))⟩
  | powerdownEntry => exact ⟨_, rfl, h.settle (h.lapse hs (.enterPowerDown s))⟩
  | selfRefreshTimer => exact ⟨_, rfl, h.settle (h.lapse hs (.selfRefreshReached s))⟩
  | selfRefreshEntryEnd => exact ⟨_, rfl, h.settle (h.lapse hs (.selfRefreshEntryEnd s))⟩
  | selfRefreshExitEnd => exact ⟨_, rfl, h.settle (h.lapse hs (.selfRefreshExitEnd s))⟩
  | stabilisationWaitEnd => exact ⟨_, rfl, h.settle (h.lapse hs (.stabilised s))⟩
  | prechargeStepEnd => exact ⟨_, rfl, h.settle (h.lapse hs (.prechargeStepEnd s))⟩
  | refreshStepEnd => exact ⟨_, rfl, h.settle (h.lapse hs (.refreshStepEnd s))⟩
  | modeStepEnd => exact ⟨_, rfl, h.settle (h.lapse hs (.modeStepEnd s))⟩
  | setupPortsEntry => exact ⟨_, rfl, h.settle (h.walkStep .ports hs fun e => h.lapse hs (.applyPorts s e))⟩
  | setupSlotEntry => exact ⟨_, rfl, h.settle (h.walkStep .slot hs fun e => h.applySlotEntry e hs)⟩
  | setupSdramEntry => exact ⟨_, rfl, h.settle (h.walkStep .sdram hs fun e => h.lapse hs (.applySdramEntry s e))⟩
  | setupWindowEntry => exact ⟨_, rfl, h.settle (h.walkStep .window hs fun e => h.lapse hs (.applyWindowEntry s e))⟩
  | setupRetireEntry => exact ⟨_, rfl, h.settle (h.walkStep .retire hs fun e => h.lapse hs (.applyRetireEntry s e))⟩
  | setupUnknownEntry => exact ⟨_, rfl, h.settle (h.lapse hs (.walkUnknown s))⟩

/-- Every step keeps `P`. -/
theorem step (h : CommandOps K P) (hK : ∀ {s : State} p seq, K s → K (s.takeFrame p seq))
    (hrest : ∀ {s : State} rest, K s → K { s with pending := rest }) {t : State} (hstep : Machine.step s = .next t)
    (hk : K s) (hs : P s) : P t := by
  unfold Machine.step at hstep
  split at hstep
  · obtain rfl := Host.Outcome.next.inj hstep
    exact h.lapse hs (.tick s)
  · next i rest _ =>
    obtain ⟨u, hu, hpu⟩ := h.exec (s := { s with pending := rest }) hK i (hrest rest hk)
      (h.lapse hs (.of_eq rfl rfl rfl rfl rfl))
    rw [hu] at hstep
    exact Host.Outcome.next.inj hstep ▸ hpu

end CommandOps

end Sys2Proof.Machine
end

section
/-! Admission (R5, R8): when a request becomes an entry and which entry it becomes, and that every command keeps the table law,
the pool law and the form of the staging memory. -/
namespace Sys2Proof.Machine

/-! ### An admitted request -/

/-- What the checks of a request that becomes the entry `e` have found (R8). -/
structure State.Admits (s : State) (p : Port) (q : Request) (k : Slot) (offset : Nat) : Prop where
  room : (s.entries p).length < 16
  tagFree : ∀ x ∈ s.entries p, x.tag ≠ q.tag
  formed : q.wellFormed = true
  target : s.target p q = .ok (k, offset)
  writable : ¬(q.kind.isAtomic = true ∧ s.isNor k = true)
  healthy : s.healthy k = true
  claim : s.pool.canClaim p (segmentNeed q (s.profileOf k).sectors) = true

/-- The entry that an admitted request becomes (R5, R45). -/
def State.admitted (s : State) (p : Port) (q : Request) (k : Slot) (offset : Nat) : Entry :=
  newEntry p q k offset (s.profileOf k).sectors (s.profileOf k).ecc
    (s.pool.free.take (segmentNeed q (s.profileOf k).sectors))

theorem State.Admits.judge {s : State} {p : Port} {q : Request} {k : Slot} {offset : Nat} (h : s.Admits p q k offset) :
    s.judge p q = .ok (s.admitted p q k offset) := by
  have htag : (s.entries p).any (fun e => e.tag == q.tag) = false := by simpa using h.tagFree
  have hnor : (q.kind.isAtomic && s.isNor k) = false := by simpa using h.writable
  unfold State.judge
  simp only [Nat.not_le.2 h.room, htag, h.formed, h.target, hnor, h.healthy, h.claim, if_false, Bool.true_eq_false,
    Bool.false_eq_true]
  rfl

theorem State.judge_eq_ok {s : State} {p : Port} {q : Request} {e : Entry} (h : s.judge p q = .ok e) :
    ∃ k offset, s.Admits p q k offset ∧ e = s.admitted p q k offset := by
  unfold State.judge at h
  split at h
  · cases h
  next hroom =>
  split at h
  · cases h
  next htag =>
  split at h
  · cases h
  next hformed =>
  split at h
  · cases h
  next k offset htarget =>
  dsimp only at h
  split at h
  · cases h
  next hnor =>
  split at h
  · cases h
  next hhealthy =>
  split at h
  · cases h
  next hclaim =>
  refine ⟨k, offset, ⟨by omega, by simpa using htag, by simpa using hformed, htarget, by simpa using hnor,
    by simpa using hhealthy, by simpa using hclaim⟩, ?_⟩
  exact (Except.ok.inj h).symm

/-- A met claim takes as many segments as it asks for. -/
theorem length_take_of_canClaim {x : Pool} {p : Port} {n : Nat} (h : x.canClaim p n = true) : (x.free.take n).length = n := by
  simp only [Pool.canClaim, Bool.or_eq_true, beq_iff_eq, Bool.and_eq_true, decide_eq_true_eq] at h
  rw [List.length_take]
  omega

/-! ### Staging at admission -/

theorem stageSpare_wf (segments : List Nat) (base : Nat) : ∀ (is : List Nat) (bs : List Byte) (m : List Host.Cell),
    Memory.wf m = true → Memory.wf (stageSpare m segments base is bs) = true
  | [], _, _, h => h
  | _ :: _, [], _, h => h
  | _ :: is, b :: bs, _, h => stageSpare_wf segments base is bs _ (stagingWrite_wf segments [b] _ _ h)

theorem stageSector_wf (segments spare : List Nat) (k : Nat) (d : List Byte) {m : List Host.Cell} (h : Memory.wf m = true) :
    Memory.wf (stageSector m segments spare k d) = true :=
  stageSpare_wf segments _ spare _ _ (stagingWrite_wf segments _ _ _ h)

theorem stageSectors_wf (segments spare : List Nat) : ∀ (n k : Nat) (d : List Byte) {m : List Host.Cell},
    Memory.wf m = true → Memory.wf (stageSectors m segments spare k n d) = true
  | 0, _, _, _, h => h
  | n + 1, k, _, _, h => stageSectors_wf segments spare n (k + 1) _ (stageSector_wf segments spare k _ h)

theorem placeData_wf (e : Entry) (d : List Byte) {m : List Host.Cell} (h : Memory.wf m = true) :
    Memory.wf (placeData m e d) = true := by
  unfold placeData
  split
  · exact stagingWrite_wf _ _ _ _ h
  · exact stageSectors_wf _ _ _ _ _ h
  · exact h

/-- The state with a new HELD entry at the tail of its port's list, before any fence is looked at (R5). -/
def State.appended (s : State) (e : Entry) (data : List Byte) : State :=
  { s with
    table := s.table.set e.port (s.entries e.port ++ [e])
    pool := { (s.pool.claim e.port e.segments.length).2 with bytes := placeData s.pool.bytes e data } }

/-- Creation appends the entry, and joins it to its slot's queue where nothing fences it. -/
theorem State.create_eq (s : State) (e : Entry) (data : List Byte) :
    s.create e data =
      if fencedBy (s.entries e.port) e.ordered then s.appended e data else (s.appended e data).join e.ref e.slot := rfl

theorem State.entries_appended (s : State) (e : Entry) (data : List Byte) (q : Port) :
    (s.appended e data).entries q = if q = e.port then s.entries e.port ++ [e] else s.entries q :=
  State.entries_setEntries s e.port q _

theorem State.Sound.appended {s : State} (hs : s.Sound) {p : Port} {q : Request} {k : Slot} {offset : Nat}
    (h : s.Admits p q k offset) (data : List Byte) : (s.appended (s.admitted p q k offset) data).Sound := by
  have hentries : ∀ x, (s.appended (s.admitted p q k offset) data).entries x =
      if x = p then s.entries p ++ [s.admitted p q k offset] else s.entries x :=
    s.entries_appended _ data
  have hlen := length_take_of_canClaim h.claim
  refine ⟨hs.table.append h.room h.tagFree rfl hentries, hs.pool.claim h.claim ?_ ?_ ?_ ?_, placeData_wf _ _ hs.bytes⟩
  · simp only [State.heldSegments, hentries, if_pos, List.flatMap_append, List.flatMap_singleton]
    rfl
  · simp [State.heldSegments, hentries]
  · exact congrArg (List.drop · s.pool.free) hlen
  · exact congrArg (fun n => s.pool.holding.set p (s.pool.holding.get p + n)) hlen

/-! ### A port reset's entries -/

theorem sublist_filterMap_afterPortReset : ∀ es : List Entry,
    ((es.filterMap Entry.afterPortReset).map Entry.ref).Sublist (es.map Entry.ref)
  | [] => .refl _
  | e :: es => by
    have ih := sublist_filterMap_afterPortReset es
    cases hst : e.state <;> simp only [List.filterMap_cons, Entry.afterPortReset, hst, List.map_cons]
    · exact ih.cons _
    · exact ih.cons _
    · exact ih.cons_cons _
    · exact ih.cons _
    · exact ih.cons_cons _

/-- The segments of a reset port's entries are those released and those kept (R25, R53). -/
theorem perm_resetSegments : ∀ es : List Entry,
    (es.flatMap Entry.segments).Perm (resetSegments es ++ (es.filterMap Entry.afterPortReset).flatMap Entry.segments)
  | [] => .refl _
  | e :: es => by
    have ih := (perm_resetSegments es).append_left e.segments
    have hreset : resetSegments (e :: es) = (if e.afterPortReset.isNone then e.segments else []) ++ resetSegments es := by
      unfold resetSegments
      rw [List.filter_cons]
      split <;> simp
    rw [List.flatMap_cons, hreset]
    refine ih.trans ?_
    cases hst : e.state <;> simp only [List.filterMap_cons, Entry.afterPortReset, hst, Option.isNone, if_true,
      Bool.false_eq_true, if_false, List.nil_append, List.flatMap_cons]
    · rw [List.append_assoc]
    · rw [List.append_assoc]
    · rw [← List.append_assoc, ← List.append_assoc]
      exact List.perm_append_comm.append_right _
    · rw [List.append_assoc]
    · rw [← List.append_assoc, ← List.append_assoc]
      exact List.perm_append_comm.append_right _

/-- The state after a port reset's own part: its entries, deferred replies, port unit and notices (R180). -/
def State.cleared (s : State) (p : Port) (cause : PortStart) : State :=
  { ((s.resetEntries p).dropReplies p).setPort p ((((s.resetEntries p).dropReplies p).port p).reset cause) with
    notices := s.notices.set p (s.notices.get p).reset }

/-- A port reset is its own part, the notice to the other port, and a pending bridge reset carried out (R180, R181). -/
theorem State.portReset_eq (s : State) (p : Port) (cause : PortStart) :
    s.portReset p cause =
      if s.bridgeReset = some p then ((s.cleared p cause).post p.other (.peerReset p cause)).messageReset p
      else (s.cleared p cause).post p.other (.peerReset p cause) := by
  have hb : ((s.cleared p cause).post p.other (.peerReset p cause)).bridgeReset = s.bridgeReset := by
    rw [State.post_bridgeReset]
    rfl
  rw [← hb]
  rfl

theorem State.TableLaw.resetEntries {s : State} (hs : s.TableLaw) (p : Port) : (s.resetEntries p).TableLaw := by
  refine hs.of_sublist fun q => ?_
  unfold State.resetEntries
  dsimp only
  rw [State.entries_setEntries]
  split
  · next hq => exact hq ▸ sublist_filterMap_afterPortReset _
  · exact .refl _

theorem State.Sound.resetEntries {s : State} (hs : s.Sound) (p : Port) : (s.resetEntries p).Sound := by
  have hentries : ∀ q, (s.resetEntries p).entries q =
      if q = p then (s.entries p).filterMap Entry.afterPortReset else s.entries q := fun q =>
    State.entries_setEntries _ p q _
  refine ⟨hs.table.resetEntries p, hs.pool.release (p := p) (segments := resetSegments (s.entries p)) ?_ ?_ rfl, hs.bytes⟩
  · simpa only [State.heldSegments, hentries, if_pos] using perm_resetSegments (s.entries p)
  · simp [State.heldSegments, hentries]

theorem State.Sound.fullReset {s : State} (hs : s.Sound) (cause : Cause) (pins : Pins) : (s.fullReset cause pins).Sound := by
  have hempty : ∀ p, (s.fullReset cause pins).entries p = [] := fun p => by cases p <;> rfl
  have hheld : ∀ p, (s.fullReset cause pins).heldSegments p = [] := fun p => by
    rw [State.heldSegments, hempty]
    rfl
  refine ⟨fun p => by simp [hempty], ⟨?_, ?_, ?_, ?_⟩, ?_⟩
  · rw [hheld, hheld, List.append_nil, List.append_nil]
    exact .refl _
  · exact List.pairwise_lt_range
  · intro p
    rw [hheld]
    cases p <;> rfl
  · exact (by decide : unusedReserve 0 + unusedReserve 0 ≤ (List.range 64).length)
  · simp only [State.fullReset, State.afterReset, Pool.afterReset]
    split
    · rfl
    · exact hs.bytes

/-! ### Every command -/

theorem State.Sound.lapse {s t : State} (hs : s.Sound) (h : s.Lapse t) : t.Sound := hs.frame h.table h.pool

theorem State.Sound.endWork {s : State} (hs : s.Sound) (e : Entry) (st : Status) : (s.endWork e st).Sound :=
  tableOps_sound.complete _ _ (hs.frame rfl rfl)

theorem State.Sound.setProgress {s : State} (hs : s.Sound) (r : Ref) (n : Nat) : (s.setProgress r n).Sound :=
  hs.touch r fun _ => ⟨rfl, rfl⟩

theorem State.Sound.endTenure {s : State} (hs : s.Sound) (w : Bool) (cs : List BusCycle) : (s.endTenure w cs).Sound :=
  hs.lapse (.endTenure s w cs)

theorem State.Sound.moveChunk {s : State} (hs : s.Sound) (t : Tenure) (e : Entry) (xs : List Sample) :
    (s.moveChunk t e xs).Sound := by
  have hstage : ∀ w, (s.stageChunk e w xs).Sound := fun w => by
    unfold State.stageChunk
    split
    · exact hs
    · exact hs.stage _ _ _
  unfold State.moveChunk
  dsimp only
  split
  · exact (hstage _).endTenure _ _
  · exact (hstage _).lapse ((State.Lapse.endSd _ _ _).trans (.setSdram _ _))

theorem State.Sound.chunkEnd {s : State} (hs : s.Sound) (xs : List Sample) : (s.chunkEnd xs).Sound := by
  unfold State.chunkEnd
  dsimp only
  split
  · split
    · exact ((hs.moveChunk _ _ xs).setProgress _ _).endWork _ _
    · exact (hs.moveChunk _ _ xs).setProgress _ _
  · exact hs

theorem State.Sound.atomicEnd {s : State} (hs : s.Sound) (xs : List Sample) : (s.atomicEnd xs).Sound := by
  unfold State.atomicEnd
  split
  · next t e _ =>
    have hmove : (s.moveAtomic t e xs).Sound := by
      unfold State.moveAtomic
      dsimp only
      split
      · exact (hs.stage _ _ _).endTenure _ _
      · exact (hs.stage _ _ _).lapse ((State.Lapse.endSd _ _ _).trans (.setSdram _ _))
    exact (hmove.setProgress _ _).endWork _ _
  · exact hs

theorem State.Sound.waitLimit {s : State} (hs : s.Sound) (k : Nat) (xs : List Sample) : (s.waitLimit k xs).Sound := by
  unfold State.waitLimit
  split
  · next c e _ =>
    split
    · have hstage : ((s.setHealth c .stalled).stageWaited (s.profile c) e k xs).Sound := by
        unfold State.stageWaited
        split
        · exact hs.frame rfl rfl
        · exact State.Sound.stage (s := s.setHealth c .stalled) (hs.frame rfl rfl) _ _ _
      have hgrant := tableOps_sound.grant (hstage.endTenure (s.waitCycles (s.profile c) e k xs).1
        (s.waitCycles (s.profile c) e k xs).2)
      exact (tableOps_sound.flush (.chip c) ((hgrant.setProgress e.ref _).endWork e .busTimeout)).lapse (.postBoth _ _)
    · exact hs
  · exact hs

theorem State.Sound.create {s : State} (hs : s.Sound) {p : Port} {q : Request} {e : Entry} (h : s.judge p q = .ok e) :
    (s.create e q.data).Sound := by
  obtain ⟨k, offset, hadmits, rfl⟩ := State.judge_eq_ok h
  have happ := hs.appended hadmits q.data
  rw [State.create_eq]
  split
  · exact happ
  · exact tableOps_sound.join _ _ happ

theorem State.Sound.portReset {s : State} (hs : s.Sound) (p : Port) (cause : PortStart) : (s.portReset p cause).Sound := by
  have hpost : ((s.cleared p cause).post p.other (.peerReset p cause)).Sound :=
    State.Sound.lapse (s := s.cleared p cause) ((hs.resetEntries p).frame rfl rfl) (.post _ _ _)
  rw [State.portReset_eq]
  split
  · exact hpost.fullReset _ _
  · exact hpost

theorem commandOps_sound : CommandOps (fun _ => True) State.Sound where
  table hs := hs.table
  lapse hs h := hs.lapse h
  touch r _ hf hs := hs.touch r fun e => ⟨(hf e).ref, (hf e).segments⟩
  stage l j d hs := hs.stage l j d
  examine c hs := tableOps_sound.examine c hs
  flush k hs := tableOps_sound.flush k hs
  grant hs := tableOps_sound.grant hs
  create _ hs h := hs.create h
  cancel {s r e} hs _ _ := by
    have hc : ∀ {u : State}, u.Sound → (u.complete e.ref .cancelled).Sound := fun hu => tableOps_sound.complete _ _ hu
    have hu : ((if e.state = .queued then s.dequeue e.slot e.ref else s).complete e.ref .cancelled).Sound := by
      split
      · exact hc (hs.frame rfl rfl)
      · exact hc hs
    unfold State.cancelEntry
    dsimp only
    split
    · exact tableOps_sound.examine _ hu
    · exact hu
  endServing st _ hs _ _ := (tableOps_sound.complete _ st hs).frame rfl rfl
  chunkEnd xs hs := hs.chunkEnd xs
  atomicEnd xs hs := hs.atomicEnd xs
  waitLimit k xs hs := hs.waitLimit k xs
  replySent {s p _ _ u} hs _ _ := State.Sound.freeEntry (s := s.setPort p u) (hs.frame rfl rfl) _
  applySlot hs _ := hs.frame rfl rfl
  portReset p cause hs := hs.portReset p cause
  fullReset cause pins hs := hs.fullReset cause pins

/-- Every step keeps the table law, the pool law and the canonical form of the staging memory (R6, R7, R43). -/
theorem step_keeps_sound {s t : State} (h : step s = .next t) (hs : s.Sound) : t.Sound :=
  commandOps_sound.step (fun _ _ h => h) (fun _ h => h) h trivial hs

end Sys2Proof.Machine
end

section
/-! The laws of queues, kinds, work and replies in one, entry by entry as the names find them (R10, R17, R24, R58, R64, R71,
R111, R122), and how each part of an operation keeps them. -/
namespace Sys2Proof.Machine

/-- What R10, R11 and R71 ask of an entry not yet answered: a NAND kind on a NAND slot with a block of its own, and another kind
elsewhere. -/
def State.Suits (s : State) (e : Entry) : Prop :=
  match e.slot with
  | .chip c =>
    (e.kind.isNand = true ↔ (s.profile c).type = .nand) ∧ (e.kind.isNand = true → e.block < (s.profile c).blockCount)
  | .sd => e.kind.isNand = false

theorem State.Suits.chip {s : State} {e : Entry} {c : Chip} (h : s.Suits e) (hc : e.slot = .chip c) :
    (e.kind.isNand = true ↔ (s.profile c).type = .nand) ∧ (e.kind.isNand = true → e.block < (s.profile c).blockCount) := by
  unfold State.Suits at h
  rwa [hc] at h

theorem State.Suits.sd {s : State} {e : Entry} (h : s.Suits e) (hc : e.slot = .sd) : e.kind.isNand = false := by
  unfold State.Suits at h
  rwa [hc] at h

/-- The condition rests on the entry's kind, slot and block and on its slot's profile. -/
theorem State.Suits.congr {s t : State} {x y : Entry} (h : s.Suits x) (hkind : y.kind = x.kind) (hslot : y.slot = x.slot)
    (hblock : y.block = x.block) (hprofile : ∀ c, x.slot = .chip c → t.profile c = s.profile c) : t.Suits y := by
  unfold State.Suits at h ⊢
  rw [hkind, hslot, hblock]
  cases hs : x.slot with
  | sd => simpa [hs] using h
  | chip c => simpa [hs, hprofile c hs] using h

/-- An entry that a context of slot `c` may serve (R17, R122). -/
def State.ServedBy (s : State) (c : Chip) (r : Ref) : Prop :=
  r ∉ s.queue (.chip c) ∧ ∃ e, s.find r = some e ∧ e.slot = .chip c ∧ e.kind.isNand = true ∧ e.state.works

/-- An entry that a tenure of slot `k` may serve for a chunk or an atomic (R64). -/
def State.Transfers (s : State) (k : Slot) (r : Ref) : Prop :=
  r ∈ s.queue k ∧ ∃ e, s.find r = some e ∧ e.kind.isNand = false ∧ e.state.works

/-- The purposes of a tenure that moves an entry's data on a static slot or SD. -/
def Purpose.transfers (x : Purpose) : Prop := x = .chunk ∨ x = .atomic

/-- The laws of queues, kinds, work and replies with the table law, of every context that `C` names. -/
structure State.Orderly (C : Chip → Prop) (s : State) : Prop where
  table : s.TableLaw
  nodup : ∀ k, (s.queue k).Nodup
  named : ∀ k, ∀ r ∈ s.queue k, ∃ e, s.find r = some e ∧ e.slot = k ∧ e.state.waitsOrWorks
  queued : ∀ r e, s.find r = some e → e.state = .queued → r ∈ s.queue e.slot
  bypass : ∀ r ∈ s.queue .sd, ∀ e, s.find r = some e → ∃ n, e.bypass = some n ∧ n ≤ 4
  kind : ∀ r e, s.find r = some e → e.state ≠ .replying → s.Suits e
  context : ∀ c, C c → ∀ r, (s.context c).entry = some r → s.ServedBy c r
  tenure : ∀ t r, s.arbiter.tenure = some t → t.entry = some r → t.purpose.transfers → s.Transfers t.slot r
  once : ∀ p, (s.replies p).Nodup
  replying : ∀ p, ∀ tag ∈ s.replies p, ∃ e, s.find ⟨p, tag⟩ = some e ∧ e.state = .replying

/-- Every context. -/
abbrev everyChip : Chip → Prop := fun _ => True

/-- The laws one by one say the same. -/
theorem State.orderly_iff {s : State} :
    s.Orderly everyChip ↔ s.TableLaw ∧ s.QueueLaw ∧ s.KindLaw ∧ s.WorkLaw ∧ s.ReplyLaw := by
  constructor
  · intro h
    have found : ∀ p, ∀ e ∈ s.entries p, s.find e.ref = some e := fun p e he => by
      rw [Entry.ref, (h.table p).2.2 e he]
      exact h.table.find_of_mem he
    refine ⟨h.table, ⟨fun k => ⟨h.nodup k, h.named k⟩, fun p e he => h.queued _ _ (found p e he), fun r hr => ?_⟩,
      fun p e he => h.kind _ _ (found p e he), ⟨fun c => h.context c trivial, h.tenure⟩,
      fun p => ⟨h.once p, fun tag htag => h.replying p tag (State.mem_replies.2 htag)⟩⟩
    obtain ⟨e, he, -⟩ := h.named _ r hr
    obtain ⟨n, hn⟩ := h.bypass r hr e he
    exact ⟨e, n, he, hn⟩
  · rintro ⟨ht, ⟨hnamed, hqueued, hbypass⟩, hkind, ⟨hcontext, htenure⟩, hreply⟩
    refine ⟨ht, fun k => (hnamed k).1, fun k => (hnamed k).2, fun r e he hq => ?_, fun r hr e he => ?_,
      fun r e he => hkind _ e (State.find_mem he), fun c _ => hcontext c, htenure, fun p => (hreply p).1,
      fun p tag htag => (hreply p).2 tag (State.mem_replies.1 htag)⟩
    · exact ht.ref_of_find he ▸ hqueued _ e (State.find_mem he) hq
    · obtain ⟨x, n, hx, hn⟩ := hbypass r hr
      obtain rfl := Option.some.inj (hx.symm.trans he)
      exact ⟨n, hn⟩

namespace State.Orderly

variable {C : Chip → Prop} {s t : State}

/-- An entry in no queue is in the queue of no slot, for a queue names entries of its own slot. -/
theorem not_mem_of_slot (h : s.Orderly C) {r : Ref} {e : Entry} (he : s.find r = some e) {k : Slot} (hk : e.slot ≠ k) :
    r ∉ s.queue k := fun hr => by
  obtain ⟨x, hx, hslot, -⟩ := h.named k r hr
  exact hk (Option.some.inj (he.symm.trans hx) ▸ hslot)

/-- An entry that neither waits nor works is in no queue. -/
theorem not_mem_of_state (h : s.Orderly C) {r : Ref} {e : Entry} (he : s.find r = some e)
    (hst : ¬e.state.waitsOrWorks) (k : Slot) : r ∉ s.queue k := fun hr => by
  obtain ⟨x, hx, -, hw⟩ := h.named k r hr
  exact hst (Option.some.inj (he.symm.trans hx) ▸ hw)

theorem not_mem_replies (h : s.Orderly C) {r : Ref} {e : Entry} (he : s.find r = some e) (hst : e.state ≠ .replying) :
    r.tag ∉ s.replies r.port := fun hr => by
  obtain ⟨x, hx, hrep⟩ := h.replying _ _ hr
  exact hst (Option.some.inj (he.symm.trans hx) ▸ hrep)

theorem weaken (h : s.Orderly C) {D : Chip → Prop} (hD : ∀ c, D c → C c) : s.Orderly D :=
  { h with context := fun c hc => h.context c (hD c hc) }

/-! ### Changes beside the table -/

theorem lapse (h : s.Orderly C) (hl : s.Lapse t) : t.Orderly C := by
  have hfind : ∀ r, t.find r = s.find r := State.find_of_table hl.table
  have hqueue : ∀ k, t.queue k = s.queue k := fun k => by simp only [State.queue, hl.queues]
  refine ⟨h.table.frame hl.table, fun k => hqueue k ▸ h.nodup k, fun k r hr => ?_, fun r e he hq => ?_, fun r hr e he => ?_,
    fun r e he hst => ?_, fun c hc r hr => ?_, fun x r hx hr hp => ?_, fun p => (hl.replies p).nodup (h.once p),
    fun p tag htag => ?_⟩
  · rw [hfind]
    exact h.named k r (hqueue k ▸ hr)
  · rw [hqueue]
    exact h.queued r e (hfind r ▸ he) hq
  · exact h.bypass r (hqueue .sd ▸ hr) e (hfind r ▸ he)
  · exact (h.kind r e (hfind r ▸ he) hst).congr rfl rfl rfl fun c _ => by simp only [State.profile, hl.profiles]
  · have hold : (s.context c).entry = some r := (hl.context c).elim (fun e => e ▸ hr) fun e => by simp [e] at hr
    obtain ⟨hq, e, he⟩ := h.context c hc r hold
    exact ⟨hqueue (.chip c) ▸ hq, e, (hfind r).symm ▸ he⟩
  · have hold : s.arbiter.tenure = some x := hl.tenure.elim (fun e => e ▸ hx) fun e => by simp [e] at hx
    obtain ⟨hq, e, he⟩ := h.tenure x r hold hr hp
    exact ⟨hqueue x.slot ▸ hq, e, (hfind r).symm ▸ he⟩
  · rw [hfind]
    exact h.replying p tag ((hl.replies p).subset htag)

/-- A context that serves no entry keeps its law whatever it held. -/
theorem setContext_none {c : Chip} (h : s.Orderly (· ≠ c)) {x : Context} (hx : x.entry = none) :
    (s.setContext c x).Orderly everyChip := by
  have hl : (s.setContext c x).Orderly (· ≠ c) := h.lapse (.setContext c (.inr hx))
  refine { hl with context := fun d _ r hr => ?_ }
  by_cases hd : d = c
  · subst hd
    simp [hx] at hr
  · exact hl.context d hd r hr

/-- A context begins to serve an entry of its own. -/
theorem setContext_some (h : s.Orderly C) {c : Chip} {x : Context} {r : Ref} (hx : x.entry = some r)
    (hr : s.ServedBy c r) : (s.setContext c x).Orderly C := by
  refine ⟨h.table, h.nodup, h.named, h.queued, h.bypass, h.kind, fun d hd y hy => ?_, h.tenure, h.once, h.replying⟩
  rw [State.context_setContext] at hy
  split at hy
  · next hdc =>
    obtain rfl := Option.some.inj (hx.symm.trans hy)
    exact hdc ▸ hr
  · exact h.context d hd y hy

/-- The tenure of a grant (R61, R64). -/
theorem setTenure (h : s.Orderly C) {last : Slot} {x : Tenure}
    (hx : ∀ r, x.entry = some r → x.purpose.transfers → s.Transfers x.slot r) :
    ({ s with arbiter := { s.arbiter with lastGranted := last, tenure := some x } } : State).Orderly C :=
  ⟨h.table, h.nodup, h.named, h.queued, h.bypass, h.kind, h.context,
    fun y r hy hr hp => by obtain rfl := Option.some.inj hy; exact hx r hr hp, h.once, h.replying⟩

/-! ### One entry changed in place -/

/-- An entry that goes on as it was, or from QUEUED to ACTIVE (R17). -/
structure Entry.Advance (x y : Entry) : Prop where
  kind : y.kind = x.kind
  slot : y.slot = x.slot
  block : y.block = x.block
  state : y.state = x.state ∨ x.state = .queued ∧ y.state = .active

theorem Entry.Advance.waitsOrWorks {x y : Entry} (h : Entry.Advance x y) (hx : x.state.waitsOrWorks) :
    y.state.waitsOrWorks := by
  rcases h.state with e | ⟨-, e⟩
  · rwa [e]
  · exact .inr (.inl e)

theorem Entry.Advance.works {x y : Entry} (h : Entry.Advance x y) (hx : x.state.works) : y.state.works := by
  rcases h.state with e | ⟨-, e⟩
  · rwa [e]
  · exact .inl e

theorem Entry.Advance.refl (x : Entry) : Entry.Advance x x := ⟨rfl, rfl, rfl, .inl rfl⟩

theorem updateEntry (h : s.Orderly C) (r : Ref) {f : Entry → Entry} (href : ∀ e, (f e).ref = e.ref)
    (hf : ∀ e, Entry.Advance e (f e))
    (hbypass : ∀ e n, r ∈ s.queue .sd → s.find r = some e → e.bypass = some n → n ≤ 4 →
      ∃ m, (f e).bypass = some m ∧ m ≤ 4) : (s.updateEntry r f).Orderly C := by
  have hfind : ∀ x, (s.updateEntry r f).find x = if x = r then (s.find r).map f else s.find x :=
    fun x => s.find_updateEntry r x fun e => congrArg Ref.tag (href e)
  have forth : ∀ {x e}, s.find x = some e →
      ∃ y, (s.updateEntry r f).find x = some y ∧ Entry.Advance e y := fun {x e} he => by
    rw [hfind]
    split
    · next hx => exact ⟨f e, by rw [← hx, he]; rfl, hf e⟩
    · exact ⟨e, he, .refl e⟩
  have back : ∀ {x y}, (s.updateEntry r f).find x = some y →
      ∃ e, s.find x = some e ∧ Entry.Advance e y ∧ (y = e ∨ x = r ∧ y = f e) := fun {x y} hy => by
    rw [hfind] at hy
    split at hy
    · next hx =>
      obtain ⟨e, he, rfl⟩ := Option.map_eq_some_iff.1 hy
      exact ⟨e, hx ▸ he, hf e, .inr ⟨hx, rfl⟩⟩
    · exact ⟨y, hy, .refl y, .inl rfl⟩
  refine ⟨h.table.updateEntry r href, h.nodup, fun k x hx => ?_, fun x y hy hq => ?_, fun x hx y hy => ?_,
    fun x y hy hst => ?_, fun c hc x hx => ?_, fun u x hu hx hp => ?_, h.once, fun p tag htag => ?_⟩
  · obtain ⟨e, he, hslot, hw⟩ := h.named k x hx
    obtain ⟨y, hy, ha⟩ := forth he
    exact ⟨y, hy, ha.slot.trans hslot, ha.waitsOrWorks hw⟩
  · obtain ⟨e, he, ha, -⟩ := back hy
    rw [ha.slot]
    refine h.queued x e he ?_
    rcases ha.state with hs | ⟨-, hs⟩
    · exact hs ▸ hq
    · simp [hq] at hs
  · obtain ⟨e, he, -, rfl | ⟨rfl, rfl⟩⟩ := back hy
    · exact h.bypass x hx y he
    · obtain ⟨n, hn, hle⟩ := h.bypass x hx e he
      exact hbypass e n hx he hn hle
  · obtain ⟨e, he, ha, -⟩ := back hy
    refine (h.kind x e he fun hs => hst ?_).congr ha.kind ha.slot ha.block fun _ _ => rfl
    rcases ha.state with hs' | ⟨hs', -⟩
    · exact hs'.trans hs
    · simp [hs] at hs'
  · obtain ⟨hq, e, he, hslot, hnand, hw⟩ := h.context c hc x hx
    obtain ⟨y, hy, ha⟩ := forth he
    exact ⟨hq, y, hy, ha.slot.trans hslot, ha.kind ▸ hnand, ha.works hw⟩
  · obtain ⟨hq, e, he, hnand, hw⟩ := h.tenure u x hu hx hp
    obtain ⟨y, hy, ha⟩ := forth he
    exact ⟨hq, y, hy, ha.kind ▸ hnand, ha.works hw⟩
  · obtain ⟨e, he, hrep⟩ := h.replying p tag htag
    obtain ⟨y, hy, ha⟩ := forth he
    refine ⟨y, hy, ?_⟩
    rcases ha.state with hs' | ⟨hs', -⟩
    · exact hs'.trans hrep
    · simp [hrep] at hs'

/-- A change of what the laws do not look at. -/
theorem touch (h : s.Orderly C) (r : Ref) {f : Entry → Entry} (hf : ∀ e : Entry, e.Alike (f e)) :
    (s.updateEntry r f).Orderly C :=
  h.updateEntry r (fun e => (hf e).ref) (fun e => ⟨(hf e).kind, (hf e).slot, (hf e).block, .inl (hf e).state⟩)
    fun e n _ _ hn hle => ⟨n, (hf e).bypass ▸ hn, hle⟩

/-- An entry's bus work begins (R17). -/
theorem activate (h : s.Orderly C) (r : Ref) : (s.updateEntry r Entry.activate).Orderly C := by
  refine h.updateEntry r (fun e => e.activate_keeps.1) (fun e => ?_) fun e n _ _ hn hle => ⟨n, ?_, hle⟩
  · unfold Entry.activate
    split
    · next hq => exact ⟨rfl, rfl, rfl, .inr ⟨hq, rfl⟩⟩
    · exact .refl e
  · unfold Entry.activate
    split <;> exact hn

theorem waitsOrWorks_activate {e : Entry} (h : e.state.waitsOrWorks) : e.activate.state.works := by
  unfold Entry.activate
  split
  · exact .inl rfl
  · next hq => exact h.resolve_left hq

/-! ### An entry leaves -/

/-- An entry that no queue, context or tenure names any more is answered or freed (R18, R19, R26). -/
theorem remove (h : s.Orderly C) {r : Ref} (ht : t.TableLaw) (hfind : ∀ x, x ≠ r → t.find x = s.find x)
    (hend : ∀ e, t.find r = some e → e.state = .replying) (hqueue : ∀ k, t.queue k = (s.queue k).filter (· != r))
    (hprofile : ∀ c, t.profile c = s.profile c) (hcontext : ∀ c, (t.context c).entry = (s.context c).entry)
    (htenure : t.arbiter.tenure = s.arbiter.tenure) (hc : ∀ c, C c → (s.context c).entry ≠ some r)
    (hx : ∀ x, s.arbiter.tenure = some x → x.entry = some r → ¬x.purpose.transfers)
    (honce : ∀ p, (t.replies p).Nodup)
    (hreply : ∀ p, ∀ tag ∈ t.replies p, (⟨p, tag⟩ ≠ r ∧ tag ∈ s.replies p) ∨ ⟨p, tag⟩ = r ∧ (t.find r).isSome) :
    t.Orderly C := by
  have hmem : ∀ {k x}, x ∈ t.queue k ↔ x ∈ s.queue k ∧ x ≠ r := fun {k x} => by simp [hqueue]
  refine ⟨ht, fun k => hqueue k ▸ (h.nodup k).filter _, fun k x hx => ?_, fun x e he hq => ?_, fun x hx e he => ?_,
    fun x e he hst => ?_, fun c hcc x hxc => ?_, fun u x hu hxu hp => ?_, honce, fun p tag htag => ?_⟩
  · obtain ⟨hm, hne⟩ := hmem.1 hx
    rw [hfind x hne]
    exact h.named k x hm
  · have hne : x ≠ r := fun hxr => by
      have := hend e (hxr ▸ he)
      simp [this] at hq
    exact hmem.2 ⟨h.queued x e (hfind x hne ▸ he) hq, hne⟩
  · obtain ⟨hm, hne⟩ := hmem.1 hx
    exact h.bypass x hm e (hfind x hne ▸ he)
  · have hne : x ≠ r := fun hxr => hst (hend e (hxr ▸ he))
    exact (h.kind x e (hfind x hne ▸ he) hst).congr rfl rfl rfl fun c _ => hprofile c
  · rw [hcontext] at hxc
    have hne : x ≠ r := fun hxr => hc c hcc (hxr ▸ hxc)
    obtain ⟨hq, he⟩ := h.context c hcc x hxc
    rw [← hfind x hne] at he
    exact ⟨fun hm => hq (hmem.1 hm).1, he⟩
  · rw [htenure] at hu
    have hne : x ≠ r := fun hxr => hx u hu (hxr ▸ hxu) hp
    obtain ⟨hq, he⟩ := h.tenure u x hu hxu hp
    rw [← hfind x hne] at he
    exact ⟨hmem.2 ⟨hq, hne⟩, he⟩
  · rcases hreply p tag htag with ⟨hne, hm⟩ | ⟨heq, hsome⟩
    · rw [hfind _ hne]
      exact h.replying p tag hm
    · obtain ⟨e, he⟩ := Option.isSome_iff_exists.1 hsome
      exact ⟨e, heq ▸ he, hend e he⟩

end State.Orderly

/-! ### What a finish does to lookups and replies -/

theorem State.find_releaseSegments (s : State) (r x : Ref) :
    (s.releaseSegments r).find x = if x = r then (s.find r).map (fun e => { e with segments := [] }) else s.find x := by
  unfold State.releaseSegments
  cases h : s.find r with
  | none =>
    dsimp only
    split
    · next hx => rw [hx, h]; rfl
    · rfl
  | some e =>
    dsimp only
    rw [State.find_updateEntry _ r x (f := fun e => { e with segments := [] }) fun _ => rfl]
    split
    · exact congrArg (Option.map _) h
    · rfl

/-- An ORPHANED entry is found no more; another is REPLYING with the status (R18, R26). -/
theorem State.find_finish {s : State} {r : Ref} {e : Entry} (st : Status) (he : s.find r = some e) (x : Ref) :
    (s.finish r st).find x =
      if x = r then
        if e.state = .orphaned then none
        else some { e with
          state := .replying, status := some st, segments := if releasedAtEnd e.kind st then [] else e.segments }
      else s.find x := by
  unfold State.finish
  rw [he]
  dsimp only
  split
  · unfold State.freeEntry
    rw [State.find_dropEntry, State.find_releaseSegments]
    split <;> rfl
  · rw [State.find_pushReady, State.find_updateEntry (hf := by intro; rfl)]
    split
    · split
      · rw [State.find_releaseSegments, if_pos rfl, he]
        rfl
      · rw [he]
        rfl
    · next hx =>
      split
      · rw [State.find_releaseSegments, if_neg hx]
      · rfl

/-- A finish adds the entry's REPLY to its port's ready list, unless the entry is ORPHANED (R18, R26). -/
theorem State.ready_finish {s : State} {r : Ref} {e : Entry} (st : Status) (he : s.find r = some e) (p : Port) :
    ((s.finish r st).port p).ready =
      (s.port p).ready ++ if p = r.port ∧ e.state ≠ .orphaned then [.entryReply r.tag] else [] := by
  unfold State.finish
  rw [he]
  dsimp only
  split
  · next ho => simp [State.port, ho]
  · next ho =>
    have hports : ∀ u : State, u.ports = s.ports → ∀ f, (((u.updateEntry r f).pushReady r.port (.entryReply r.tag)).port p).ready =
        (s.port p).ready ++ if p = r.port ∧ e.state ≠ .orphaned then [.entryReply r.tag] else [] := fun u hu f => by
      unfold State.pushReady
      rw [State.port_setPort]
      split
      · next hp => simp [State.port, hu, hp, ho]
      · next hp => simp [State.port, hu, hp]
    refine hports _ ?_ _
    split
    · simp
    · rfl

theorem State.replies_finish {s : State} {r : Ref} {e : Entry} (st : Status) (he : s.find r = some e) (p : Port) :
    (s.finish r st).replies p = s.replies p ++ if p = r.port ∧ e.state ≠ .orphaned then [r.tag] else [] := by
  unfold State.replies
  rw [State.ready_finish st he, List.filterMap_append]
  congr 1
  split <;> rfl

theorem State.dequeue_of_not_mem {s : State} {k : Slot} {r : Ref} (h : r ∉ s.queue k) : s.dequeue k r = s := by
  unfold State.dequeue
  rw [List.filter_eq_self.2 fun x hx => by simpa using fun hxr : x = r => h (hxr ▸ hx)]
  unfold State.setQueue State.queue
  cases k with
  | sd => rfl
  | chip c => cases c <;> rfl

end Sys2Proof.Machine
end

section
/-! Completion, joining, fences, head examination and the flush keep the laws of queues, kinds, work and replies. -/
namespace Sys2Proof.Machine

@[simp] theorem State.queue_dequeue (s : State) (k j : Slot) (r : Ref) :
    (s.dequeue k r).queue j = if j = k then (s.queue k).filter (· != r) else s.queue j := State.queue_setQueue s k j _

@[simp] theorem State.profile_dequeue (s : State) (k : Slot) (r : Ref) (c : Chip) :
    (s.dequeue k r).profile c = s.profile c := rfl

@[simp] theorem State.context_dequeue (s : State) (k : Slot) (r : Ref) (c : Chip) :
    (s.dequeue k r).context c = s.context c := rfl

@[simp] theorem State.queue_finish (s : State) (r : Ref) (st : Status) (k : Slot) :
    (s.finish r st).queue k = s.queue k := by
  simp [State.queue]

@[simp] theorem State.profile_finish (s : State) (r : Ref) (st : Status) (c : Chip) :
    (s.finish r st).profile c = s.profile c := by
  simp [State.profile]

@[simp] theorem State.context_finish (s : State) (r : Ref) (st : Status) (c : Chip) :
    (s.finish r st).context c = s.context c := by
  simp [State.context]

@[simp] theorem State.queue_updateEntry (s : State) (r : Ref) (f : Entry → Entry) (k : Slot) :
    (s.updateEntry r f).queue k = s.queue k := rfl

/-- What the fence evaluation releases: the oldest HELD entry that is not fenced (R16). -/
theorem firstReleasable_eq_some {e : Entry} : ∀ {l older : List Entry}, firstReleasable older l = some e →
    ∃ a b, l = a ++ e :: b ∧ e.state = .held ∧ fencedBy (older ++ a) e.ordered = false ∧
      ∀ a' x b', a = a' ++ x :: b' → x.state = .held → fencedBy (older ++ a') x.ordered = true
  | [], _, h => by simp [firstReleasable] at h
  | x :: l, older, h => by
    unfold firstReleasable at h
    split at h
    · next hx =>
      obtain rfl := Option.some.inj h
      exact ⟨[], l, rfl, hx.1, by simpa using hx.2, fun a' y b' hab => by simp at hab⟩
    · next hx =>
      obtain ⟨a, b, rfl, hst, hf, hmin⟩ := firstReleasable_eq_some h
      refine ⟨x :: a, b, rfl, hst, by simpa using hf, fun a' y b' hab hy => ?_⟩
      cases a' with
      | nil =>
        obtain ⟨rfl, -⟩ := List.cons.inj hab
        rw [List.append_nil]
        by_contra hfx
        exact hx ⟨hy, by simpa using hfx⟩
      | cons z a' =>
        obtain ⟨rfl, rfl⟩ := List.cons.inj hab
        simpa using hmin a' y b' rfl hy

theorem mem_of_firstReleasable {l : List Entry} {e : Entry} (h : firstReleasable [] l = some e) :
    e ∈ l ∧ e.state = .held := by
  obtain ⟨a, b, rfl, hst, -⟩ := firstReleasable_eq_some h
  exact ⟨by simp, hst⟩

/-- A head that an examination retires: the first of its slot's queue, a PG-PROG or BLK-ERASE of a listed block (R123). -/
theorem State.retiredHead_eq_some {s : State} {c : Chip} {r : Ref} (h : s.retiredHead c = some r) :
    ∃ rest e, s.queue (.chip c) = r :: rest ∧ s.find r = some e ∧ (e.kind = .pgProg ∨ e.kind = .blkErase) := by
  unfold State.retiredHead at h
  split at h
  · split at h
    · next r' rest hq =>
      split at h
      · next e he =>
        split at h
        · next hk =>
          obtain rfl := Option.some.inj h
          exact ⟨rest, e, hq, he, hk.1⟩
        · cases h
      · cases h
    · cases h
  · cases h

theorem isNand_of_retires {k : ReqKind} (h : k = .pgProg ∨ k = .blkErase) : k.isNand = true := by
  rcases h with rfl | rfl <;> rfl

namespace State.Orderly

variable {C : Chip → Prop} {s : State}

/-- An entry that no context or tenure serves leaves its queue and ends (R18, R26, R58). -/
theorem leave (h : s.Orderly C) {r : Ref} {e : Entry} (st : Status) (he : s.find r = some e) (hst : e.state ≠ .replying)
    (hc : ∀ c, C c → (s.context c).entry ≠ some r)
    (hx : ∀ x, s.arbiter.tenure = some x → x.entry = some r → ¬x.purpose.transfers) :
    ((s.dequeue e.slot r).finish r st).Orderly C := by
  have hd : (s.dequeue e.slot r).find r = some e := he
  have hrep : ∀ p, ((s.dequeue e.slot r).finish r st).replies p =
      s.replies p ++ if p = r.port ∧ e.state ≠ .orphaned then [r.tag] else [] := State.replies_finish st hd
  refine h.remove (r := r) (tableOps_tableLaw.finish _ _ (h.table.frame rfl)) (fun x hne => ?_) (fun y hy => ?_)
    (fun k => ?_) (fun c => by simp) (fun c => by simp) (by rw [State.finish_arbiter]; rfl) hc hx (fun p => ?_)
    fun p tag htag => ?_
  · rw [State.find_finish st hd, if_neg hne]
    rfl
  · rw [State.find_finish st hd, if_pos rfl] at hy
    split at hy
    · cases hy
    · exact Option.some.inj hy ▸ rfl
  · rw [State.queue_finish, State.queue_dequeue]
    split
    · next hk => rw [hk]
    · next hk =>
      refine (List.filter_eq_self.2 fun x hxk => ?_).symm
      simpa using fun hxr : x = r => h.not_mem_of_slot he (Ne.symm hk) (hxr ▸ hxk)
  · rw [hrep]
    split
    · next hp =>
      refine List.nodup_append.2 ⟨h.once p, by simp, fun a ha b hb hab => ?_⟩
      rw [List.mem_singleton.1 hb] at hab
      exact h.not_mem_replies he hst (hp.1 ▸ hab ▸ ha)
    · simpa using h.once p
  · rw [hrep, List.mem_append] at htag
    rcases htag with htag | htag
    · by_cases hr : (⟨p, tag⟩ : Ref) = r
      · subst hr
        exact absurd htag (h.not_mem_replies he hst)
      · exact .inl ⟨hr, htag⟩
    · split at htag
      · next hp =>
        refine .inr ⟨?_, ?_⟩
        · rw [List.mem_singleton.1 htag, hp.1]
        · rw [State.find_finish st hd, if_pos rfl, if_neg hp.2]
          rfl
      · simp at htag

/-- As `leave`, for an entry that is in no queue. -/
theorem finish (h : s.Orderly C) {r : Ref} {e : Entry} (st : Status) (he : s.find r = some e) (hst : e.state ≠ .replying)
    (hq : r ∉ s.queue e.slot) (hc : ∀ c, C c → (s.context c).entry ≠ some r)
    (hx : ∀ x, s.arbiter.tenure = some x → x.entry = some r → ¬x.purpose.transfers) : (s.finish r st).Orderly C := by
  have := h.leave st he hst hc hx
  rwa [State.dequeue_of_not_mem hq] at this

/-- Contexts serve working entries alone. -/
theorem context_ne_of_state (h : s.Orderly C) {r : Ref} {e : Entry} (he : s.find r = some e) (hst : ¬e.state.works) :
    ∀ c, C c → (s.context c).entry ≠ some r := fun c hc hr => by
  obtain ⟨-, x, hx, -, -, hw⟩ := h.context c hc r hr
  exact hst (Option.some.inj (he.symm.trans hx) ▸ hw)

/-- Contexts serve entries of a NAND kind alone. -/
theorem context_ne_of_kind (h : s.Orderly C) {r : Ref} {e : Entry} (he : s.find r = some e) (hk : e.kind.isNand = false) :
    ∀ c, C c → (s.context c).entry ≠ some r := fun c hc hr => by
  obtain ⟨-, x, hx, -, hn, -⟩ := h.context c hc r hr
  rw [Option.some.inj (hx.symm.trans he), hk] at hn
  cases hn

/-- Contexts serve entries that have left their queue. -/
theorem context_ne_of_mem (h : s.Orderly C) {r : Ref} {k : Slot} (hr : r ∈ s.queue k) :
    ∀ c, C c → (s.context c).entry ≠ some r := fun c hc hrc => by
  obtain ⟨hq, e, he, hslot, -⟩ := h.context c hc r hrc
  obtain ⟨x, hx, hk, -⟩ := h.named k r hr
  rw [Option.some.inj (hx.symm.trans he), hslot] at hk
  exact hq (hk ▸ hr)

theorem tenure_ne_of_state (h : s.Orderly C) {r : Ref} {e : Entry} (he : s.find r = some e) (hst : ¬e.state.works) :
    ∀ x, s.arbiter.tenure = some x → x.entry = some r → ¬x.purpose.transfers := fun x hx hr hp => by
  obtain ⟨-, y, hy, -, hw⟩ := h.tenure x r hx hr hp
  exact hst (Option.some.inj (he.symm.trans hy) ▸ hw)

theorem tenure_ne_of_kind (h : s.Orderly C) {r : Ref} {e : Entry} (he : s.find r = some e) (hk : e.kind.isNand = true) :
    ∀ x, s.arbiter.tenure = some x → x.entry = some r → ¬x.purpose.transfers := fun x hx hr hp => by
  obtain ⟨-, y, hy, hn, -⟩ := h.tenure x r hx hr hp
  rw [Option.some.inj (hy.symm.trans he), hk] at hn
  cases hn

theorem retireHead (h : s.Orderly C) {c : Chip} {r : Ref} (hr : s.retiredHead c = some r) : (s.retireHead c r).Orderly C := by
  obtain ⟨rest, e, hq, he, hk⟩ := State.retiredHead_eq_some hr
  have hmem : r ∈ s.queue (.chip c) := by simp [hq]
  obtain ⟨x, hx, hslot, hw⟩ := h.named _ r hmem
  obtain rfl := Option.some.inj (hx.symm.trans he)
  have hst : x.state ≠ .replying := fun hrep => by simp [hrep, EntryState.waitsOrWorks] at hw
  unfold State.retireHead
  rw [← hslot]
  exact h.leave .retired he hst (h.context_ne_of_mem hmem) (h.tenure_ne_of_kind he (isNand_of_retires hk))

/-- A HELD entry joins its slot's queue as QUEUED (R5, R16, R58). -/
theorem enqueue (h : s.Orderly C) {r : Ref} {e : Entry} (he : s.find r = some e) (hst : e.state = .held)
    {f : Entry → Entry} (href : ∀ x, (f x).ref = x.ref) (hstate : (f e).state = .queued) (hkind : (f e).kind = e.kind)
    (hslot : (f e).slot = e.slot) (hblock : (f e).block = e.block) (hbypass : e.slot = .sd → (f e).bypass = some 0) :
    ((s.setQueue e.slot (s.queue e.slot ++ [r])).updateEntry r f).Orderly C := by
  have hfind : ∀ x, ((s.setQueue e.slot (s.queue e.slot ++ [r])).updateEntry r f).find x =
      if x = r then some (f e) else s.find x := fun x => by
    rw [State.find_updateEntry _ _ _ fun y => congrArg Ref.tag (href y), State.find_setQueue, State.find_setQueue, he]
    rfl
  have hqueue : ∀ k, ((s.setQueue e.slot (s.queue e.slot ++ [r])).updateEntry r f).queue k =
      if k = e.slot then s.queue k ++ [r] else s.queue k := fun k => by
    rw [State.queue_updateEntry, State.queue_setQueue]
    split
    · next hk => rw [hk]
    · rfl
  have hout := h.not_mem_of_state he (by simp [hst, EntryState.waitsOrWorks])
  have hne : ∀ {k x}, x ∈ s.queue k → x ≠ r := fun {k x} hx hxr => hout k (hxr ▸ hx)
  have hserved : ∀ {x y : Ref} {e' : Entry}, x = r → s.find x = some e' → ¬e'.state.works := fun {x y e'} hxr hx hw => by
    rw [hxr, he] at hx
    obtain rfl := Option.some.inj hx
    simp [hst, EntryState.works] at hw
  refine ⟨State.TableLaw.updateEntry (s := s.setQueue e.slot (s.queue e.slot ++ [r])) h.table r href, fun k => ?_,
    fun k x hx => ?_, fun x y hy hq => ?_, fun x hx y hy => ?_, fun x y hy hyst => ?_, fun c hc x hx => ?_,
    fun u x hu hx hp => ?_, h.once, fun p tag htag => ?_⟩
  · rw [hqueue]
    split
    · exact List.nodup_append.2 ⟨h.nodup k, by simp, fun a ha b hb hab =>
        hne ha (hab.trans (List.mem_singleton.1 hb))⟩
    · exact h.nodup k
  · rw [hqueue] at hx
    rw [hfind]
    split
    · next hxr =>
      refine ⟨f e, rfl, ?_, .inl hstate⟩
      split at hx
      · next hk => exact hslot.trans hk.symm
      · exact absurd hxr (hne hx)
    · next hxr =>
      split at hx
      · exact h.named k x ((List.mem_append.1 hx).resolve_right fun hm => hxr (List.mem_singleton.1 hm))
      · exact h.named k x hx
  · rw [hfind] at hy
    rw [hqueue]
    split at hy
    · next hxr =>
      obtain rfl := Option.some.inj hy
      simp [hslot, hxr]
    · have := h.queued x y hy hq
      split
      · exact List.mem_append_left _ this
      · exact this
  · rw [hfind] at hy
    rw [hqueue] at hx
    split at hy
    · next hxr =>
      obtain rfl := Option.some.inj hy
      split at hx
      · next hk => exact ⟨0, hbypass hk.symm, Nat.zero_le _⟩
      · exact absurd hxr (hne hx)
    · next hxr =>
      split at hx
      · exact h.bypass x ((List.mem_append.1 hx).resolve_right fun hm => hxr (List.mem_singleton.1 hm)) y hy
      · exact h.bypass x hx y hy
  · rw [hfind] at hy
    split at hy
    · obtain rfl := Option.some.inj hy
      exact (h.kind r e he (by simp [hst])).congr hkind hslot hblock fun _ _ => rfl
    · exact (h.kind x y hy hyst).congr rfl rfl rfl fun _ _ => rfl
  · obtain ⟨hq, y, hy, hrest⟩ := h.context c hc x hx
    have hxr : x ≠ r := fun hxr => hserved (y := x) hxr hy hrest.2.2
    refine ⟨fun hm => ?_, y, by rw [hfind, if_neg hxr, hy], hrest⟩
    rw [hqueue] at hm
    split at hm
    · exact hq ((List.mem_append.1 hm).resolve_right fun hm => hxr (List.mem_singleton.1 hm))
    · exact hq hm
  · obtain ⟨hq, y, hy, hrest⟩ := h.tenure u x hu hx hp
    have hxr : x ≠ r := fun hxr => hserved (y := x) hxr hy hrest.2
    refine ⟨?_, y, by rw [hfind, if_neg hxr, hy], hrest⟩
    rw [hqueue]
    split
    · exact List.mem_append_left _ hq
    · exact hq
  · obtain ⟨y, hy, hrep⟩ := h.replying p tag htag
    refine ⟨y, ?_, hrep⟩
    rw [hfind, if_neg, hy]
    intro hxr
    rw [hxr, he] at hy
    obtain rfl := Option.some.inj hy
    simp [hst] at hrep

theorem join (h : s.Orderly C) {r : Ref} {e : Entry} (he : s.find r = some e) (hst : e.state = .held) :
    (s.join r e.slot).Orderly C := by
  unfold State.join
  dsimp only
  split
  · exact (h.enqueue he hst (f := fun e => { e with state := .queued, bypass := some 0 }) (fun _ => rfl) rfl rfl rfl rfl
      fun _ => rfl).lapse (.setSdram _ _)
  · next c hc =>
    have hq := h.enqueue he hst (f := fun e => { e with state := .queued }) (fun _ => rfl) rfl rfl rfl rfl
      fun hsd => by simp [hsd] at hc
    split
    · next hr => exact hq.retireHead hr
    · exact hq

/-! ### Fences -/

theorem releaseHeld (h : s.Orderly C) {p : Port} {e : Entry} (he : e ∈ s.entries p) (hst : e.state = .held) :
    (s.releaseHeld p e).Orderly C := by
  have hfind := h.table.find_of_mem he
  unfold State.releaseHeld
  split
  · exact h.join hfind hst
  · exact h.finish .slotStall hfind (by simp [hst]) (h.not_mem_of_state hfind (by simp [hst, EntryState.waitsOrWorks]) _)
      (h.context_ne_of_state hfind (by simp [hst, EntryState.works]))
      (h.tenure_ne_of_state hfind (by simp [hst, EntryState.works]))

theorem evalFences (h : s.Orderly C) (p : Port) : (s.evalFences p).Orderly C := by
  have fuel : ∀ n, ∀ {s : State}, s.Orderly C → (State.evalFencesFuel n s p).Orderly C := by
    intro n
    induction n with
    | zero => exact id
    | succ n ih =>
      intro s h
      unfold State.evalFencesFuel
      split
      · next e he =>
        obtain ⟨hmem, hst⟩ := mem_of_firstReleasable he
        exact ih (h.releaseHeld hmem hst)
      · exact h
  exact fuel _ h

/-- An entry that no context or tenure serves leaves its queue and completes (R16, R18, R58). -/
theorem leaveComplete (h : s.Orderly C) {r : Ref} {e : Entry} (st : Status) (he : s.find r = some e)
    (hst : e.state ≠ .replying) (hc : ∀ c, C c → (s.context c).entry ≠ some r)
    (hx : ∀ x, s.arbiter.tenure = some x → x.entry = some r → ¬x.purpose.transfers) :
    ((s.dequeue e.slot r).complete r st).Orderly C := by
  have hend := h.leave st he hst hc hx
  unfold State.complete
  rw [State.find_dequeue, he]
  dsimp only
  split
  · exact hend
  · exact hend.evalFences _

/-- As `leaveComplete`, for an entry that is in no queue. -/
theorem complete (h : s.Orderly C) {r : Ref} {e : Entry} (st : Status) (he : s.find r = some e)
    (hst : e.state ≠ .replying) (hq : r ∉ s.queue e.slot) (hc : ∀ c, C c → (s.context c).entry ≠ some r)
    (hx : ∀ x, s.arbiter.tenure = some x → x.entry = some r → ¬x.purpose.transfers) : (s.complete r st).Orderly C := by
  have := h.leaveComplete st he hst hc hx
  rwa [State.dequeue_of_not_mem hq] at this

/-! ### Head examination and flush -/

theorem examine (h : s.Orderly C) (c : Chip) : (s.examine c).Orderly C := by
  have fuel : ∀ n, ∀ {s : State}, s.Orderly C → (State.examineFuel n s c).Orderly C := by
    intro n
    induction n with
    | zero => exact id
    | succ n ih =>
      intro s h
      unfold State.examineFuel
      split
      · next hr => exact ih ((h.retireHead hr).evalFences _)
      · exact h
  exact fuel _ h

/-- A QUEUED entry is flushed (R20). -/
theorem flushOne (h : s.Orderly C) {r : Ref} {e : Entry} (he : s.find r = some e) (hq : e.state = .queued) :
    ((s.dequeue e.slot r).finish r .flushed).Orderly C :=
  h.leave .flushed he (by simp [hq]) (h.context_ne_of_state he (by simp [hq, EntryState.works]))
    (h.tenure_ne_of_state he (by simp [hq, EntryState.works]))

theorem flushList (k : Slot) : ∀ (l : List Ref) {s : State}, s.Orderly C →
    (∀ r ∈ l, ∀ e, s.find r = some e → e.slot = k) → (s.flushList k l).Orderly C
  | [], _, h, _ => h
  | r :: l, s, h, hl => by
    have hrest : ∀ x ∈ l, ∀ e, s.find x = some e → e.slot = k := fun x hx => hl x (List.mem_cons_of_mem r hx)
    unfold State.flushList
    split
    · next hq =>
      unfold State.isQueued at hq
      split at hq
      · next e he =>
        have hslot := hl r (List.mem_cons_self ..) e he
        have hst : e.state = .queued := by simpa using hq
        refine flushList k l (hslot ▸ h.flushOne he hst) fun x hx y hy => ?_
        rw [State.find_finish (s := s.dequeue k r) .flushed (e := e) he] at hy
        split at hy
        · rw [if_neg (by simp [hst])] at hy
          exact Option.some.inj hy ▸ hslot
        · exact hrest x hx y hy
      · cases hq
    · exact flushList k l h hrest

theorem flush (h : s.Orderly C) (k : Slot) : (s.flush k).Orderly C := by
  have hl : (s.flushList k (s.queue k)).Orderly C := flushList k _ h fun r hr e he => by
    obtain ⟨x, hx, hslot, -⟩ := h.named k r hr
    exact Option.some.inj (he.symm.trans hx) ▸ hslot
  unfold State.flush
  dsimp only
  split <;> split
  · exact (hl.evalFences _).evalFences _
  · exact hl.evalFences _
  · exact hl.evalFences _
  · exact hl

end State.Orderly

end Sys2Proof.Machine
end

section
/-! The grant keeps the laws of queues, kinds, work and replies (R17, R64, R110, R111, R122). -/
namespace Sys2Proof.Machine

theorem EntryState.waitsOrWorks.ne_replying {x : EntryState} (h : x.waitsOrWorks) : x ≠ .replying := by
  rintro rfl
  simp [EntryState.waitsOrWorks] at h

theorem Entry.activate_kind (e : Entry) : e.activate.kind = e.kind := by
  unfold Entry.activate
  split <;> rfl

theorem Entry.activate_slot (e : Entry) : e.activate.slot = e.slot := by
  unfold Entry.activate
  split <;> rfl

theorem State.find_activate {s : State} {r : Ref} {e : Entry} (he : s.find r = some e) :
    (s.updateEntry r Entry.activate).find r = some e.activate := by
  rw [State.find_updateEntry _ _ _ fun e => congrArg Ref.tag e.activate_keeps.1, if_pos rfl, he]
  rfl

/-! ### What a grant leaves as it was -/

theorem State.winner_candidate {s : State} {k : Slot} (h : s.winner = some k) : s.candidate k = true := by
  unfold State.winner at h
  split at h
  · next hu =>
    obtain rfl := Option.some.inj h
    exact (Bool.and_eq_true_iff.1 hu).2
  · exact List.find?_some h

/-- A static slot that is not OK is no candidate (R60). -/
theorem State.candidate_of_health {s : State} {c : Chip} (htype : (s.profile c).type ≠ .nand) (hh : s.health.get c ≠ .ok) :
    s.candidate (.chip c) = false := by
  have hok : (s.health.get c == .ok) = false := by simpa using hh
  unfold State.candidate
  dsimp only
  split
  · rfl
  · rw [hok, Bool.false_and]
  · rw [hok, Bool.false_and]
  · next ht => exact absurd ht htype

/-- An idle bus stays as it is, or some candidate is granted. -/
theorem State.grant_cases {s : State} (h : s.arbiter.tenure = none) :
    s.grant = s ∨ ∃ k, s.candidate k = true ∧ s.grant = s.grantTo k := by
  unfold State.grant
  rw [h]
  dsimp only
  split
  · next k hk => exact .inr ⟨k, State.winner_candidate hk, rfl⟩
  · exact .inl rfl

theorem State.grantTo_slot {s : State} {k : Slot} {x : Tenure} (h : (s.grantTo k).arbiter.tenure = some x) : x.slot = k := by
  obtain rfl := Option.some.inj h
  rfl

/-! ### The selection on SD -/

theorem bypassCandidate_eq_some {d : Sdram} {y : Entry} : ∀ {l older : List Entry}, bypassCandidate d older l = some y →
    ∃ a b, l = a ++ y :: b ∧ ∀ o ∈ older ++ a, o.bypass.getD 0 < 4
  | [], _, h => by simp [bypassCandidate] at h
  | x :: l, older, h => by
    unfold bypassCandidate at h
    split at h
    · next hx =>
      obtain rfl := Option.some.inj h
      rw [Bool.and_eq_true, List.all_eq_true] at hx
      refine ⟨[], l, rfl, fun o ho => ?_⟩
      have := hx.2 o (by simpa using ho)
      simp only [Bool.and_eq_true, decide_eq_true_eq] at this
      exact this.2
    · obtain ⟨a, b, rfl, ha⟩ := bypassCandidate_eq_some h
      exact ⟨x :: a, b, rfl, by simpa using ha⟩

/-- The entry selected is one of the queue, and every older one stands below 4 (R110). -/
theorem sdSelect_eq_some {d : Sdram} {y : Entry} {l : List Entry} (h : sdSelect d l = some y) :
    ∃ a b, l = a ++ y :: b ∧ ∀ o ∈ a, o.bypass.getD 0 < 4 := by
  cases l with
  | nil => cases h
  | cons x l =>
    simp only [sdSelect] at h
    split at h
    · split at h
      · next z hz =>
        obtain rfl := Option.some.inj h
        obtain ⟨a, b, rfl, ha⟩ := bypassCandidate_eq_some hz
        exact ⟨x :: a, b, rfl, ha⟩
      · obtain rfl := Option.some.inj h
        exact ⟨[], l, rfl, by simp⟩
    · obtain rfl := Option.some.inj h
      exact ⟨[], l, rfl, by simp⟩

theorem mem_of_mem_takeWhile_split {r x : Ref} : ∀ {a b : List Ref}, x ∈ (a ++ r :: b).takeWhile (· != r) → x ∈ a
  | [], b, h => by simp at h
  | y :: a, b, h => by
    rw [List.cons_append, List.takeWhile_cons] at h
    split at h
    · rcases List.mem_cons.1 h with rfl | h
      · exact List.mem_cons_self ..
      · exact List.mem_cons_of_mem _ (mem_of_mem_takeWhile_split h)
    · cases h

namespace State.Orderly

variable {C : Chip → Prop} {s : State}

/-- An entry at work leaves its queue (R123). -/
theorem dequeue (h : s.Orderly C) (k : Slot) {r : Ref} (hst : ∀ e, s.find r = some e → e.state ≠ .queued)
    (ht : s.arbiter.tenure = none) : (s.dequeue k r).Orderly C := by
  have hsub : ∀ j x, x ∈ (s.dequeue k r).queue j → x ∈ s.queue j := fun j x hx => by
    rw [State.queue_dequeue] at hx
    split at hx
    · next hj => exact hj ▸ List.mem_of_mem_filter hx
    · exact hx
  refine ⟨h.table, fun j => ?_, fun j x hx => h.named j x (hsub j x hx), fun x e he hq => ?_,
    fun x hx => h.bypass x (hsub _ x hx), h.kind, fun c hc x hx => ?_, fun t x htx => ?_, h.once, h.replying⟩
  · rw [State.queue_dequeue]
    split
    · exact (h.nodup k).filter _
    · exact h.nodup j
  · have hm := h.queued x e he hq
    rw [State.queue_dequeue]
    split
    · next hj => exact List.mem_filter.2 ⟨hj ▸ hm, by simpa using fun hxr : x = r => hst e (hxr ▸ he) hq⟩
    · exact hm
  · obtain ⟨hq, he⟩ := h.context c hc x hx
    exact ⟨fun hm => hq (hsub _ x hm), he⟩
  · exact absurd (ht.symm.trans htx) (by simp)

/-- A queue's entries are of a NAND kind exactly where the slot is typed NAND. -/
theorem isNand_of_mem (h : s.Orderly C) {c : Chip} {r : Ref} {e : Entry} (hr : r ∈ s.queue (.chip c))
    (he : s.find r = some e) : e.kind.isNand = true ↔ (s.profile c).type = .nand := by
  obtain ⟨x, hx, hslot, hw⟩ := h.named _ r hr
  obtain rfl := Option.some.inj (hx.symm.trans he)
  exact ((h.kind r x he hw.ne_replying).chip hslot).1

theorem isNand_of_mem_sd (h : s.Orderly C) {r : Ref} {e : Entry} (hr : r ∈ s.queue .sd) (he : s.find r = some e) :
    e.kind.isNand = false := by
  obtain ⟨x, hx, hslot, hw⟩ := h.named _ r hr
  obtain rfl := Option.some.inj (hx.symm.trans he)
  exact (h.kind r x he hw.ne_replying).sd hslot

/-- A queue's entry that the grant activates may be transferred. -/
theorem transfers_activate (h : s.Orderly C) {k : Slot} {r : Ref} {e : Entry} (hr : r ∈ s.queue k) (he : s.find r = some e)
    (hk : e.kind.isNand = false) : (s.updateEntry r Entry.activate).Transfers k r := by
  obtain ⟨x, hx, -, hw⟩ := h.named _ r hr
  obtain rfl := Option.some.inj (hx.symm.trans he)
  exact ⟨hr, x.activate, State.find_activate he, x.activate_kind ▸ hk, waitsOrWorks_activate hw⟩

/-- What the engine of slot `k` has begun: the laws hold, and an entry of a transfer is in the queue and at work. -/
def Begun (C : Chip → Prop) (k : Slot) (x : State × Begin) : Prop :=
  x.1.Orderly C ∧ ∀ r, x.2.entry = some r → x.2.purpose.transfers → x.1.Transfers k r

/-- A tenure that transfers no entry's data. -/
theorem Begun.of_purpose {k : Slot} {x : State × Begin} (h : x.1.Orderly C) (hp : ¬x.2.purpose.transfers) :
    Begun C k x := ⟨h, fun _ _ ht => absurd ht hp⟩

theorem Begun.of_none {k : Slot} {x : State × Begin} (h : x.1.Orderly C) (hn : x.2.entry = none) : Begun C k x :=
  ⟨h, fun r hr _ => by simp [hn] at hr⟩

theorem beginStatic (h : s.Orderly C) {c : Chip} (hc : (s.profile c).type ≠ .nand) :
    Begun C (.chip c) (s.beginStatic c) := by
  unfold State.beginStatic
  split
  · exact .of_none h rfl
  · split
    · next r rest hq =>
      have hr : r ∈ s.queue (.chip c) := by simp [hq]
      obtain ⟨e, he, -⟩ := h.named _ r hr
      rw [he]
      have hk : e.kind.isNand = false := by simpa using mt (h.isNand_of_mem hr he).1 hc
      refine ⟨h.activate r, fun x hx _ => ?_⟩
      obtain rfl := Option.some.inj hx
      exact h.transfers_activate hr he hk
    · exact .of_none h rfl

theorem beginNandHead (h : s.Orderly C) {c : Chip} {r : Ref} {rest : List Ref} {e : Entry}
    (hq : s.queue (.chip c) = r :: rest) (he : s.find r = some e) (hc : (s.profile c).type = .nand)
    (ht : s.arbiter.tenure = none) : Begun C (.chip c) (s.beginNandHead c r e) := by
  have hr : r ∈ s.queue (.chip c) := by simp [hq]
  obtain ⟨x, hx, hslot, hw⟩ := h.named _ r hr
  obtain rfl := Option.some.inj (hx.symm.trans he)
  have hfind := State.find_activate he
  have hworks := waitsOrWorks_activate hw
  have hu : ((s.dequeue (.chip c) r).updateEntry r Entry.activate).Orderly C := by
    refine (h.activate r).dequeue (.chip c) (fun y hy => ?_) ht
    obtain rfl := Option.some.inj (hfind.symm.trans hy)
    intro hq
    simp [hq, EntryState.works] at hworks
  have hserved : ((s.dequeue (.chip c) r).updateEntry r Entry.activate).ServedBy c r := by
    refine ⟨?_, x.activate, hfind, x.activate_slot.trans hslot, ?_, hworks⟩
    · simp
    · rw [x.activate_kind]
      exact (h.isNand_of_mem hr he).2 hc
  unfold State.beginNandHead
  dsimp only
  split
  · exact .of_purpose ((hu.setContext_some rfl hserved).lapse (.of_eq rfl rfl rfl rfl rfl)) (by simp [Purpose.transfers])
  · exact .of_purpose (hu.setContext_some rfl hserved) (by simp [Purpose.transfers])
  · exact .of_purpose (hu.setContext_some rfl hserved) (by simp [Purpose.transfers])
  · exact .of_purpose (hu.setContext_some rfl hserved) (by simp [Purpose.transfers])

theorem beginUnload (h : s.Orderly C) {c : Chip} {x : Context} (hx : x.entry = (s.context c).entry) :
    Begun C (.chip c) (s.beginUnload c x) := by
  have hu := h.lapse (.setContext c (.inl hx))
  unfold State.beginUnload
  dsimp only
  split <;> exact .of_purpose (hu.lapse (.of_eq rfl rfl rfl rfl rfl)) (by simp [Purpose.transfers])

theorem beginNand (h : s.Orderly C) {c : Chip} (hc : (s.profile c).type = .nand) (ht : s.arbiter.tenure = none) :
    Begun C (.chip c) (s.beginNand c) := by
  unfold State.beginNand
  dsimp only
  split
  · split
    · exact .of_none (h.lapse (.setContext c (.inl rfl))) rfl
    · split
      · next hq =>
        split
        · next he => exact h.beginNandHead hq he hc ht
        · exact .of_none h rfl
      · exact .of_none h rfl
  · split
    · exact .of_purpose (h.lapse (.of_eq rfl rfl rfl rfl rfl)) (by simp [Purpose.transfers])
    · exact .of_purpose h (by simp [Purpose.transfers])
  · split
    · exact h.beginUnload rfl
    · exact .of_purpose (h.lapse (.setContext c (.inl rfl))) (by simp [Purpose.transfers])
  · exact h.beginUnload rfl
  · exact .of_purpose h (by simp [Purpose.transfers])
  · exact .of_none h rfl
  · exact .of_none h rfl

/-- The entries of the SD queue are those its names find, in order. -/
theorem map_ref_sdEntries (h : s.Orderly C) : s.sdEntries.map Entry.ref = s.queue .sd := by
  have all : ∀ l : List Ref, (∀ r ∈ l, ∃ e, s.find r = some e) → (l.filterMap (fun r => s.find r)).map Entry.ref = l := by
    intro l
    induction l with
    | nil => exact fun _ => rfl
    | cons r l ih =>
      intro hl
      obtain ⟨e, he⟩ := hl r (List.mem_cons_self ..)
      rw [List.filterMap_cons_some he, List.map_cons, h.table.ref_of_find he, ih fun x hx => hl x (List.mem_cons_of_mem r hx)]
  exact all _ fun r hr => let ⟨e, he, _⟩ := h.named _ r hr; ⟨e, he⟩

theorem mem_sdEntries {e : Entry} (he : e ∈ s.sdEntries) : ∃ r ∈ s.queue .sd, s.find r = some e :=
  List.mem_filterMap.1 he

/-- The entry chosen is in the queue; where none is in progress every older one stands below 4 (R110). -/
theorem sdChoice_eq_some (h : s.Orderly C) {r : Ref} (hr : s.sdChoice = some r) :
    r ∈ s.queue .sd ∧
      (s.sdInProgress.isSome = false → ∀ x ∈ s.sdOlder r, ∀ e, s.find x = some e → e.bypass.getD 0 < 4) := by
  unfold State.sdChoice at hr
  split at hr
  · next x hx =>
    obtain rfl := Option.some.inj hr
    refine ⟨?_, fun hn => by simp [hx] at hn⟩
    obtain ⟨e, he, rfl⟩ := Option.map_eq_some_iff.1 hx
    exact h.map_ref_sdEntries ▸ List.mem_map_of_mem (List.mem_of_find?_eq_some he)
  · obtain ⟨y, hy, rfl⟩ := Option.map_eq_some_iff.1 hr
    obtain ⟨a, b, hab, ha⟩ := sdSelect_eq_some hy
    have hqueue : s.queue .sd = a.map Entry.ref ++ y.ref :: b.map Entry.ref := by
      rw [← h.map_ref_sdEntries, hab, List.map_append, List.map_cons]
    refine ⟨by simp [hqueue], fun _ x hx e he => ?_⟩
    unfold State.sdOlder at hx
    rw [hqueue] at hx
    obtain ⟨o, ho, rfl⟩ := List.mem_map.1 (mem_of_mem_takeWhile_split hx)
    obtain ⟨z, -, hz⟩ := mem_sdEntries (s := s) (e := o) (by simp [hab, ho])
    have hoz : o.ref = z := h.table.ref_of_find hz
    obtain rfl := Option.some.inj (he.symm.trans (hoz ▸ hz))
    exact ha e ho

/-- Every entry passed had a count below 4, so that none rises above it (R111). -/
theorem bypassAll : ∀ (l : List Ref) {s : State}, s.Orderly C → l.Nodup →
    (∀ x ∈ l, ∀ e, s.find x = some e → e.bypass.getD 0 < 4) →
    (l.foldl (fun s x => s.updateEntry x Entry.bypassed) s).Orderly C
  | [], _, h, _, _ => h
  | r :: l, s, h, hl, hb => by
    obtain ⟨hr, hl⟩ := List.nodup_cons.1 hl
    refine bypassAll l (h.updateEntry r (fun _ => rfl) (fun _ => ⟨rfl, rfl, rfl, .inl rfl⟩) fun e n _ he hn _ => ?_) hl
      fun x hx e he => ?_
    · have := hb r (List.mem_cons_self ..) e he
      rw [hn] at this
      exact ⟨n + 1, by simp [Entry.bypassed, hn], this⟩
    · have he : (s.updateEntry r Entry.bypassed).find x = some e := he
      rw [State.find_updateEntry (hf := by intro; rfl), if_neg fun hxr : x = r => hr (hxr ▸ hx)] at he
      exact hb x (List.mem_cons_of_mem r hx) e he

theorem queue_bypassAll : ∀ (l : List Ref) (s : State) (k : Slot),
    (l.foldl (fun s x => s.updateEntry x Entry.bypassed) s).queue k = s.queue k
  | [], _, _ => rfl
  | r :: l, s, k => queue_bypassAll l (s.updateEntry r Entry.bypassed) k

theorem beginSdEntry (h : s.Orderly C) : Begun C .sd s.beginSdEntry := by
  unfold State.beginSdEntry
  split
  · next r hr =>
    obtain ⟨hmem, hbelow⟩ := h.sdChoice_eq_some hr
    have hu : ∀ u : State, u.Orderly C → u.queue .sd = s.queue .sd → ∀ k,
        Begun C .sd (u.updateEntry r Entry.activate, ⟨k, some r⟩) := fun u hu hq k => by
      refine ⟨hu.activate r, fun x hx _ => ?_⟩
      obtain rfl := Option.some.inj hx
      have hm : r ∈ u.queue .sd := hq ▸ hmem
      obtain ⟨e, he, -⟩ := hu.named _ r hm
      exact hu.transfers_activate hm he (hu.isNand_of_mem_sd hm he)
    dsimp only
    split
    · exact hu s h rfl _
    · next hn =>
      refine hu _ (bypassAll _ h ?_ (hbelow (by simpa using hn))) (queue_bypassAll _ s _) _
      exact ((h.nodup .sd).sublist (List.takeWhile_sublist _))
  · exact .of_none h rfl

theorem beginSd (h : s.Orderly C) : Begun C .sd s.beginSd := by
  unfold State.beginSd State.beginRefresh
  split_ifs
  · exact .of_none h rfl
  · exact .of_none h rfl
  · exact .of_none h rfl
  · exact .of_none (h.lapse (.setSdram s _)) rfl
  · exact h.beginSdEntry
  · exact .of_none (h.lapse (.setSdram s _)) rfl
  · exact .of_none h rfl
  · exact .of_none (h.lapse (.setSdram s _)) rfl

theorem beginOn (h : s.Orderly C) (ht : s.arbiter.tenure = none) (k : Slot) : Begun C k (s.beginOn k) := by
  unfold State.beginOn
  cases k with
  | sd => exact h.beginSd
  | chip c =>
    dsimp only
    split
    · next hc => exact h.beginNand hc ht
    · next hc => exact h.beginStatic hc

theorem grantTo (h : s.Orderly C) (ht : s.arbiter.tenure = none) (k : Slot) : (s.grantTo k).Orderly C := by
  obtain ⟨hu, hr⟩ := h.beginOn ht k
  exact hu.setTenure hr

theorem grant (h : s.Orderly C) : s.grant.Orderly C := by
  cases ht : s.arbiter.tenure with
  | some t =>
    unfold State.grant
    rw [ht]
    exact h
  | none =>
    rcases State.grant_cases ht with hg | ⟨k, -, hg⟩
    · rwa [hg]
    · exact hg ▸ h.grantTo ht k

end State.Orderly

end Sys2Proof.Machine
end

section
/-! What admission, CANCEL, the ends of transfers, an answered entry, a profile change and the resets do to the laws of queues,
kinds, work and replies; and that every step keeps them (R24, R43, R58, R111). -/
namespace Sys2Proof.Machine

/-- Taking a frame changes the port units and the notices alone (R167, R168). -/
theorem State.takeFrame_only (s : State) (p : Port) (seq : Byte) :
    s.takeFrame p seq = { s with ports := (s.takeFrame p seq).ports, notices := (s.takeFrame p seq).notices } := by
  unfold State.takeFrame State.sequenceCheck
  split
  · split
    · rfl
    · rw [State.post_only]
      rfl
  · rfl
  · rfl

/-! ### What the target of an admitted request is -/

/-- A window kind's target is that of the enabled window found, within its bounds and rights (R39–R41). -/
theorem State.decodeWindow_eq_ok {s : State} {p : Port} {q : Request} {k : Slot} {offset : Nat}
    (h : s.decodeWindow p q = .ok (k, offset)) :
    ∃ w ∈ s.windows, w.covers q.address = true ∧ q.address + q.length ≤ w.base + w.size ∧
      (w.rights.get p).allows q.kind = true ∧ w.target = some k ∧ offset = w.offset + (q.address - w.base) := by
  unfold State.decodeWindow at h
  split at h
  · cases h
  next w hw =>
  split at h
  · cases h
  next hbounds =>
  split at h
  next hrights =>
    split at h
    · next k' hk =>
      obtain ⟨rfl, rfl⟩ := Prod.mk.inj (Except.ok.inj h)
      exact ⟨w, List.mem_of_find?_eq_some hw, by simpa using List.find?_some hw, by omega, hrights, hk, rfl⟩
    · cases h
  · cases h

/-- A NAND kind's target is the slot it names, typed NAND, which allows and holds what it asks for (R11). -/
theorem State.nandTarget_eq_ok {s : State} {p : Port} {q : Request} {k : Slot} {offset : Nat}
    (h : s.nandTarget p q = .ok (k, offset)) :
    ∃ c, chipOfCode q.slotCode = some c ∧ k = .chip c ∧ offset = 0 ∧ (s.profile c).type = .nand ∧
      (s.profile c).allows p q.kind = true ∧ (s.profile c).inDevice q = true ∧ (s.profile c).programSizeOk q = true ∧
      ¬((q.kind = .pgProg ∨ q.kind = .blkErase) ∧ q.block ∈ s.retired.get c) := by
  unfold State.nandTarget at h
  split at h
  · cases h
  next c hc =>
  dsimp only at h
  split at h
  · cases h
  next htype =>
  split at h
  · cases h
  next hrights =>
  split at h
  · cases h
  next hdevice =>
  split at h
  · cases h
  next hsize =>
  split at h
  · cases h
  next hretired =>
  obtain ⟨rfl, rfl⟩ := Prod.mk.inj (Except.ok.inj h)
  exact ⟨c, hc, rfl, rfl, by simpa using htype, by simpa using hrights, by simpa using hdevice, by simpa using hsize,
    hretired⟩

theorem isPow2_pos {lo hi n : Nat} (h : isPow2 lo hi n = true) : 0 < n := by
  unfold isPow2 at h
  obtain ⟨k, -, hk⟩ := List.any_eq_true.1 h
  rw [Bool.and_eq_true, beq_iff_eq] at hk
  exact hk.2 ▸ Nat.two_pow_pos k

/-- A NAND slot has a block 0 (R117). -/
theorem State.ProfileLaw.blockCount_pos {s : State} (h : s.ProfileLaw) {c : Chip} (hc : (s.profile c).type = .nand) :
    0 < (s.profile c).blockCount := by
  obtain ⟨-, hform⟩ := h c
  rw [hc] at hform
  obtain ⟨hok, -⟩ := hform
  unfold nandOk at hok
  simp only [Bool.and_eq_true] at hok
  exact isPow2_pos hok.1.1.1.1.1.2

/-- What admission asks of the windows and profiles for the kinds of a slot's entries. -/
def State.Backed (s : State) : Prop := s.TargetLaw ∧ s.ProfileLaw

theorem State.Backed.congr {s t : State} (h : s.Backed) (hwindows : t.windows = s.windows) (harbiter : t.arbiter = s.arbiter)
    (hsdram : t.sdram = s.sdram) : t.Backed := by
  obtain ⟨htarget, hprofile⟩ := h
  constructor
  · unfold State.TargetLaw State.targetStatus State.slotCapacity State.profile at htarget ⊢
    rwa [hwindows, harbiter, hsdram]
  · unfold State.ProfileLaw State.profile at hprofile ⊢
    rwa [harbiter]

/-- An admitted request's entry is of a kind that its slot serves (R10, R11). -/
theorem State.Admits.suits {s : State} {p : Port} {q : Request} {k : Slot} {offset : Nat} (h : s.Admits p q k offset)
    (hb : s.Backed) : s.Suits (s.admitted p q k offset) := by
  obtain ⟨htarget, hprofile⟩ := hb
  have hkind : (s.admitted p q k offset).kind = q.kind := rfl
  have hslot : (s.admitted p q k offset).slot = k := rfl
  have hblock : (s.admitted p q k offset).block = if q.kind.isNand ∧ q.kind ≠ .nandId then q.block else 0 := rfl
  have hfound := h.target
  unfold State.target at hfound
  unfold State.Suits
  rw [hkind, hslot, hblock]
  split at hfound
  · next hnand =>
    obtain ⟨c, -, rfl, -, htype, -, hdevice, -⟩ := State.nandTarget_eq_ok hfound
    refine ⟨⟨fun _ => htype, fun _ => hnand⟩, fun _ => ?_⟩
    unfold Profile.inDevice at hdevice
    cases hq : q.kind <;> simp_all [ReqKind.isNand, hprofile.blockCount_pos htype]
  · next hnand =>
    obtain ⟨w, hw, hcovers, -, -, hk, -⟩ := State.decodeWindow_eq_ok hfound
    simp only [Window.covers, Bool.and_eq_true] at hcovers
    obtain ⟨k', hk', hstatus, -⟩ := htarget w hw hcovers.1.1
    obtain rfl := Option.some.inj (hk.symm.trans hk')
    cases k with
    | sd => simpa using hnand
    | chip c =>
      have htype : (s.profile c).type = .sram ∨ (s.profile c).type = .nor := by
        unfold State.targetStatus at hstatus
        by_contra hn
        simp [hn] at hstatus
      refine ⟨⟨fun hn => absurd hn hnand, fun hc => ?_⟩, fun hn => absurd hn hnand⟩
      rcases htype with ht | ht <;> simp [ht] at hc

namespace State.Orderly

variable {C : Chip → Prop} {s t : State}

/-! ### A new entry -/

/-- A new HELD entry under a name that nothing carried. -/
theorem insert (h : s.Orderly C) {e : Entry} (ht : t.TableLaw)
    (hfind : ∀ x, t.find x = if x = e.ref then some e else s.find x) (hfresh : s.find e.ref = none) (hst : e.state = .held)
    (hsuits : s.Suits e) (harbiter : t.arbiter = s.arbiter) (hnand : t.nand = s.nand) (hports : t.ports = s.ports) :
    t.Orderly C := by
  have hqueue : ∀ k, t.queue k = s.queue k := fun k => by simp only [State.queue, harbiter]
  have hprofile : ∀ c, t.profile c = s.profile c := fun c => by simp only [State.profile, harbiter]
  have hreplies : ∀ p, t.replies p = s.replies p := fun p => by simp only [State.replies, State.port, hports]
  have old : ∀ {x y}, s.find x = some y → t.find x = some y := fun {x y} hx => by
    rw [hfind, if_neg fun hxe => by simp [hxe, hfresh] at hx, hx]
  have found : ∀ {x y}, t.find x = some y → y = e ∨ s.find x = some y := fun {x y} hx => by
    rw [hfind] at hx
    split at hx
    · exact .inl (Option.some.inj hx).symm
    · exact .inr hx
  refine ⟨ht, fun k => hqueue k ▸ h.nodup k, fun k x hx => ?_, fun x y hy hq => ?_, fun x hx y hy => ?_,
    fun x y hy hyst => ?_, fun c hc x hx => ?_, fun u x hu hx hp => ?_, fun p => hreplies p ▸ h.once p,
    fun p tag htag => ?_⟩
  · obtain ⟨y, hy, hrest⟩ := h.named k x (hqueue k ▸ hx)
    exact ⟨y, old hy, hrest⟩
  · rw [hqueue]
    rcases found hy with rfl | hy
    · simp [hst] at hq
    · exact h.queued x y hy hq
  · obtain ⟨z, hz, -⟩ := h.named .sd x (hqueue .sd ▸ hx)
    obtain rfl := Option.some.inj ((old hz).symm.trans hy)
    exact h.bypass x (hqueue .sd ▸ hx) z hz
  · rcases found hy with rfl | hy
    · exact hsuits.congr rfl rfl rfl fun c _ => hprofile c
    · exact (h.kind x y hy hyst).congr rfl rfl rfl fun c _ => hprofile c
  · have hx : (s.context c).entry = some x := by simpa only [State.context, hnand] using hx
    obtain ⟨hq, y, hy, hrest⟩ := h.context c hc x hx
    exact ⟨hqueue (.chip c) ▸ hq, y, old hy, hrest⟩
  · obtain ⟨hq, y, hy, hrest⟩ := h.tenure u x (harbiter ▸ hu) hx hp
    exact ⟨hqueue u.slot ▸ hq, y, old hy, hrest⟩
  · obtain ⟨y, hy, hrep⟩ := h.replying p tag (hreplies p ▸ htag)
    exact ⟨y, old hy, hrep⟩

end State.Orderly

/-- A new entry is found by its name, and every other name finds what it found. -/
theorem State.find_appended {s : State} {e : Entry} (data : List Byte) (hfresh : ∀ x ∈ s.entries e.port, x.tag ≠ e.tag)
    (x : Ref) : (s.appended e data).find x = if x = e.ref then some e else s.find x := by
  unfold State.find
  rw [State.entries_appended]
  by_cases hp : x.port = e.port
  · rw [if_pos hp, List.find?_append, hp]
    by_cases hx : x = e.ref
    · have htag : e.tag = x.tag := by rw [hx]; rfl
      have hnone : (s.entries e.port).find? (fun y => y.tag == x.tag) = none := by
        rw [← htag, List.find?_eq_none]
        simpa using hfresh
      rw [hnone, if_pos hx, Option.none_or, List.find?_cons_of_pos (by simp [htag])]
    · have htag : e.tag ≠ x.tag := fun htag => hx (by cases x; exact congrArg₂ Ref.mk hp htag.symm)
      rw [if_neg hx, List.find?_cons_of_neg (by simp [htag]), List.find?_nil, Option.or_none]
  · rw [if_neg hp, if_neg fun hx => hp (by rw [hx]; rfl)]

theorem State.find_eq_none_of_fresh {s : State} {e : Entry} (hfresh : ∀ x ∈ s.entries e.port, x.tag ≠ e.tag) :
    s.find e.ref = none := List.find?_eq_none.2 fun x hx => by simpa [Entry.ref] using hfresh x hx

namespace State.Orderly

variable {C : Chip → Prop} {s t : State}

theorem appended (h : s.Orderly C) (hb : s.Backed) {p : Port} {q : Request} {k : Slot} {offset : Nat}
    (ha : s.Admits p q k offset) (data : List Byte) : (s.appended (s.admitted p q k offset) data).Orderly C :=
  h.insert (h.table.append ha.room ha.tagFree rfl (s.entries_appended (s.admitted p q k offset) data))
    (State.find_appended data ha.tagFree) (State.find_eq_none_of_fresh ha.tagFree) rfl (ha.suits hb) rfl rfl rfl

theorem create (h : s.Orderly C) (hb : s.Backed) {p : Port} {q : Request} {e : Entry} (hj : s.judge p q = .ok e) :
    (s.create e q.data).Orderly C := by
  obtain ⟨k, offset, ha, rfl⟩ := State.judge_eq_ok hj
  have happ := h.appended hb ha q.data
  rw [State.create_eq]
  split
  · exact happ
  · exact happ.join (by rw [State.find_appended _ ha.tagFree, if_pos rfl]) rfl

/-! ### CANCEL and the end of a NAND operation -/

theorem cancelEntry (h : s.Orderly C) {r : Ref} {e : Entry} (he : s.find r = some e)
    (hst : e.state = .held ∨ e.state = .queued) : (s.cancelEntry e).Orderly C := by
  obtain rfl := h.table.ref_of_find he
  have hrest : e.state ≠ .replying ∧ ¬e.state.works := by rcases hst with hst | hst <;> simp [hst, EntryState.works]
  have hc := h.context_ne_of_state he hrest.2
  have hx := h.tenure_ne_of_state he hrest.2
  have hu : ((if e.state = .queued then s.dequeue e.slot e.ref else s).complete e.ref .cancelled).Orderly C := by
    split
    · exact h.leaveComplete .cancelled he hrest.1 hc hx
    · next hq =>
      refine h.complete .cancelled he hrest.1 (h.not_mem_of_state he ?_ _) hc hx
      simp [hst.resolve_right hq, EntryState.waitsOrWorks]
  unfold State.cancelEntry
  dsimp only
  split
  · exact hu.examine _
  · exact hu

theorem endServing (h : s.Orderly everyChip) {c : Chip} {r : Ref} (st : Status) {x : Context}
    (hr : (s.context c).entry = some r) (hx : x.entry = none) : ((s.complete r st).setContext c x).Orderly everyChip := by
  obtain ⟨hq, e, he, hslot, hk, hw⟩ := h.context c trivial r hr
  have hst : e.state ≠ .replying := by rcases hw with hw | hw <;> simp [hw]
  refine ((h.weaken fun _ _ => trivial).complete (C := (· ≠ c)) st he hst (hslot ▸ hq) (fun d hd hrd => hd ?_)
    (h.tenure_ne_of_kind he hk)).setContext_none hx
  obtain ⟨-, y, hy, hyslot, -⟩ := h.context d trivial r hrd
  rw [Option.some.inj (hy.symm.trans he), hslot] at hyslot
  exact (Slot.chip.inj hyslot).symm

/-! ### The ends of transfers -/

theorem stage (h : s.Orderly C) (l : List Nat) (j : Nat) (d : List Byte) : (s.stage l j d).Orderly C :=
  ⟨h.table, h.nodup, h.named, h.queued, h.bypass, h.kind, h.context, h.tenure, h.once, h.replying⟩

theorem setProgress (h : s.Orderly C) (r : Ref) (n : Nat) : (s.setProgress r n).Orderly C :=
  h.touch r fun _ => ⟨rfl, rfl, rfl, rfl, rfl, rfl, rfl⟩

/-- An entry of no NAND kind ends where no transfer is on the bus. -/
theorem endWork (h : s.Orderly C) {r : Ref} {e x : Entry} (st : Status) (he : s.find r = some e) (href : x.ref = r)
    (hslot : x.slot = e.slot) (hst : e.state ≠ .replying) (hk : e.kind.isNand = false)
    (hx : ∀ x, s.arbiter.tenure = some x → x.entry = some r → ¬x.purpose.transfers) : (s.endWork x st).Orderly C := by
  unfold State.endWork
  rw [href, hslot]
  exact h.leaveComplete st he hst (h.context_ne_of_kind he hk) hx

end State.Orderly

/-! ### What the move of a transfer leaves -/

theorem State.endTenure_tenure (s : State) (w : Bool) (cs : List BusCycle) : (s.endTenure w cs).arbiter.tenure = none := by
  unfold State.endTenure
  split
  · next h => exact h
  · rfl

theorem State.stageChunk_table (s : State) (e : Entry) (w : Nat) (xs : List Sample) : (s.stageChunk e w xs).table = s.table := by
  unfold State.stageChunk
  split <;> rfl

/-- After a chunk's move the bus is free and the entries are as they were (R57). -/
theorem State.moveChunk_keeps (s : State) (t : Tenure) (e : Entry) (xs : List Sample) :
    (s.moveChunk t e xs).arbiter.tenure = none ∧ (s.moveChunk t e xs).table = s.table := by
  unfold State.moveChunk
  dsimp only
  split
  · exact ⟨State.endTenure_tenure _ _ _, by rw [State.endTenure_table, State.stageChunk_table]⟩
  · exact ⟨State.endTenure_tenure _ _ _, (State.endTenure_table _ _ _).trans (State.stageChunk_table _ _ _ _)⟩

theorem State.moveAtomic_keeps (s : State) (t : Tenure) (e : Entry) (xs : List Sample) :
    (s.moveAtomic t e xs).arbiter.tenure = none ∧ (s.moveAtomic t e xs).table = s.table := by
  unfold State.moveAtomic
  dsimp only
  split
  · exact ⟨State.endTenure_tenure _ _ _, State.endTenure_table _ _ _⟩
  · exact ⟨State.endTenure_tenure _ _ _, State.endTenure_table _ _ _⟩

theorem State.find_setProgress {s : State} {r : Ref} {e : Entry} (he : s.find r = some e) (n : Nat) :
    (s.setProgress r n).find r = some { e with progress := some n } := by
  unfold State.setProgress
  rw [State.find_updateEntry (hf := by intro; rfl), if_pos rfl, he]
  rfl

/-- The tenure in progress for a purpose and the entry it serves. -/
theorem State.serving_eq_some {s : State} {x : Purpose} {t : Tenure} {e : Entry} (h : s.serving x = some (t, e)) :
    ∃ r, s.arbiter.tenure = some t ∧ t.purpose = x ∧ t.entry = some r ∧ s.find r = some e := by
  unfold State.serving at h
  split at h
  · next u hu =>
    split at h
    · next hx =>
      obtain ⟨y, hy, hye⟩ := Option.map_eq_some_iff.1 h
      obtain ⟨r, hr, hfind⟩ := Option.bind_eq_some_iff.1 hy
      obtain ⟨rfl, rfl⟩ := Prod.mk.inj hye
      exact ⟨r, hu, hx, hr, hfind⟩
    · cases h
  · cases h

/-- The static slot whose beat can reach its limit, with the tenure and the entry on it (R80). -/
theorem State.waiting_eq_some {s : State} {c : Chip} {e : Entry} (h : s.waiting = some (c, e)) :
    ∃ t r, s.arbiter.tenure = some t ∧ t.slot = .chip c ∧ t.entry = some r ∧ s.find r = some e ∧ t.purpose.transfers := by
  unfold State.waiting at h
  split at h
  · next t ht =>
    split at h
    · next c' e' hslot he =>
      split at h
      · next hx =>
        obtain ⟨rfl, rfl⟩ := Prod.mk.inj (Option.some.inj h)
        obtain ⟨r, hr, hfind⟩ := Option.bind_eq_some_iff.1 he
        exact ⟨t, r, ht, hslot, hr, hfind, hx.1⟩
      · cases h
    · cases h
  · cases h

/-- What a grant keeps of an entry at work. -/
theorem grantOps_works (r : Ref) (k : Slot) (x : ReqKind) :
    GrantOps fun s => ∃ y, s.find r = some y ∧ y.slot = k ∧ y.kind = x ∧ y.state.works where
  frame h ht _ := by simpa only [State.find_of_table ht] using h
  activate z h := by
    obtain ⟨y, hy, hslot, hkind, hw⟩ := h
    rw [State.find_updateEntry _ _ _ fun e => congrArg Ref.tag e.activate_keeps.1]
    split
    · next hz =>
      exact ⟨y.activate, by rw [← hz, hy]; rfl, y.activate_slot.trans hslot, y.activate_kind.trans hkind,
        State.Orderly.waitsOrWorks_activate (.inr hw)⟩
    · exact ⟨y, hy, hslot, hkind, hw⟩
  bypassed z h := by
    obtain ⟨y, hy, hrest⟩ := h
    rw [State.find_updateEntry (f := Entry.bypassed) (hf := by intro; rfl)]
    split
    · next hz => exact ⟨y.bypassed, by rw [← hz, hy]; rfl, hrest⟩
    · exact ⟨y, hy, hrest⟩

namespace State.Orderly

variable {C : Chip → Prop} {s t : State}

theorem moveChunk (h : s.Orderly C) (t : Tenure) (e : Entry) (xs : List Sample) : (s.moveChunk t e xs).Orderly C := by
  have hstage : ∀ w, (s.stageChunk e w xs).Orderly C := fun w => by
    unfold State.stageChunk
    split
    · exact h
    · exact h.stage _ _ _
  unfold State.moveChunk
  dsimp only
  split
  · exact (hstage _).lapse (.endTenure _ _ _)
  · exact (hstage _).lapse ((State.Lapse.endSd _ _ _).trans (.setSdram _ _))

theorem moveAtomic (h : s.Orderly C) (t : Tenure) (e : Entry) (xs : List Sample) : (s.moveAtomic t e xs).Orderly C := by
  unfold State.moveAtomic
  dsimp only
  split
  · exact (h.stage _ _ _).lapse (.endTenure _ _ _)
  · exact (h.stage _ _ _).lapse ((State.Lapse.endSd _ _ _).trans (.setSdram _ _))

/-- The entry of a transfer ends once its bytes have moved and the bus is free. -/
theorem endTransfer (h : t.Orderly C) {r : Ref} {e : Entry} (n : Nat) (st : Status) (he : t.find r = some e)
    (hk : e.kind.isNand = false) (hw : e.state.works) (ht : t.arbiter.tenure = none) :
    ((t.setProgress r n).endWork e st).Orderly C := by
  refine (h.setProgress r n).endWork st (State.find_setProgress he n) (h.table.ref_of_find he) rfl ?_ hk fun x hx => ?_
  · rcases hw with hw | hw <;> simp [hw]
  · exact absurd (ht.symm.trans hx) (by simp)

theorem chunkEnd (h : s.Orderly C) (xs : List Sample) : (s.chunkEnd xs).Orderly C := by
  unfold State.chunkEnd
  dsimp only
  split
  · next t e hserving =>
    obtain ⟨r, ht, hx, hr, he⟩ := State.serving_eq_some hserving
    obtain ⟨-, y, hy, hk, hw⟩ := h.tenure t r ht hr (.inl hx)
    obtain rfl := Option.some.inj (hy.symm.trans he)
    obtain rfl := h.table.ref_of_find he
    obtain ⟨hfree, htable⟩ := s.moveChunk_keeps t y xs
    split
    · exact (h.moveChunk t y xs).endTransfer _ _ (by rwa [State.find_of_table htable]) hk hw hfree
    · exact (h.moveChunk t y xs).setProgress _ _
  · exact h

theorem atomicEnd (h : s.Orderly C) (xs : List Sample) : (s.atomicEnd xs).Orderly C := by
  unfold State.atomicEnd
  split
  · next t e hserving =>
    obtain ⟨r, ht, hx, hr, he⟩ := State.serving_eq_some hserving
    obtain ⟨-, y, hy, hk, hw⟩ := h.tenure t r ht hr (.inr hx)
    obtain rfl := Option.some.inj (hy.symm.trans he)
    obtain rfl := h.table.ref_of_find he
    obtain ⟨hfree, htable⟩ := s.moveAtomic_keeps t y xs
    exact (h.moveAtomic t y xs).endTransfer _ _ (by rwa [State.find_of_table htable]) hk hw hfree
  · exact h

/-- A grant leaves an entry at work as it was but for its counts, and a grant to another slot serves another entry. -/
theorem grant_elsewhere (h : s.Orderly C) {c : Chip} {r : Ref} {e : Entry} (hslot : e.slot = .chip c)
    (he : s.find r = some e) (hw : e.state.works) (ht : s.arbiter.tenure = none) (hc : s.candidate (.chip c) = false) :
    (∃ y, s.grant.find r = some y ∧ y.slot = .chip c ∧ y.kind = e.kind ∧ y.state.works) ∧
      ∀ x, s.grant.arbiter.tenure = some x → x.entry = some r → ¬x.purpose.transfers := by
  have hfound := (grantOps_works r (.chip c) e.kind).grant (s := s) ⟨e, he, hslot, rfl, hw⟩
  refine ⟨hfound, fun x hx hxr hp => ?_⟩
  obtain ⟨y, hy, hyslot, -⟩ := hfound
  obtain ⟨hmem, -⟩ := h.grant.tenure x r hx hxr hp
  obtain ⟨z, hz, hzslot, -⟩ := h.grant.named _ r hmem
  have hxc : x.slot = .chip c := hzslot.symm.trans (Option.some.inj (hz.symm.trans hy) ▸ hyslot)
  rcases State.grant_cases ht with hg | ⟨k, hk, hg⟩
  · exact absurd ((ht.symm.trans (hg ▸ hx))) (by simp)
  · rw [hg] at hx
    rw [← State.grantTo_slot hx, hxc, hc] at hk
    cases hk

theorem waitLimit (h : s.Orderly C) (k : Nat) (xs : List Sample) : (s.waitLimit k xs).Orderly C := by
  unfold State.waitLimit
  split
  · next c e hwaiting =>
    split
    · obtain ⟨t, r, ht, hslot, hr, he, hp⟩ := State.waiting_eq_some hwaiting
      obtain ⟨hmem, y, hy, hk, hw⟩ := h.tenure t r ht hr hp
      obtain rfl := Option.some.inj (hy.symm.trans he)
      obtain ⟨z, hz, hzslot, -⟩ := h.named _ r hmem
      obtain rfl := Option.some.inj (hz.symm.trans he)
      have hzc : z.slot = .chip c := hzslot.trans hslot
      have htype : (s.profile c).type ≠ .nand := fun hn => by
        rw [hslot] at hmem
        simp [(h.isNand_of_mem hmem he).2 hn] at hk
      let w := s.waitCycles (s.profile c) z k xs
      have hstaged : ((s.setHealth c .stalled).stageWaited (s.profile c) z k xs).Orderly C := by
        have hu := h.lapse (.setHealth s c .stalled)
        unfold State.stageWaited
        split
        · exact hu
        · exact hu.stage _ _ _
      have hended := hstaged.lapse (.endTenure _ w.1 w.2)
      have hfind : (((s.setHealth c .stalled).stageWaited (s.profile c) z k xs).endTenure w.1 w.2).find r = some z := by
        rw [State.find_of_table (State.endTenure_table _ _ _)]
        unfold State.stageWaited
        split <;> exact he
      have hcand : (((s.setHealth c .stalled).stageWaited (s.profile c) z k xs).endTenure w.1 w.2).candidate (.chip c) =
          false := by
        refine State.candidate_of_health ?_ ?_
        · rw [State.profile, (State.Lapse.endTenure _ w.1 w.2).profiles]
          unfold State.stageWaited
          split <;> exact htype
        · rw [State.endTenure_health]
          unfold State.stageWaited
          split <;> simp [State.setHealth, State.stage]
      obtain ⟨⟨y, hy, hyslot, hyk, hyw⟩, hnone⟩ :=
        hended.grant_elsewhere hzc hfind hw (State.endTenure_tenure _ _ _) hcand
      obtain rfl := h.table.ref_of_find he
      refine (((hended.grant.setProgress z.ref _).endWork .busTimeout (State.find_setProgress hy _) rfl
        (hzc.trans hyslot.symm) ?_ (hyk ▸ hk) hnone).flush (.chip c)).lapse (.postBoth _ _)
      rcases hyw with hyw | hyw <;> simp [hyw]
    · exact h
  · exact h

/-! ### A REPLY sent -/

/-- The entry of a REPLY that has been sent is freed (R19). -/
theorem replySent (h : s.Orderly C) {p : Port} {tag : Byte} {rest : List Item} {u : PortUnit}
    (hready : (s.port p).ready = .entryReply tag :: rest) (hu : u.ready = rest) :
    ((s.setPort p u).freeEntry ⟨p, tag⟩).Orderly C := by
  have hreplies : s.replies p = tag :: rest.filterMap Item.replyTag := by
    unfold State.replies
    rw [hready]
    rfl
  obtain ⟨e, he, hrep⟩ := h.replying p tag (hreplies ▸ List.mem_cons_self ..)
  have hnot : ¬e.state.waitsOrWorks := by simp [hrep, EntryState.waitsOrWorks]
  have hworks : ¬e.state.works := by simp [hrep, EntryState.works]
  have hafter : ∀ q, ((s.setPort p u).freeEntry ⟨p, tag⟩).replies q =
      if q = p then rest.filterMap Item.replyTag else s.replies q := fun q => by
    unfold State.replies State.port
    rw [State.freeEntry_ports]
    change ((s.setPort p u).port q).ready.filterMap _ = _
    rw [State.port_setPort]
    split
    · rw [hu]
    · rfl
  have hfind : ∀ x, ((s.setPort p u).freeEntry ⟨p, tag⟩).find x = if x = ⟨p, tag⟩ then none else s.find x := fun x => by
    unfold State.freeEntry
    rw [State.find_dropEntry]
    split
    · rfl
    · next hx => rw [State.find_releaseSegments, if_neg hx, State.find_setPort]
  have honce := h.once p
  rw [hreplies, List.nodup_cons] at honce
  refine h.remove (r := ⟨p, tag⟩) (tableOps_tableLaw.free _ (h.table.frame rfl)) (fun x hx => by rw [hfind, if_neg hx])
    (fun y hy => by simp [hfind] at hy) (fun k => ?_) (fun c => by simp [State.profile, State.setPort])
    (fun c => by simp [State.context, State.setPort]) (by rw [State.freeEntry_arbiter]; rfl) (h.context_ne_of_state he hworks)
    (h.tenure_ne_of_state he hworks) (fun q => ?_) fun q x hx => ?_
  · rw [State.queue, State.freeEntry_arbiter]
    exact (List.filter_eq_self.2 fun x hx => by simpa using fun hxr : x = ⟨p, tag⟩ => h.not_mem_of_state he hnot k (hxr ▸ hx)).symm
  · rw [hafter]
    split
    · exact honce.2
    · exact h.once q
  · rw [hafter] at hx
    split at hx
    · next hq =>
      subst hq
      refine .inl ⟨fun hxr => honce.1 ?_, hreplies ▸ List.mem_cons_of_mem _ hx⟩
      exact (Ref.mk.inj hxr).2 ▸ hx
    · next hq => exact .inl ⟨fun hxr => hq (Ref.mk.inj hxr).1, hx⟩

/-! ### A profile change -/

/-- A slot's profile changes where no entry of the slot is still to be answered (R71, R72). -/
theorem applySlot (h : s.Orderly C) {code : Byte} {d : List Byte} {c : Chip} {f : Profile}
    (hj : s.judgeSlot code d = .ok (c, f)) : (s.applySlot c f).Orderly C := by
  have hfree : ∀ r e, s.find r = some e → e.state ≠ .replying → e.slot ≠ .chip c := fun r e he hst hslot => by
    have hentry : s.entryOn (.chip c) = true := by
      have hmem := State.find_mem he
      refine List.any_eq_true.2 ⟨e, ?_, by simp [hslot, hst]⟩
      cases hp : r.port <;> simp_all
    unfold State.judgeSlot at hj
    split at hj
    · cases hj
    · split at hj
      · cases hj
      · split at hj
        · cases hj
        · next hbusy =>
          split at hj
          · cases hj
          · obtain ⟨rfl, -⟩ := Prod.mk.inj (Except.ok.inj hj)
            simp [State.slotBusy, hentry] at hbusy
  have hu : (s.setProfile c f).Orderly C := by
    refine ⟨h.table, h.nodup, h.named, h.queued, h.bypass, fun r e he hst => ?_, h.context, h.tenure, h.once, h.replying⟩
    refine (h.kind r e he hst).congr rfl rfl rfl fun d hd => ?_
    rw [State.profile_setProfile, if_neg fun hdc : d = c => hfree r e he hst (hdc ▸ hd)]
  exact hu.lapse ((State.Lapse.setRetired _ _ _).after (.setContext c (.inr rfl)))

end State.Orderly

/-! ### A port reset -/

theorem Entry.afterPortReset_eq_some {e y : Entry} (h : e.afterPortReset = some y) :
    e.state.works ∧ y = { e with state := .orphaned } := by
  cases hst : e.state <;> simp only [Entry.afterPortReset, hst] at h
  · cases h
  · cases h
  · exact ⟨.inl rfl, (Option.some.inj h).symm⟩
  · cases h
  · exact ⟨.inr rfl, (Option.some.inj h).symm.trans (by rw [← hst])⟩

theorem Entry.afterPortReset_of_works {e : Entry} (h : e.state.works) :
    e.afterPortReset = some { e with state := .orphaned } := by
  rcases h with h | h
  · simp only [Entry.afterPortReset, h]
  · simp only [Entry.afterPortReset, h]
    rw [← h]

theorem find?_afterPortReset_eq_none {tag : Byte} {es : List Entry} (h : ∀ x ∈ es, x.tag ≠ tag) :
    (es.filterMap Entry.afterPortReset).find? (fun e => e.tag == tag) = none := by
  rw [List.find?_eq_none]
  intro y hy
  obtain ⟨x, hx, hxy⟩ := List.mem_filterMap.1 hy
  obtain ⟨-, rfl⟩ := Entry.afterPortReset_eq_some hxy
  simpa using h x hx

/-- After a port reset the port's names find what it left of their entries (R25). -/
theorem State.find_resetEntries {s : State} (ht : s.TableLaw) (p : Port) (r : Ref) :
    (s.resetEntries p).find r = if r.port = p then (s.find r).bind Entry.afterPortReset else s.find r := by
  have hentries : (s.resetEntries p).entries r.port =
      if r.port = p then (s.entries p).filterMap Entry.afterPortReset else s.entries r.port :=
    State.entries_setEntries _ p r.port _
  rw [State.find, hentries]
  split
  · next hp =>
    subst hp
    cases hfind : s.find r with
    | none => exact find?_afterPortReset_eq_none (by simpa using List.find?_eq_none.1 hfind)
    | some e =>
      obtain ⟨older, younger, hsplit, ho, hy⟩ := ht.split_of_find hfind
      rw [hsplit, List.filterMap_append, List.find?_append, find?_afterPortReset_eq_none ho, Option.none_or,
        Option.bind_some, List.filterMap_cons]
      cases he : e.afterPortReset with
      | none => exact find?_afterPortReset_eq_none hy
      | some y =>
        obtain ⟨-, rfl⟩ := Entry.afterPortReset_eq_some he
        exact List.find?_cons_of_pos (by simp [State.find_tag hfind])
  · rfl

theorem State.queue_resetEntries (s : State) (p : Port) (k : Slot) :
    (s.resetEntries p).queue k = s.queueAfterReset p (s.queue k) := by
  cases k with
  | sd => rfl
  | chip c => cases c <;> rfl

namespace State.Orderly

variable {C : Chip → Prop} {s t : State}

/-- What a port reset leaves of the port's entries, queues and replies (R25, R180). -/
theorem cleared (h : s.Orderly C) (p : Port) (cause : PortStart) : (s.cleared p cause).Orderly C := by
  have hfind : ∀ r, (s.cleared p cause).find r = if r.port = p then (s.find r).bind Entry.afterPortReset else s.find r :=
    State.find_resetEntries h.table p
  have hqueue : ∀ k, (s.cleared p cause).queue k = s.queueAfterReset p (s.queue k) := s.queue_resetEntries p
  have hcontext : ∀ c, ((s.cleared p cause).context c).entry = (s.context c).entry := fun c => by cases c <;> rfl
  have hreplies : ∀ q, (s.cleared p cause).replies q = if q = p then [] else s.replies q := fun q => by
    have hport : (s.cleared p cause).port q =
        if q = p then (((s.resetEntries p).dropReplies p).port p).reset cause else s.port q :=
      State.port_setPort _ p q _
    unfold State.replies
    rw [hport]
    split <;> rfl
  have hmem : ∀ {k x}, x ∈ (s.cleared p cause).queue k ↔ x ∈ s.queue k ∧ (x.port = p → s.isQueued x = false) :=
    fun {k x} => by
      rw [hqueue, State.queueAfterReset, List.mem_filter]
      simp [imp_iff_not_or]
  have forth : ∀ {x e}, s.find x = some e → e.state.works →
      ∃ y, (s.cleared p cause).find x = some y ∧ y.slot = e.slot ∧ y.kind = e.kind ∧ y.state.works := fun {x e} he hw => by
    rw [hfind, he]
    split
    · exact ⟨_, Entry.afterPortReset_of_works hw, rfl, rfl, .inr rfl⟩
    · exact ⟨e, rfl, rfl, rfl, hw⟩
  have back : ∀ {x y}, (s.cleared p cause).find x = some y →
      (x.port ≠ p ∧ s.find x = some y) ∨ ∃ e, s.find x = some e ∧ e.state.works ∧ y = { e with state := .orphaned } :=
    fun {x y} hy => by
      rw [hfind] at hy
      split at hy
      · obtain ⟨e, he, hey⟩ := Option.bind_eq_some_iff.1 hy
        exact .inr ⟨e, he, Entry.afterPortReset_eq_some hey⟩
      · next hp => exact .inl ⟨hp, hy⟩
  have notQueued : ∀ {x e}, s.find x = some e → e.state.works → s.isQueued x = false := fun {x e} he hw => by
    unfold State.isQueued
    rw [he]
    rcases hw with hw | hw <;> simp [hw]
  refine ⟨(h.table.resetEntries p).frame rfl, fun k => hqueue k ▸ (h.nodup k).filter _, fun k x hx => ?_,
    fun x y hy hq => ?_, fun x hx y hy => ?_, fun x y hy hst => ?_, fun c hc x hx => ?_, fun u x hu hx hp => ?_,
    fun q => ?_, fun q tag htag => ?_⟩
  · obtain ⟨hx, hxq⟩ := hmem.1 hx
    obtain ⟨e, he, hslot, hw⟩ := h.named k x hx
    by_cases hp : x.port = p
    · have hworks : e.state.works := hw.resolve_left fun hq => by simp [State.isQueued, he, hq] at hxq; exact hxq hp
      obtain ⟨y, hy, hyslot, -, hyw⟩ := forth he hworks
      exact ⟨y, hy, hyslot.trans hslot, .inr hyw⟩
    · exact ⟨e, by rw [hfind, if_neg hp, he], hslot, hw⟩
  · rcases back hy with ⟨hp, he⟩ | ⟨e, -, -, rfl⟩
    · exact hmem.2 ⟨h.queued x y he hq, fun hxp => absurd hxp hp⟩
    · simp at hq
  · rcases back hy with ⟨-, he⟩ | ⟨e, he, -, rfl⟩
    · exact h.bypass x (hmem.1 hx).1 y he
    · exact h.bypass x (hmem.1 hx).1 e he
  · rcases back hy with ⟨-, he⟩ | ⟨e, he, hw, rfl⟩
    · exact (h.kind x y he hst).congr rfl rfl rfl fun _ _ => rfl
    · exact (h.kind x e he (by rcases hw with hw | hw <;> simp [hw])).congr rfl rfl rfl fun _ _ => rfl
  · obtain ⟨hq, e, he, hslot, hk, hw⟩ := h.context c hc x (hcontext c ▸ hx)
    obtain ⟨y, hy, hyslot, hyk, hyw⟩ := forth he hw
    exact ⟨fun hm => hq (hmem.1 hm).1, y, hy, hyslot.trans hslot, hyk ▸ hk, hyw⟩
  · obtain ⟨hq, e, he, hk, hw⟩ := h.tenure u x hu hx hp
    obtain ⟨y, hy, -, hyk, hyw⟩ := forth he hw
    exact ⟨hmem.2 ⟨hq, fun _ => notQueued he hw⟩, y, hy, hyk ▸ hk, hyw⟩
  · rw [hreplies]
    split
    · exact List.nodup_nil
    · exact h.once q
  · rw [hreplies] at htag
    split at htag
    · cases htag
    · next hq =>
      rw [hfind, if_neg hq]
      exact h.replying q tag htag

/-- After a full reset there is no entry, and nothing names one (R183). -/
theorem fullReset (s : State) (cause : Cause) (pins : Pins) : (s.fullReset cause pins).Orderly C := by
  have hfind : ∀ r, (s.fullReset cause pins).find r = none := fun r => by
    cases r with
    | mk p tag => cases p <;> rfl
  have hqueue : ∀ k, (s.fullReset cause pins).queue k = [] := fun k => by
    cases k with
    | sd => rfl
    | chip c => cases c <;> rfl
  have hcontext : ∀ c, ((s.fullReset cause pins).context c).entry = none := fun c => by
    cases c with
    | s1 =>
      change (Context.boot pins.boot).entry = none
      unfold Context.boot
      split <;> rfl
    | s2 => rfl
    | s3 => rfl
    | s4 => rfl
  have hreplies : ∀ p, (s.fullReset cause pins).replies p = [] := fun p => by cases p <;> rfl
  have hentries : ∀ p, (s.fullReset cause pins).entries p = [] := fun p => by cases p <;> rfl
  exact ⟨fun p => by simp [hentries], by simp [hqueue], by simp [hqueue], by simp [hfind], by simp [hqueue], by simp [hfind],
    by simp [hcontext], fun t r ht => (by cases ht), by simp [hreplies], by simp [hreplies]⟩

theorem portReset (h : s.Orderly C) (p : Port) (cause : PortStart) : (s.portReset p cause).Orderly C := by
  rw [State.portReset_eq]
  split
  · exact fullReset _ _ _
  · exact (h.cleared p cause).lapse (.post _ _ _)

end State.Orderly

theorem commandOps_orderly : CommandOps State.Backed (State.Orderly everyChip) where
  table h := h.table
  lapse h hl := h.lapse hl
  touch r _ hf h := h.touch r hf
  stage l j d h := h.stage l j d
  examine c h := h.examine c
  flush k h := h.flush k
  grant h := h.grant
  create hb h hj := h.create hb hj
  cancel h he hst := h.cancelEntry he hst
  endServing st _ h hr hx := h.endServing st hr hx
  chunkEnd xs h := h.chunkEnd xs
  atomicEnd xs h := h.atomicEnd xs
  waitLimit k xs h := h.waitLimit k xs
  replySent h hready hu := h.replySent hready hu
  applySlot h hj := h.applySlot hj
  portReset p cause h := h.portReset p cause
  fullReset cause pins _ := .fullReset _ cause pins

/-- Every step keeps the laws of queues, kinds, work and replies (R10, R11, R17, R24, R58, R64, R71, R111, R122). -/
theorem step_keeps_orderly {s t : State} (h : step s = .next t) (hb : s.Backed) (hs : s.Orderly everyChip) :
    t.Orderly everyChip :=
  commandOps_orderly.step (fun p seq hk => by rw [State.takeFrame_only]; exact hk.congr rfl rfl rfl)
    (fun _ hk => hk.congr rfl rfl rfl) h hb hs

/-- Settles O57: both parts go command by command through what a command can do to an entry (`CommandOps`), the first with
the table and pool laws, the second with the laws of queues, kinds, work and replies joined entry by entry. -/
theorem everyStepKeepsTableAndPool : Obligations.EveryStepKeepsTableAndPool := by
  refine ⟨fun s t h ht hp hb => ?_, fun s t h ht htarget hprofile hq hk hw hr => ?_⟩
  · obtain ⟨ht, hp, hb⟩ := step_keeps_sound h ⟨ht, hp, hb⟩
    exact ⟨ht, hp, hb⟩
  · obtain ⟨-, hq, hk, hw, hr⟩ :=
      State.orderly_iff.1 (step_keeps_orderly h ⟨htarget, hprofile⟩ (State.orderly_iff.2 ⟨ht, hq, hk, hw, hr⟩))
    exact ⟨hq, hk, hw, hr⟩

end Sys2Proof.Machine
end

section
/-! The part after power-on (R27, R116, R183) and the laws. -/
namespace Sys2Proof.Machine

theorem State.reset_entries (p : Port) : State.reset.entries p = [] := by cases p <;> rfl

theorem State.reset_profile (c : Chip) : State.reset.profile c = Profile.off := by cases c <;> rfl

theorem State.reset_retired (c : Chip) : State.reset.retired.get c = [] := by cases c <;> rfl

theorem State.reset_context (c : Chip) : State.reset.context c = Context.idle := by cases c <;> rfl

theorem State.reset_ready (p : Port) : (State.reset.port p).ready = [] := by cases p <;> rfl

theorem State.reset_notices (p : Port) : State.reset.notices.get p = NoticeState.afterReset := by cases p <;> rfl

theorem State.reset_sound : State.reset.Sound := by
  have hheld : ∀ p, State.reset.heldSegments p = [] := fun p => by
    rw [State.heldSegments, State.reset_entries]
    rfl
  refine ⟨fun p => by simp [State.reset_entries], ⟨?_, List.pairwise_lt_range, fun p => ?_, by decide⟩, rfl⟩
  · rw [hheld, hheld, List.append_nil, List.append_nil]
    exact .refl _
  · rw [hheld]
    cases p <;> rfl

/-- Power-on is the full reset of an idle part, but for its count of free choices (R183). -/
theorem State.reset_orderly : State.reset.Orderly everyChip :=
  (State.Orderly.fullReset State.reset .power Pins.default).lapse (.of_eq rfl rfl rfl rfl rfl)

/-- Every window is off (R30). -/
theorem State.reset_windows (w : Window) (hw : w ∈ State.reset.windows) : w = Window.off := List.eq_of_mem_replicate hw

/-- Settles O56: the table and the queues are empty, every other block stands at its reset value. -/
theorem resetMeetsEveryLaw : Obligations.ResetMeetsEveryLaw := by
  obtain ⟨htable, hpool, hbytes⟩ := State.reset_sound
  obtain ⟨-, hqueue, hkind, hwork, hreply⟩ := State.orderly_iff.1 State.reset_orderly
  have hnotices : State.reset.NoticeLaw := fun p => by
    simp [State.reset_notices, State.reset_ready, NoticeState.afterReset]
  have hslots : State.reset.SlotLaw := fun p => by cases p <;> exact ⟨rfl, by decide⟩
  have hdeferred : State.reset.DeferredLaw := by
    refine ⟨by decide, by decide, fun c hc => ?_, fun c hc => ?_⟩
    · rw [State.reset_profile] at hc
      cases hc
    · rw [State.reset_context] at hc
      cases hc
  refine ⟨htable, hpool, hbytes, hqueue, hkind, hwork, hreply, ⟨rfl, fun w hw => .inl (State.reset_windows w hw), ?_⟩,
    fun w hw he => ?_, fun c => ?_, fun c => ?_, fun c => ?_, ?_, hnotices, hslots, hdeferred, ⟨fun _ => rfl, fun h => absurd rfl h⟩⟩
  · exact List.pairwise_replicate.2 (.inr rfl)
  · rw [State.reset_windows w hw] at he
    cases he
  · rw [State.reset_profile]
    exact ⟨by decide, rfl⟩
  · rw [State.reset_retired]
    exact ⟨.nil, by decide⟩
  · rw [State.reset_retired]
    exact ⟨fun _ => rfl, by simp⟩
  · exact ⟨by decide, by decide, by decide, by decide⟩

end Sys2Proof.Machine
end

section
/-! A request frame on a served port: taken in its turn it is judged, and is answered with the refusal of the first check that
fails (R8, R13, R167). -/
namespace Sys2Proof.Machine

/-! ### Taking a frame -/

@[simp] theorem State.setPort_setPort (s : State) (p : Port) (u v : PortUnit) : (s.setPort p u).setPort p v = s.setPort p v := by
  simp [State.setPort]

/-- The fields of a port unit that taking a frame leaves as they were. -/
structure PortUnit.SameStanding (u v : PortUnit) : Prop where
  state : v.state = u.state
  held : v.held = u.held
  config : v.config = u.config

theorem PortUnit.SameStanding.refl (u : PortUnit) : u.SameStanding u := ⟨rfl, rfl, rfl⟩

theorem PortUnit.SameStanding.trans {u v w : PortUnit} (h : u.SameStanding v) (g : v.SameStanding w) : u.SameStanding w :=
  ⟨g.state.trans h.state, g.held.trans h.held, g.config.trans h.config⟩

/-- A port unit replaced by one of the same standing. -/
theorem State.setPort_standing (s : State) (p q : Port) {u : PortUnit} (h : (s.port p).SameStanding u) :
    (s.port q).SameStanding ((s.setPort p u).port q) := by
  rw [State.port_setPort]
  split
  · next hq => exact hq ▸ h
  · exact .refl _

/-- A post leaves a port's standing (R157, R159). -/
theorem State.post_standing (s : State) (p q : Port) (x : Notice) : (s.port q).SameStanding ((s.post p x).port q) := by
  have hmove : ∀ u : State, (u.port q).SameStanding ((u.moveNotice p).port q) := fun u => by
    unfold State.moveNotice
    dsimp only
    split
    · exact u.setPort_standing p q ⟨rfl, rfl, rfl⟩
    · exact .refl _
  unfold State.post
  dsimp only
  split
  · exact .refl _
  · split
    · exact hmove { s with notices := s.notices.set p { s.notices.get p with
        queue := (s.notices.get p).queue ++ [((s.notices.get p).next, x)], next := (s.notices.get p).next + 1 } }
    · exact .refl _

/-- Taking a frame leaves a port's standing (R167, R168). -/
theorem State.takeFrame_standing (s : State) (p q : Port) (seq : Byte) :
    (s.port q).SameStanding ((s.takeFrame p seq).port q) := by
  have hconsume : (s.port q).SameStanding ((s.consume p).port q) := s.setPort_standing p q ⟨rfl, rfl, rfl⟩
  have hexpect : ∀ u : State, (u.port q).SameStanding ((u.setPort p { u.port p with expected := some (seq + 1) }).port q) :=
    fun u => u.setPort_standing p q ⟨rfl, rfl, rfl⟩
  unfold State.takeFrame State.sequenceCheck
  split
  · refine hconsume.trans (.trans ?_ (hexpect _))
    split
    · exact .refl _
    · exact State.post_standing _ p q _
  · exact hconsume.trans (hexpect _)
  · exact hconsume

@[simp] theorem State.takeFrame_held (s : State) (p q : Port) (seq : Byte) :
    ((s.takeFrame p seq).port q).held = (s.port q).held := (s.takeFrame_standing p q seq).held

@[simp] theorem State.takeFrame_startup (s : State) (p : Port) (seq : Byte) : (s.takeFrame p seq).startup = s.startup := by
  rw [State.takeFrame_only]

@[simp] theorem State.takeFrame_table (s : State) (p : Port) (seq : Byte) : (s.takeFrame p seq).table = s.table := by
  rw [State.takeFrame_only]

@[simp] theorem State.takeFrame_pool (s : State) (p : Port) (seq : Byte) : (s.takeFrame p seq).pool = s.pool := by
  rw [State.takeFrame_only]

@[simp] theorem State.takeFrame_sdram (s : State) (p : Port) (seq : Byte) : (s.takeFrame p seq).sdram = s.sdram := by
  rw [State.takeFrame_only]

@[simp] theorem State.takeFrame_pins (s : State) (p : Port) (seq : Byte) : (s.takeFrame p seq).pins = s.pins := by
  rw [State.takeFrame_only]

@[simp] theorem State.takeFrame_bridgeReset (s : State) (p : Port) (seq : Byte) :
    (s.takeFrame p seq).bridgeReset = s.bridgeReset := by
  rw [State.takeFrame_only]

@[simp] theorem State.takeFrame_fresh (s : State) (p : Port) (seq : Byte) : (s.takeFrame p seq).fresh = s.fresh := by
  rw [State.takeFrame_only]

/-- A served port stays served when a frame is taken. -/
theorem State.Serves.takeFrame {s : State} {p : Port} (h : s.Serves p) (seq : Byte) : (s.takeFrame p seq).Serves p :=
  ⟨by rw [State.takeFrame_startup]; exact h.1, by rw [(s.takeFrame_standing p p seq).state]; exact h.2⟩

/-- The judging of a request looks at no port unit and no notice. -/
theorem State.judge_takeFrame (s : State) (p x : Port) (seq : Byte) (q : Request) :
    (s.takeFrame p seq).judge x q = s.judge x q := by
  rw [State.takeFrame_only]
  rfl

/-! ### A request row -/

theorem State.dealRequest_of_serves {s : State} {p : Port} {d : List Byte} (k : ReqKind) (h : s.Serves p)
    (hd : 2 ≤ d.length) : s.dealRequest k p d = s.admitRequest p (readRequest k d) := by
  obtain ⟨htop, hport⟩ := h
  unfold State.dealRequest
  simp only [htop, hport, Nat.not_lt.2 hd, if_false]

/-- A request frame taken on a served port goes to admission (R8, R167, R170). -/
theorem exec_request {s : State} {p : Port} {seq : Byte} {d : List Byte} {k : ReqKind} (ht : s.Takes p k.code seq d)
    (hs : s.Serves p) (hd : 2 ≤ d.length) :
    exec (requestOf k p seq d) s = .next ((s.takeFrame p seq).admitRequest p (readRequest k d)).settle := by
  have hrow : exec (requestOf k p seq d) s = .next (s.takeRequest k p seq d).settle := by cases k <;> rfl
  rw [hrow, State.takeRequest, State.takeMessage_in_turn ht, State.dealRequest_of_serves k (hs.takeFrame seq) hd]

/-- An answer in a control reply slot is one change of the port unit (R174). -/
theorem State.slotAnswer_of_free {s : State} {p : Port} (i : Item) (h : (s.port p).held < 8) :
    s.slotAnswer p i =
      s.setPort p { s.port p with held := (s.port p).held + 1, ready := (s.port p).ready ++ [i] } := by
  unfold State.slotAnswer State.slotFree State.answer State.holdSlot State.pushReady
  rw [if_pos (by simpa using h), State.setPort_setPort, State.port_setPort, if_pos rfl]

theorem State.slotAnswer_of_full {s : State} {p : Port} (i : Item) (h : 8 ≤ (s.port p).held) :
    s.slotAnswer p i = s.overrun p := by
  unfold State.slotAnswer State.slotFree
  rw [if_neg (by simpa using h)]

/-- A refused request is answered through a control reply slot (R13). -/
theorem exec_refused {s : State} {p : Port} {seq : Byte} {d : List Byte} {k : ReqKind} {st : Status}
    (ht : s.Takes p k.code seq d) (hs : s.Serves p) (hd : 2 ≤ d.length) (hj : s.judge p (readRequest k d) = .error st) :
    ((s.port p).held < 8 → exec (requestOf k p seq d) s = .next ((s.takeFrame p seq).setPort p
      { (s.takeFrame p seq).port p with
        held := ((s.takeFrame p seq).port p).held + 1
        ready := ((s.takeFrame p seq).port p).ready ++ [.refusal (at8 d 0) st] }).settle) ∧
    (8 ≤ (s.port p).held → exec (requestOf k p seq d) s = .next ((s.takeFrame p seq).overrun p).settle) := by
  have hrow : exec (requestOf k p seq d) s =
      .next ((s.takeFrame p seq).slotAnswer p (.refusal (at8 d 0) st)).settle := by
    rw [exec_request ht hs hd, State.admitRequest, State.judge_takeFrame, hj]
    rfl
  rw [hrow]
  exact ⟨fun h => by rw [State.slotAnswer_of_free _ (by simpa using h)],
    fun h => by rw [State.slotAnswer_of_full _ (by simpa using h)]⟩

/-! ### The checks of admission in their order (R8) -/

section
variable {s : State} {p : Port} {q : Request}

theorem State.judge_noCredit (h : 16 ≤ (s.entries p).length) : s.judge p q = .error .noCredit := if_pos h

theorem State.any_tag_iff (s : State) (p : Port) (tag : Byte) :
    (s.entries p).any (fun e => e.tag == tag) = true ↔ tag ∈ (s.entries p).map Entry.tag := by
  simp [List.any_eq_true, List.mem_map]

variable (hroom : (s.entries p).length < 16)
include hroom

theorem State.judge_tagInUse (h : q.tag ∈ (s.entries p).map Entry.tag) : s.judge p q = .error .tagInUse := by
  unfold State.judge
  rw [if_neg (Nat.not_le.2 hroom), if_pos ((s.any_tag_iff p q.tag).2 h)]

variable (htag : q.tag ∉ (s.entries p).map Entry.tag)
include htag

theorem State.judge_of_malformed (h : q.wellFormed = false) : s.judge p q = .error .badArg := by
  unfold State.judge
  rw [if_neg (Nat.not_le.2 hroom), if_neg ((s.any_tag_iff p q.tag).not.2 htag), if_pos h]

variable (hformed : q.wellFormed = true)
include hformed

theorem State.judge_of_target_error {st : Status} (h : s.target p q = .error st) : s.judge p q = .error st := by
  unfold State.judge
  rw [if_neg (Nat.not_le.2 hroom), if_neg ((s.any_tag_iff p q.tag).not.2 htag), if_neg (by simp [hformed]), h]

variable {k : Slot} {offset : Nat} (htarget : s.target p q = .ok (k, offset))
include htarget

/-- Checks 7 to 9, once there is a target. -/
theorem State.judge_of_target : s.judge p q =
    if q.kind.isAtomic && s.isNor k then .error .badKind
    else if s.healthy k = false then .error .slotStall
    else if s.pool.canClaim p (segmentNeed q (s.profileOf k).sectors) = false then .error .noBuffer
    else .ok (s.admitted p q k offset) := by
  unfold State.judge
  rw [if_neg (Nat.not_le.2 hroom), if_neg ((s.any_tag_iff p q.tag).not.2 htag), if_neg (by simp [hformed]), htarget]
  rfl

end

/-- Settles O18: each check's failure, once the checks before it have passed, is what `judge` finds, and a refusal is one
answer through a control reply slot. -/
theorem firstFailedCheckRefuses : Obligations.FirstFailedCheckRefuses := by
  intro s p seq d k ht hs hd
  have refused := fun {st} (hj : s.judge p (readRequest k d) = .error st) => exec_refused ht hs hd hj
  refine ⟨fun h => refused (State.judge_noCredit h), fun hroom => ⟨fun h => refused (State.judge_tagInUse hroom h),
    fun htag => ⟨fun h => refused (State.judge_of_malformed hroom htag h), fun hformed =>
      ⟨fun st h => refused (State.judge_of_target_error hroom htag hformed h), fun slot offset htarget => ?_⟩⟩⟩⟩
  have hj := State.judge_of_target hroom htag hformed htarget
  have hkind : (readRequest k d).kind = k := rfl
  rw [hkind] at hj
  refine ⟨fun hnor => refused ?_, fun hnor => ⟨fun hh => refused ?_, fun hh hclaim => refused ?_⟩⟩
  · rw [hj, if_pos (by simpa using hnor)]
  · rw [hj, if_neg (by simpa using hnor), if_pos hh]
  · rw [hj, if_neg (by simpa using hnor), if_neg (by simp [hh]), if_pos hclaim]

end Sys2Proof.Machine
end

section
/-! The checks of admission that look at the request and its target alone: form (R4, R9, R200), the window decode (R10,
R39–R41) and the tests of a NAND target (R11). -/
namespace Sys2Proof.Machine

/-! ### The form of a request -/

/-- Without RAW the flags are 0 or ORDERED (R4). -/
theorem plain_flags (b : Byte) : (decide (b.toNat < 4) && !b.getLsbD 1) = true ↔ b = 0 ∨ b = 1 := by
  revert b
  decide

theorem flags_below_four (b : Byte) : b.toNat < 4 ↔ (b = 0 ∨ b = 1) ∨ b = 2 ∨ b = 3 := by
  revert b
  decide

theorem chipOfCode_isSome (b : Byte) : (chipOfCode b).isSome = true ↔ 1 ≤ b.toNat ∧ b.toNat ≤ 4 := by
  revert b
  decide

/-- RAW is allowed on PG-READ and PG-PROG alone (R4). -/
theorem flagsOk_readRequest (k : ReqKind) (d : List Byte) :
    (readRequest k d).flagsOk = true ↔
      if k = .pgRead ∨ k = .pgProg then (at8 d 1 = 0 ∨ at8 d 1 = 1) ∨ at8 d 1 = 2 ∨ at8 d 1 = 3
      else at8 d 1 = 0 ∨ at8 d 1 = 1 := by
  have hflags : (readRequest k d).flags = at8 d 1 := rfl
  have hkind : (readRequest k d).kind = k := rfl
  unfold Request.flagsOk Request.raw
  rw [hflags, hkind]
  split
  · next h =>
    rw [← flags_below_four]
    rcases h with rfl | rfl <;> simp
  · next h =>
    rw [← plain_flags]
    obtain ⟨hread, hprog⟩ := not_or.1 h
    simp [hread, hprog]

/-- An atomic's length is 1, 2 or 4 and divides its address (R2). -/
theorem atomic_form (length address : Nat) :
    ((length == 1 || length == 2 || length == 4) && address % length == 0) = true ↔
      (length = 1 ∨ length = 2 ∨ length = 4) ∧ length ∣ address := by
  simp [Nat.dvd_iff_mod_eq_zero, or_assoc]

/-- The three parts of check 5 for a payload. -/
theorem wellFormed_readRequest (k : ReqKind) (d : List Byte) :
    (readRequest k d).wellFormed = true ↔ (readRequest k d).sizeOk = true ∧ (readRequest k d).flagsOk = true ∧
      match k with
      | .read | .write => 1 ≤ field d 6 2 ∧ field d 6 2 ≤ 1024
      | .cset | .swap | .fadd => (field d 6 2 = 1 ∨ field d 6 2 = 2 ∨ field d 6 2 = 4) ∧ field d 6 2 ∣ field d 2 4
      | .pgRead => (1 ≤ (at8 d 2).toNat ∧ (at8 d 2).toNat ≤ 4) ∧ 1 ≤ (at8 d 7).toNat ∧ (at8 d 6).toNat + (at8 d 7).toNat ≤ 8
      | .pgProg | .blkErase | .nandId => 1 ≤ (at8 d 2).toNat ∧ (at8 d 2).toNat ≤ 4 := by
  unfold Request.wellFormed
  rw [Bool.and_eq_true, Bool.and_eq_true, and_assoc]
  refine and_congr_right fun _ => and_congr_right fun _ => ?_
  have hatomic := atomic_form (field d 6 2) (field d 2 4)
  have hchip := chipOfCode_isSome (at8 d 2)
  cases k with
  | read | write => simp [readRequest]
  | cset | swap | fadd => exact hatomic
  | pgRead =>
    rw [← hchip]
    simp [readRequest, and_assoc]
  | pgProg | blkErase | nandId => exact hchip

/-- Settles O19: check 5 is a payload length, the flags, and the fields of the kind. -/
theorem requestFormIsWhatItsKindCallsFor : Obligations.RequestFormIsWhatItsKindCallsFor := by
  intro d
  have hsectors : 1 ≤ (at8 d 7).toNat ↔ at8 d 7 ≠ 0 := by
    rw [Nat.one_le_iff_ne_zero, ne_eq, ne_eq, ← BitVec.toNat_inj]
    rfl
  refine ⟨?_, ?_, ?_, ?_, ?_, ?_, ?_, ?_, ?_⟩ <;> rw [wellFormed_readRequest, flagsOk_readRequest]
  · simp [Request.sizeOk, readRequest]
  · simp [Request.sizeOk, readRequest]
    omega
  · simp [Request.sizeOk, readRequest]
  · simp [Request.sizeOk, readRequest]
  · simp [Request.sizeOk, readRequest]
  · simp only [hsectors]
    simp [Request.sizeOk, readRequest]
  · simp [Request.sizeOk, readRequest]
  · simp [Request.sizeOk, readRequest]
  · simp [Request.sizeOk, readRequest]

/-! ### The window decode -/

/-- The addresses that an enabled window holds (R29). -/
theorem Window.covers_iff (w : Window) (a : Nat) :
    w.covers a = true ↔ w.enabled = true ∧ w.base ≤ a ∧ a < w.base + w.size := by
  simp [Window.covers, and_assoc]

theorem Rights.allows_iff (r : Rights) (k : ReqKind) :
    r.allows k = true ↔ r = .read ∧ k.changes = false ∨ r = .readWrite := by
  cases r <;> simp [Rights.allows]

/-- Two windows that hold the same address overlap (R34). -/
theorem Window.overlaps_of_covers {x y : Window} {a : Nat} (hx : x.covers a = true) (hy : y.covers a = true) :
    x.overlaps y = true := by
  rw [Window.covers_iff] at hx hy
  obtain ⟨hxe, hxl, hxh⟩ := hx
  obtain ⟨hye, hyl, hyh⟩ := hy
  unfold Window.overlaps
  simp only [hxe, hye, Bool.true_and, Bool.and_eq_true, decide_eq_true_eq]
  omega

/-- Windows apart hold an address at most once, so that the search finds the one that holds it (R39). -/
theorem find?_covers {l : List Window} (h : l.Pairwise Window.Apart) {w : Window} {a : Nat} (hw : w ∈ l)
    (hc : w.covers a = true) : l.find? (fun w => w.covers a) = some w := by
  induction l with
  | nil => cases hw
  | cons x l ih =>
    obtain ⟨hx, hl⟩ := List.pairwise_cons.1 h
    rcases List.mem_cons.1 hw with rfl | hw
    · exact List.find?_cons_of_pos hc
    · have hxc : ¬x.covers a = true := fun hxc => by
        have := hx w hw
        unfold Window.Apart at this
        rw [Window.overlaps_of_covers hxc hc] at this
        cases this
      exact (List.find?_cons_of_neg (p := fun w : Window => w.covers a) hxc).trans (ih hl hw)

/-- An enabled window of the table has a target (R32). -/
theorem State.WindowLaw.target {s : State} (h : s.WindowLaw) {w : Window} (hw : w ∈ s.windows) (he : w.enabled = true) :
    ∃ k, w.target = some k := by
  obtain ⟨-, hform, -⟩ := h
  rcases hform w hw with rfl | ⟨-, -, -, -, -, ht⟩
  · cases he
  · exact Option.isSome_iff_exists.1 ht

/-- Settles O20: the windows are apart, so that the search finds the window that holds the address, and the tests follow. -/
theorem windowDecodeSearchesBoundsAndRights : Obligations.WindowDecodeSearchesBoundsAndRights := by
  intro s p q hlaw
  refine ⟨fun hnone => ?_, fun w hw hholds => ?_⟩
  · have : s.windows.find? (fun w => w.covers q.address) = none :=
      List.find?_eq_none.2 fun w hw hc => hnone w hw ((w.covers_iff q.address).1 hc)
    unfold State.decodeWindow
    rw [this]
  · obtain ⟨k, hk⟩ := hlaw.target hw hholds.1
    have hfind := find?_covers hlaw.2.2 hw ((w.covers_iff q.address).2 hholds)
    have hallows := (w.rights.get p).allows_iff q.kind
    unfold State.decodeWindow
    rw [hfind]
    dsimp only
    refine ⟨fun hb => if_pos hb, fun hb => ⟨fun hr => ?_, fun hr => ⟨k, hk, ?_⟩⟩⟩
    · rw [if_neg (Nat.not_lt.2 hb), if_neg (hallows.not.2 hr)]
    · rw [if_neg (Nat.not_lt.2 hb), if_pos (hallows.2 hr), hk]

/-! ### The tests of a NAND target -/

/-- READ allows a NAND kind other than PG-PROG and BLK-ERASE, READ-WRITE allows each (R11). -/
theorem Profile.allows_iff (f : Profile) (p : Port) {k : ReqKind} (hk : k.isNand = true) :
    f.allows p k = true ↔ f.rights.get p = .readWrite ∨ f.rights.get p = .read ∧ ¬(k = .pgProg ∨ k = .blkErase) := by
  have hchanges : k.changes = false ↔ ¬(k = .pgProg ∨ k = .blkErase) := by
    revert hk
    cases k <;> decide
  unfold Profile.allows
  rw [Rights.allows_iff, hchanges, or_comm]

/-- Only the fields that the kind uses are tested against the device (R11). -/
theorem Profile.inDevice_iff (f : Profile) (q : Request) (hk : q.kind.isNand = true) :
    f.inDevice q = true ↔ (q.kind ≠ .nandId → q.block < f.blockCount) ∧
      (q.kind = .pgRead ∨ q.kind = .pgProg → q.page < f.pagesPerBlock) ∧
      (q.kind = .pgRead → q.firstSector + q.sectorCount ≤ f.pageSize / 512) := by
  unfold Profile.inDevice Profile.sectors
  cases h : q.kind <;> simp_all [ReqKind.isNand, and_assoc]

theorem length_frameSpare (m : EccMode) (raw : Bool) :
    (frameSpare m raw).length = if raw then 16 else match m with | .none => 16 | .h1 => 13 | .b8 => 2 := by
  cases raw <;> cases m <;> rfl

theorem Profile.programSizeOk_iff (f : Profile) (q : Request) :
    f.programSizeOk q = true ↔ (q.kind = .pgProg → q.size = 8 + f.pageSize / 512 *
      (512 + if q.raw then 16 else match f.ecc with | .none => 16 | .h1 => 13 | .b8 => 2)) := by
  unfold Profile.programSizeOk sectorFrameBytes Profile.sectors
  rw [length_frameSpare]
  by_cases h : q.kind = .pgProg <;> simp [h]

/-- Settles O21: `nandTarget` makes the tests in this order, each of them read off the profile. -/
theorem nandTargetIsTestedInTurn : Obligations.NandTargetIsTestedInTurn := by
  intro s p q c hc hk
  have hrights := (s.profile c).allows_iff p hk
  have hdevice := (s.profile c).inDevice_iff q hk
  have hsize := (s.profile c).programSizeOk_iff q
  have htarget : s.target p q = s.nandTarget p q := if_pos hk
  unfold State.nandTarget at htarget
  rw [hc] at htarget
  dsimp only at htarget
  rw [htarget]
  refine ⟨fun ht => if_pos ht, fun ht => ⟨fun hr => ?_, fun hr => ⟨fun hi => ?_, fun hi => ?_⟩⟩⟩
  · rw [if_neg (not_not.2 ht), if_pos (Bool.eq_false_iff.2 (hrights.not.2 hr))]
  · rw [if_neg (not_not.2 ht), if_neg (by simp [hrights.2 hr])]
    split
    · rfl
    · next hin =>
      have hin := hdevice.1 (by simpa using hin)
      rw [if_pos (Bool.eq_false_iff.2 (hsize.not.2 fun hz => hi ⟨hin, hz⟩))]
  · rw [if_neg (not_not.2 ht), if_neg (by simp [hrights.2 hr]), if_neg (by simp [hdevice.2 hi.1]),
      if_neg (by simp [hsize.2 hi.2])]
    exact ⟨fun hl => if_pos hl, fun hl => if_neg hl⟩

end Sys2Proof.Machine
end

section
/-! An entry joins its slot's queue (R5, R16, R58), and an admitted request becomes an entry, HELD behind a fence or QUEUED at
the tail of its slot's queue (R5, R15). -/
namespace Sys2Proof.Machine

/-- An entry is fenced by an older unfinished one where either is ORDERED (R15). -/
theorem fencedBy_iff (older : List Entry) (ordered : Bool) :
    fencedBy older ordered = true ↔ ∃ o ∈ older, (o.state = .held ∨ o.state = .queued ∨ o.state = .active) ∧
      (ordered = true ∨ o.ordered = true) := by
  have hstate : ∀ x : EntryState, x.unfinished = true ↔ x = .held ∨ x = .queued ∨ x = .active := by
    intro x
    cases x <;> simp [EntryState.unfinished]
  simp [fencedBy, List.any_eq_true, hstate]

/-! ### An entry joins its queue -/

/-- The state with a port's entries replaced and an entry's name at the tail of a queue. -/
def State.placed (s : State) (r : Ref) (k : Slot) (es : List Entry) : State :=
  { s with
    table := s.table.set r.port es
    arbiter := { s.arbiter with queues := s.arbiter.queues.set k (s.queue k ++ [r]) } }

/-- What of a queue's new head is completed with RETIRED at once (R123). -/
def State.RetiresAlone (s : State) (c : Chip) (e : Entry) : Prop :=
  s.queue (.chip c) = [] ∧ (s.profile c).type = .nand ∧ (s.context c).state = .idle ∧ s.health.get c = .ok ∧
    (e.kind = .pgProg ∨ e.kind = .blkErase) ∧ e.block ∈ s.retired.get c

/-- The examination of a queue's head, read off its entry (R123). -/
theorem State.retiredHead_of_head {s : State} {c : Chip} {r : Ref} {rest : List Ref} {e : Entry}
    (hq : s.queue (.chip c) = r :: rest) (he : s.find r = some e) :
    s.retiredHead c =
      if ((s.profile c).type = .nand ∧ (s.context c).state = .idle ∧ s.health.get c = .ok) ∧
        (e.kind = .pgProg ∨ e.kind = .blkErase) ∧ e.block ∈ s.retired.get c then some r else none := by
  unfold State.retiredHead
  rw [hq]
  dsimp only
  rw [he]
  dsimp only
  split
  · next h => simp only [h, true_and]
  · next h => simp only [h, false_and, if_false]

section
variable {s : State} {r : Ref} {e : Entry} {older younger : List Entry} (hs : s.entries r.port = older ++ e :: younger)
  (he : e.tag = r.tag) (ho : ∀ x ∈ older, x.tag ≠ r.tag) (hy : ∀ x ∈ younger, x.tag ≠ r.tag)
include hs he ho hy

theorem State.updateEntry_setQueue (k : Slot) (f : Entry → Entry) :
    (s.setQueue k (s.queue k ++ [r])).updateEntry r f = s.placed r k (older ++ f e :: younger) := by
  rw [State.updateEntry_of_split (s := s.setQueue k (s.queue k ++ [r])) hs he ho hy]
  rfl

/-- On SD the joined entry has a bypass count of 0 and the engine takes the join (R98, R100, R111). -/
theorem State.join_sd : s.join r .sd =
    { s.placed r .sd (older ++ { e with state := .queued, bypass := some 0 } :: younger) with
      sdram := s.sdram.joined s.now } := by
  unfold State.join
  dsimp only
  rw [State.updateEntry_setQueue hs he ho hy .sd fun e => { e with state := .queued, bypass := some 0 }]
  rfl

omit hs hy in
/-- The joined entry is what its name finds. -/
theorem State.find_placed (k : Slot) {y : Entry} (hye : y.tag = e.tag) :
    (s.placed r k (older ++ y :: younger)).find r = some y := by
  have hentries : (s.placed r k (older ++ y :: younger)).entries r.port = older ++ y :: younger :=
    (State.entries_setEntries s r.port r.port _).trans (if_pos rfl)
  rw [State.find, hentries, List.find?_append, List.find?_eq_none.2 (by simpa using ho), Option.none_or]
  exact List.find?_cons_of_pos (by simp [hye, he])

omit hs hy in
/-- The joined entry is the retired head exactly where it is alone in its queue and its block is listed. -/
theorem State.retiredHead_placed (c : Chip) (hempty : s.queue (.chip c) = []) :
    (s.RetiresAlone c e →
      (s.placed r (.chip c) (older ++ { e with state := .queued } :: younger)).retiredHead c = some r) ∧
    (¬s.RetiresAlone c e →
      (s.placed r (.chip c) (older ++ { e with state := .queued } :: younger)).retiredHead c = none) := by
  have hqueue : (s.placed r (.chip c) (older ++ { e with state := .queued } :: younger)).queue (.chip c) = [r] := by
    have : (s.placed r (.chip c) (older ++ { e with state := .queued } :: younger)).queue (.chip c) =
        s.queue (.chip c) ++ [r] := (State.queue_setQueue s (.chip c) (.chip c) _).trans (if_pos rfl)
    rw [this, hempty]
    rfl
  rw [State.retiredHead_of_head hqueue (State.find_placed he ho (.chip c) rfl)]
  refine ⟨fun ⟨_, ht, hi, hh, hk⟩ => if_pos ⟨⟨ht, hi, hh⟩, hk⟩, fun h => if_neg fun ⟨⟨ht, hi, hh⟩, hk⟩ => h ?_⟩
  exact ⟨hempty, ht, hi, hh, hk⟩

/-- A new head of a NAND queue with its block listed is retired at once (R123). -/
theorem State.join_chip_retires {c : Chip} (h : s.RetiresAlone c e) : s.join r (.chip c) =
    (s.placed r (.chip c) (older ++ { e with state := .queued } :: younger)).retireHead c r := by
  unfold State.join
  dsimp only
  rw [State.updateEntry_setQueue hs he ho hy (.chip c) fun e => { e with state := .queued },
    (State.retiredHead_placed he ho c h.1).1 h, h.1]
  rfl

/-- Any other entry waits at the tail of its queue on a static or NAND slot (R58). -/
theorem State.join_chip_waits {c : Chip} (h : ¬s.RetiresAlone c e) :
    s.join r (.chip c) = s.placed r (.chip c) (older ++ { e with state := .queued } :: younger) := by
  unfold State.join
  dsimp only
  rw [State.updateEntry_setQueue hs he ho hy (.chip c) fun e => { e with state := .queued }]
  split
  · next hempty hr =>
    rw [(State.retiredHead_placed he ho c (List.isEmpty_iff.1 hempty)).2 h] at hr
    cases hr
  · rfl

end

/-! ### Creation -/

/-- The pool after an admitted entry has claimed its segments and its data are placed (R45, R48, R50). -/
def State.claimed (s : State) (e : Entry) (data : List Byte) : Pool :=
  { free := s.pool.free.drop e.segments.length
    holding := s.pool.holding.set e.port (s.pool.holding.get e.port + e.segments.length)
    bytes := placeData s.pool.bytes e data }

/-- The state with a new entry QUEUED at the tail of its slot's queue (R5, R58, R98, R100, R111). -/
def State.queuedLast (s : State) (e : Entry) (data : List Byte) : State :=
  { s with
    table := s.table.set e.port
      (s.entries e.port ++ [{ e with state := .queued, bypass := if e.slot = .sd then some 0 else e.bypass }])
    pool := s.claimed e data
    arbiter := { s.arbiter with queues := s.arbiter.queues.set e.slot (s.queue e.slot ++ [e.ref]) }
    sdram := if e.slot = .sd then s.sdram.joined s.now else s.sdram }

/-- A fenced request is HELD (R5, R15). -/
theorem State.create_fenced {s : State} {e : Entry} (data : List Byte)
    (h : fencedBy (s.entries e.port) e.ordered = true) : s.create e data =
      { s with table := s.table.set e.port (s.entries e.port ++ [e]), pool := s.claimed e data } := by
  rw [State.create_eq, if_pos h]
  rfl

/-- Any other joins its queue, where it stays unless a head examination retires it (R5, R58, R123). -/
theorem State.create_unfenced {s : State} {e : Entry} (data : List Byte) (hfresh : ∀ x ∈ s.entries e.port, x.tag ≠ e.tag)
    (h : fencedBy (s.entries e.port) e.ordered = false) (hlive : ∀ c, e.slot = .chip c → ¬s.RetiresAlone c e) :
    s.create e data = s.queuedLast e data := by
  have hentries : (s.appended e data).entries e.ref.port = s.entries e.port ++ [e] :=
    (s.entries_appended e data e.port).trans (if_pos rfl)
  have hplaced : ∀ k y, (s.appended e data).placed e.ref k (s.entries e.port ++ [y]) =
      { s with
        table := s.table.set e.port (s.entries e.port ++ [y])
        pool := s.claimed e data
        arbiter := { s.arbiter with queues := s.arbiter.queues.set k (s.queue k ++ [e.ref]) } } := fun k y => by
    simp [State.placed, State.appended, State.claimed, Pool.claim, Entry.ref, State.queue]
  rw [State.create_eq, if_neg (by simp [h])]
  unfold State.queuedLast
  cases hslot : e.slot with
  | sd =>
    rw [State.join_sd hentries rfl hfresh (by simp), hplaced]
    simp [hslot, State.appended]
  | chip c =>
    rw [State.join_chip_waits hentries rfl hfresh (by simp) (hlive c hslot), hplaced]
    simp [hslot]

/-- An admitted request frame creates its entry (R5, R8). -/
theorem exec_admitted {s : State} {p : Port} {seq : Byte} {d : List Byte} {k : ReqKind} {slot : Slot} {offset : Nat}
    (ht : s.Takes p k.code seq d) (hs : s.Serves p) (hd : 2 ≤ d.length)
    (ha : s.Admits p (readRequest k d) slot offset) : exec (requestOf k p seq d) s =
      .next ((s.takeFrame p seq).create (s.admitted p (readRequest k d) slot offset) (d.drop 8)).settle := by
  rw [exec_request ht hs hd, State.admitRequest, State.judge_takeFrame, ha.judge]
  rfl

/-- A request whose tag no live entry of the port carries. -/
theorem State.fresh_of_not_mem {s : State} {p : Port} {tag : Byte} (h : tag ∉ (s.entries p).map Entry.tag) :
    ∀ x ∈ s.entries p, x.tag ≠ tag := fun _ hx hxt => h (List.mem_map.2 ⟨_, hx, hxt⟩)

/-- What an admitted request leaves: HELD behind a fence, QUEUED otherwise, with the rest as taking the frame left it. -/
theorem exec_admitted_cases {s : State} {p : Port} {seq : Byte} {d : List Byte} {k : ReqKind} {slot : Slot} {offset : Nat}
    (ht : s.Takes p k.code seq d) (hs : s.Serves p) (hd : 2 ≤ d.length)
    (ha : s.Admits p (readRequest k d) slot offset)
    (hlive : ∀ c, slot = .chip c → ¬s.RetiresAlone c (s.admitted p (readRequest k d) slot offset)) :
    let e := s.admitted p (readRequest k d) slot offset
    let u := s.takeFrame p seq
    (fencedBy (s.entries p) e.ordered = true → exec (requestOf k p seq d) s =
      .next ({ u with table := s.table.set p (s.entries p ++ [e]), pool := s.claimed e (d.drop 8) } : State).settle) ∧
    (fencedBy (s.entries p) e.ordered = false → exec (requestOf k p seq d) s = .next ({ u with
      table := s.table.set p
        (s.entries p ++ [{ e with state := .queued, bypass := if slot = .sd then some 0 else none }])
      pool := s.claimed e (d.drop 8)
      arbiter := { s.arbiter with queues := s.arbiter.queues.set slot (s.queue slot ++ [⟨p, at8 d 0⟩]) }
      sdram := if slot = .sd then s.sdram.joined s.now else s.sdram } : State).settle) := by
  intro e u
  have hrow := exec_admitted ht hs hd ha
  have hu : u = { s with ports := u.ports, notices := u.notices } := s.takeFrame_only p seq
  have hentries : u.entries e.port = s.entries p := State.entries_of_table (s.takeFrame_table p seq) p
  refine ⟨fun hf => ?_, fun hf => ?_⟩
  · rw [hrow, State.create_fenced (s := u) (e := e) (d.drop 8) (by rw [hentries]; exact hf)]
    rw [hu]
    rfl
  · rw [hrow, State.create_unfenced (s := u) (e := e) (d.drop 8) (by rw [hentries]; exact ha.tagFree)
      (by rw [hentries]; exact hf) (by rw [hu]; exact hlive)]
    rw [hu]
    rfl

end Sys2Proof.Machine
end

section
/-! The entry of an admitted window kind (R1, R2, R5, R44, R48). -/
namespace Sys2Proof.Machine

theorem ReqKind.not_retires_of_window {k : ReqKind} (h : k.isNand = false) : ¬(k = .pgProg ∨ k = .blkErase) := fun hk => by
  rw [isNand_of_retires hk] at h
  cases h

/-- The segment need of a window kind: one per started 256 bytes, and one for an atomic (R44). -/
theorem segmentNeed_window {q : Request} (h : q.kind.isNand = false) (sectors : Nat) :
    segmentNeed q sectors = if q.kind.isAtomic then 1 else (q.length + 255) / 256 := by
  unfold segmentNeed
  cases hq : q.kind <;> simp_all [ReqKind.isNand, ReqKind.isAtomic, ceilDiv]

/-- The fields of a window kind's entry (R5). -/
theorem newEntry_window {p : Port} {q : Request} {slot : Slot} {offset sectors : Nat} {ecc : EccMode} {segments : List Nat}
    (h : q.kind.isNand = false) : newEntry p q slot offset sectors ecc segments =
      { tag := q.tag, port := p, kind := q.kind, ordered := q.ordered, raw := q.raw, slot := slot, offset := offset
        length := q.length, page := 0, block := 0, firstSector := 0, sectorCount := 0, ecc := .none
        compare := if q.kind = .cset then q.compare else 0, operand := if q.kind.isAtomic then q.operand else 0
        segments := segments, progress := none, bypass := none, state := .held, status := none, sectors := [] } := by
  have hread : q.kind ≠ .pgRead := fun hq => by simp [hq, ReqKind.isNand] at h
  have hprog : q.kind ≠ .pgProg := fun hq => by simp [hq, ReqKind.isNand] at h
  simp [newEntry, h, hread, hprog]

/-- A WRITE's data go to its segments, and no other window kind brings data (R48). -/
theorem placeData_window {e : Entry} (h : e.kind.isNand = false) (m : List Host.Cell) (data : List Byte) :
    placeData m e data = if e.kind = .write then stagingWrite m e.segments 0 data else m := by
  unfold placeData
  cases hk : e.kind <;> simp_all [ReqKind.isNand]

/-- Settles O22: the request is admitted, and its creation is read off the window kind's entry. -/
theorem windowRequestBecomesAnEntry : Obligations.WindowRequestBecomesAnEntry := by
  intro s p seq d k slot offset q n hk ht hs hd hroom htag hformed htarget hnor hhealthy hclaim u fenced e bytes pool
  have hneed : segmentNeed q (s.profileOf slot).sectors = n := segmentNeed_window hk _
  have ha : s.Admits p q slot offset :=
    ⟨hroom, State.fresh_of_not_mem htag, hformed, (if_neg (by rw [show q.kind = k from rfl, hk]; simp)).trans htarget,
      hnor, hhealthy, hneed ▸ hclaim⟩
  have he : s.admitted p q slot offset = e := by
    unfold State.admitted
    rw [hneed, newEntry_window hk]
    rfl
  have hpool : s.claimed e (d.drop 8) = pool := by
    have hlen : e.segments.length = n := length_take_of_canClaim hclaim
    unfold State.claimed
    rw [hlen, placeData_window hk]
  obtain ⟨hheld, hqueued⟩ := exec_admitted_cases ht hs hd ha fun c _ ⟨_, _, _, _, hret, _⟩ =>
    ReqKind.not_retires_of_window hk hret
  rw [he, hpool] at hheld hqueued
  have hfenced : fencedBy (s.entries p) e.ordered = true ↔ fenced := fencedBy_iff _ _
  exact ⟨fun hf => hheld (hfenced.2 hf), fun hf => hqueued (Bool.eq_false_iff.2 (hfenced.not.2 hf))⟩

end Sys2Proof.Machine
end

section
/-! The staging area of an entry's segments as bytes by number (R47), and what the layout of a PG-PROG's sectors puts where
(R50). -/
namespace Sys2Proof.Machine

/-! ### Bytes of a frame -/

theorem at8_drop (d : List Byte) (n i : Nat) : at8 (d.drop n) i = at8 d (n + i) := by
  simp [at8, List.getElem?_drop]

theorem at8_take (d : List Byte) {n i : Nat} (h : i < n) : at8 (d.take n) i = at8 d i := by
  simp [at8, h]

theorem at8_cons_succ (b : Byte) (d : List Byte) (i : Nat) : at8 (b :: d) (i + 1) = at8 d i := by simp [at8]

/-! ### Cells of an area -/

theorem stagingCell_eq_some {segments : List Nat} {j a : Nat} (h : stagingCell segments j = some a) :
    ∃ n, segments[j / 256]? = some n ∧ a = n * 256 + j % 256 := by
  obtain ⟨n, hn, rfl⟩ := Option.map_eq_some_iff.1 h
  exact ⟨n, hn, rfl⟩

/-- Every byte of the area has a cell (R47). -/
theorem stagingCell_isSome {segments : List Nat} {j : Nat} (h : j < 256 * segments.length) :
    ∃ a, stagingCell segments j = some a := by
  have hj : j / 256 < segments.length := by omega
  exact ⟨_, by rw [stagingCell, List.getElem?_eq_getElem hj]; rfl⟩

/-- Distinct segments give distinct cells (R47). -/
theorem stagingCell_injective {segments : List Nat} (hn : segments.Nodup) {i j a : Nat}
    (hi : stagingCell segments i = some a) (hj : stagingCell segments j = some a) : i = j := by
  obtain ⟨m, hm, ha⟩ := stagingCell_eq_some hi
  obtain ⟨n, hn', hb⟩ := stagingCell_eq_some hj
  obtain rfl : m = n := by omega
  obtain ⟨hlt, hget⟩ := List.getElem?_eq_some_iff.1 hm
  obtain ⟨hlt', hget'⟩ := List.getElem?_eq_some_iff.1 hn'
  have := (hn.getElem_inj_iff (hi := hlt) (hj := hlt')).1 (hget.trans hget'.symm)
  omega

/-- One byte written to its cell. -/
theorem stagingRead_write {segments : List Nat} (hn : segments.Nodup) {m : List Host.Cell} (hm : Memory.wf m = true)
    {j a : Nat} (ha : stagingCell segments j = some a) (b : Byte) (i : Nat) :
    stagingRead (Memory.write m a b) segments i = if i = j then b else stagingRead m segments i := by
  unfold stagingRead
  split
  · next x hx =>
    rw [Memory.read_write hm]
    split
    · next hxa =>
      rw [if_pos (stagingCell_injective hn (hxa ▸ hx) ha)]
    · next hxa =>
      rw [if_neg fun hij : i = j => hxa (Option.some.inj (hx.symm.trans (hij ▸ ha)))]
  · next hx =>
    rw [if_neg fun hij : i = j => by simp [hij, ha] at hx]

/-- Bytes written to the area are read back, and every other byte of the area reads as before (R47, R49). -/
theorem stagingRead_stagingWrite {segments : List Nat} (hn : segments.Nodup) (i : Nat) :
    ∀ (bytes : List Byte) {m : List Host.Cell} {j : Nat}, Memory.wf m = true → j + bytes.length ≤ 256 * segments.length →
      stagingRead (stagingWrite m segments j bytes) segments i =
        if j ≤ i ∧ i < j + bytes.length then at8 bytes (i - j) else stagingRead m segments i
  | [], m, j, _, _ => by
    rw [if_neg (by simp)]
    rfl
  | b :: bs, m, j, hm, hlen => by
    rw [List.length_cons] at hlen ⊢
    obtain ⟨a, ha⟩ := stagingCell_isSome (segments := segments) (j := j) (by omega)
    have hwrite : stagingWrite m segments j (b :: bs) = stagingWrite (Memory.write m a b) segments (j + 1) bs := by
      rw [stagingWrite, ha]
    rw [hwrite, stagingRead_stagingWrite hn i bs (Memory.wf_write a b hm) (by omega), stagingRead_write hn hm ha]
    by_cases hij : i = j
    · subst hij
      rw [if_neg (by omega), if_pos rfl, if_pos (by omega), Nat.sub_self]
      rfl
    · by_cases hr : j + 1 ≤ i ∧ i < j + 1 + bs.length
      · rw [if_pos hr, if_pos (by omega), show i - j = i - (j + 1) + 1 by omega, at8_cons_succ]
      · rw [if_neg hr, if_neg hij, if_neg (by omega)]

/-- A segment that the area does not hold keeps its bytes (R47). -/
theorem read_stagingWrite_elsewhere {segments : List Nat} {g i : Nat} (hg : g ∉ segments) (hi : i < 256)
    {m : List Host.Cell} (hm : Memory.wf m = true) (j : Nat) (bytes : List Byte) :
    Memory.read (stagingWrite m segments j bytes) (g * 256 + i) = Memory.read m (g * 256 + i) := by
  refine stagingWrite_frame segments _ bytes m j hm fun x _ hx => hg ?_
  obtain ⟨n, hn, ha⟩ := stagingCell_eq_some hx
  obtain rfl : g = n := by omega
  exact List.mem_of_getElem? hn

/-! ### The sectors of a PG-PROG -/

section
variable {segments : List Nat} (hn : segments.Nodup)

theorem read_stageSpare_elsewhere {g i : Nat} (hg : g ∉ segments) (hi : i < 256) (base : Nat) :
    ∀ (is : List Nat) (bs : List Byte) {m : List Host.Cell}, Memory.wf m = true →
      Memory.read (stageSpare m segments base is bs) (g * 256 + i) = Memory.read m (g * 256 + i)
  | [], _, _, _ => rfl
  | _ :: _, [], _, _ => rfl
  | _ :: is, _ :: bs, _, hm =>
    (read_stageSpare_elsewhere hg hi base is bs (stagingWrite_wf segments _ _ _ hm)).trans
      (read_stagingWrite_elsewhere hg hi hm _ _)

theorem read_stageSectors_elsewhere {g i : Nat} (hg : g ∉ segments) (hi : i < 256) (spare : List Nat) :
    ∀ (n k : Nat) (d : List Byte) {m : List Host.Cell}, Memory.wf m = true →
      Memory.read (stageSectors m segments spare k n d) (g * 256 + i) = Memory.read m (g * 256 + i)
  | 0, _, _, _, _ => rfl
  | n + 1, k, _, _, hm =>
    (read_stageSectors_elsewhere hg hi spare n (k + 1) _ (stageSector_wf segments spare k _ hm)).trans
      ((read_stageSpare_elsewhere hg hi _ spare _ (stagingWrite_wf segments _ _ _ hm)).trans
        (read_stagingWrite_elsewhere hg hi hm _ _))

include hn in
/-- Bytes placed one by one at the positions listed, and the other bytes of the area left (R50). -/
theorem stagingRead_stageSpare (base : Nat) :
    ∀ (is : List Nat) (bs : List Byte) {m : List Host.Cell}, Memory.wf m = true → is.Nodup → is.length = bs.length →
      (∀ i ∈ is, base + i < 256 * segments.length) →
      (∀ j i, is[j]? = some i → stagingRead (stageSpare m segments base is bs) segments (base + i) = at8 bs j) ∧
        ∀ x, (∀ i ∈ is, x ≠ base + i) → stagingRead (stageSpare m segments base is bs) segments x = stagingRead m segments x
  | [], _, _, _, _, _, _ => ⟨fun j i h => by simp at h, fun _ _ => rfl⟩
  | _ :: _, [], _, _, _, h, _ => by simp at h
  | i₀ :: is, b :: bs, m, hm, hnodup, hlen, hin => by
    obtain ⟨hout, hnodup⟩ := List.nodup_cons.1 hnodup
    have hin₀ := hin i₀ (List.mem_cons_self ..)
    have hone : ∀ x, stagingRead (stagingWrite m segments (base + i₀) [b]) segments x =
        if x = base + i₀ then b else stagingRead m segments x := fun x => by
      rw [stagingRead_stagingWrite hn x [b] hm (by simpa using hin₀)]
      by_cases hx : x = base + i₀
      · subst hx
        simp [at8]
      · rw [if_neg hx, if_neg (by simp; omega)]
    obtain ⟨hat, hrest⟩ := stagingRead_stageSpare base is bs (stagingWrite_wf segments [b] m (base + i₀) hm) hnodup
      (by simpa using hlen) fun i hi => hin i (List.mem_cons_of_mem _ hi)
    refine ⟨fun j i h => ?_, fun x hx => ?_⟩
    · cases j with
      | zero =>
        obtain rfl : i₀ = i := by simpa using h
        refine (hrest _ fun i hi hx => hout ?_).trans ((hone _).trans (if_pos rfl))
        rwa [Nat.add_left_cancel hx]
      | succ j => exact (hat j i (by simpa using h)).trans (at8_cons_succ b bs j).symm
    · exact (hrest x fun i hi => hx i (List.mem_cons_of_mem _ hi)).trans
        ((hone x).trans (if_neg (hx i₀ (List.mem_cons_self ..))))

variable {spare : List Nat} (hspare : spare.Nodup) (hbelow : ∀ i ∈ spare, i < 16)

include hn hspare hbelow in
/-- One sector: its data bytes, its host spare bytes, and every other byte of the area left (R50). -/
theorem stagingRead_stageSector {m : List Host.Cell} (hm : Memory.wf m = true) {k : Nat} {d : List Byte}
    (hd : d.length = 512 + spare.length) (hk : (k + 1) * 528 ≤ 256 * segments.length) :
    (∀ i < 512, stagingRead (stageSector m segments spare k d) segments (k * 528 + i) = at8 d i) ∧
    (∀ j i, spare[j]? = some i →
      stagingRead (stageSector m segments spare k d) segments (k * 528 + 512 + i) = at8 d (512 + j)) ∧
    ∀ x, x < k * 528 ∨ k * 528 + 512 ≤ x → (∀ i ∈ spare, x ≠ k * 528 + 512 + i) →
      stagingRead (stageSector m segments spare k d) segments x = stagingRead m segments x := by
  have hdata := fun x => stagingRead_stagingWrite hn x (d.take 512) (j := k * 528) hm
    (by rw [List.length_take]; omega)
  rw [List.length_take, Nat.min_eq_left (by omega)] at hdata
  obtain ⟨hat, hrest⟩ := stagingRead_stageSpare hn (k * 528 + 512) spare (d.drop 512)
    (stagingWrite_wf segments (d.take 512) m (k * 528) hm) hspare (by rw [List.length_drop]; omega)
    fun i hi => by have := hbelow i hi; omega
  refine ⟨fun i hi => ?_, fun j i hi => ?_, fun x hx hxs => ?_⟩
  · refine (hrest _ fun j _ => by omega).trans ((hdata _).trans ?_)
    rw [if_pos (by omega), Nat.add_sub_cancel_left, at8_take d hi]
  · exact (hat j i hi).trans (at8_drop d 512 j)
  · exact (hrest x hxs).trans ((hdata x).trans (if_neg (by omega)))

/-- One sector more: the first is placed and the rest follow it. -/
theorem stageSectors_succ (m : List Host.Cell) (k n : Nat) (d : List Byte) {w : Nat} (hw : 512 + spare.length = w) :
    stageSectors m segments spare k (n + 1) d =
      stageSectors (stageSector m segments spare k (d.take w)) segments spare (k + 1) n (d.drop w) := by
  rw [← hw, stageSectors]

include hn hspare hbelow in
/-- The sectors of a frame in order: each has its data and host spare bytes in its place, and every other byte of the area is
left (R50). -/
theorem stagingRead_stageSectors {w : Nat} (hw : 512 + spare.length = w) (n : Nat) :
    ∀ (k : Nat) (d : List Byte) {m : List Host.Cell}, Memory.wf m = true → d.length = n * w →
    (k + n) * 528 ≤ 256 * segments.length →
    (∀ x < n,
      (∀ i < 512, stagingRead (stageSectors m segments spare k n d) segments ((k + x) * 528 + i) = at8 d (x * w + i)) ∧
      ∀ j i, spare[j]? = some i →
        stagingRead (stageSectors m segments spare k n d) segments ((k + x) * 528 + 512 + i) = at8 d (x * w + 512 + j)) ∧
    ∀ x, (∀ y, k ≤ y → y < k + n → (x < y * 528 ∨ y * 528 + 512 ≤ x) ∧ ∀ i ∈ spare, x ≠ y * 528 + 512 + i) →
      stagingRead (stageSectors m segments spare k n d) segments x = stagingRead m segments x := by
  induction n with
  | zero => exact fun _ _ _ _ _ _ => ⟨fun x hx => absurd hx (Nat.not_lt_zero x), fun _ _ => rfl⟩
  | succ n ih =>
    intro k d m hm hd hk
    rw [Nat.succ_mul] at hd
    have hnext : (k + 1 + n) * 528 ≤ 256 * segments.length :=
      (Nat.le_of_eq (congrArg (· * 528) (Nat.add_right_comm k 1 n))).trans hk
    have hthis : (k + 1) * 528 ≤ 256 * segments.length :=
      (Nat.mul_le_mul_right 528 (Nat.le_add_right (k + 1) n)).trans hnext
    clear hk
    generalize hrestBytes : n * w = rest at hd
    have hsector := stageSector_wf segments spare k (d.take w) hm
    obtain ⟨hdata, hhost, hframe⟩ := stagingRead_stageSector hn hspare hbelow hm (k := k)
      (d := d.take w) (by rw [List.length_take]; omega) hthis
    obtain ⟨hlater, hrest⟩ := ih (k + 1) (d.drop w) hsector (by rw [List.length_drop, hrestBytes]; omega) hnext
    rw [stageSectors_succ m k n d hw]
    have hfirst : ∀ x, x < (k + 1) * 528 →
        stagingRead (stageSectors (stageSector m segments spare k (d.take w)) segments spare (k + 1) n (d.drop w)) segments x =
        stagingRead (stageSector m segments spare k (d.take w)) segments x := fun x hx =>
      hrest x fun y hy _ => ⟨.inl (hx.trans_le (Nat.mul_le_mul_right 528 hy)), fun i _ => by omega⟩
    have hplace : ∀ j i, spare[j]? = some i → j < spare.length ∧ i < 16 := fun j i hi =>
      ⟨(List.getElem?_eq_some_iff.1 hi).1, hbelow i (List.mem_of_getElem? hi)⟩
    refine ⟨fun x hx => ?_, fun x hx => ?_⟩
    · cases x with
      | zero =>
        refine ⟨fun i hi => ?_, fun j i hi => ?_⟩
        · rw [hfirst _ (by omega), Nat.add_zero, Nat.zero_mul, Nat.zero_add, hdata i hi, at8_take d (by omega)]
        · obtain ⟨hj, hi16⟩ := hplace j i hi
          rw [hfirst _ (by omega), Nat.zero_mul, Nat.zero_add, Nat.add_zero k, hhost j i hi, at8_take d (by omega)]
      | succ x =>
        obtain ⟨hlaterData, hlaterHost⟩ := hlater x (by omega)
        have hshift : k + (x + 1) = k + 1 + x := by omega
        have hskip : (x + 1) * w = w + x * w := by rw [Nat.succ_mul, Nat.add_comm]
        refine ⟨fun i hi => ?_, fun j i hi => ?_⟩
        · rw [hshift, hlaterData i hi, at8_drop, hskip, Nat.add_assoc]
        · rw [hshift, hlaterHost j i hi, at8_drop, hskip]
          congr 1
          omega
    · obtain ⟨hk', hks⟩ := hx k (Nat.le_refl k) (by omega)
      exact (hrest x fun y hy hyn => hx y (by omega) (by omega)).trans (hframe x hk' hks)

end

end Sys2Proof.Machine
end

section
/-! The entry of an admitted NAND kind (R3, R5, R44, R50). -/
namespace Sys2Proof.Machine

/-- The spare positions of a frame, by the mode (R146). -/
theorem frameSpare_eq (m : EccMode) (raw : Bool) : frameSpare m raw =
    if raw = true ∨ m = .none then List.range 16
    else if m = .h1 then [0, 1, 5, 6, 7, 8, 9, 10, 11, 12, 13, 14, 15] else [0, 1] := by
  cases raw <;> cases m <;> rfl

theorem frameSpare_nodup (m : EccMode) (raw : Bool) : (frameSpare m raw).Nodup := by
  cases raw <;> cases m <;> decide

theorem frameSpare_below (m : EccMode) (raw : Bool) : ∀ i ∈ frameSpare m raw, i < 16 := by
  cases raw <;> cases m <;> decide

/-- A PG-PROG's frame in the staging area: each sector in its place, the rest of the area as it was (R50). -/
theorem stagingRead_programData {m : List Host.Cell} {segments spare : List Nat} (hm : Memory.wf m = true)
    (hn : segments.Nodup) (hspare : spare.Nodup) (hbelow : ∀ i ∈ spare, i < 16) {count : Nat} {d : List Byte}
    (hlen : count * 528 ≤ 256 * segments.length) (hd : d.length = 8 + count * (512 + spare.length)) :
    (∀ x < count,
      (∀ i < 512, stagingRead (stageSectors m segments spare 0 count (d.drop 8)) segments (x * 528 + i) =
        at8 d (8 + x * (512 + spare.length) + i)) ∧
      (∀ j i, spare[j]? = some i →
        stagingRead (stageSectors m segments spare 0 count (d.drop 8)) segments (x * 528 + 512 + i) =
          at8 d (8 + x * (512 + spare.length) + 512 + j)) ∧
      ∀ i < 16, i ∉ spare → stagingRead (stageSectors m segments spare 0 count (d.drop 8)) segments (x * 528 + 512 + i) =
        stagingRead m segments (x * 528 + 512 + i)) ∧
    ∀ i, count * 528 ≤ i → stagingRead (stageSectors m segments spare 0 count (d.drop 8)) segments i =
      stagingRead m segments i := by
  generalize hw : 512 + spare.length = w at hd ⊢
  obtain ⟨hsectors, hrest⟩ := stagingRead_stageSectors hn hspare hbelow hw count 0 (d.drop 8) hm
    (by rw [List.length_drop, hd, Nat.add_sub_cancel_left]) (by rwa [Nat.zero_add])
  refine ⟨fun x hx => ?_, fun i hi => hrest i fun y _ hy => ?_⟩
  · obtain ⟨hdata, hhost⟩ := hsectors x hx
    rw [Nat.zero_add] at hdata hhost
    refine ⟨fun i hi => ?_, fun j i hi => ?_, fun i hi hout => hrest _ fun y _ _ => ⟨by omega, fun j hj => ?_⟩⟩
    · rw [hdata i hi, at8_drop, Nat.add_assoc]
    · rw [hhost j i hi, at8_drop, Nat.add_assoc, Nat.add_assoc, Nat.add_assoc]
    · have hj16 := hbelow j hj
      have hne : i ≠ j := fun hij => hout (hij ▸ hj)
      omega
  · have hy528 : (y + 1) * 528 ≤ count * 528 := Nat.mul_le_mul_right 528 (by omega)
    refine ⟨by omega, fun j hj => ?_⟩
    have hj16 := hbelow j hj
    omega

/-- The segment need of a NAND kind (R44). -/
theorem segmentNeed_nand {q : Request} (h : q.kind.isNand = true) (sectors : Nat) :
    segmentNeed q sectors = if q.kind = .nandId then 1 else
      ((if q.kind = .pgRead then q.sectorCount else if q.kind = .pgProg then sectors else 0) * 528 + 255) / 256 := by
  unfold segmentNeed
  cases hq : q.kind <;> simp_all [ReqKind.isNand, ceilDiv]

/-- The fields of a NAND kind's entry (R5). -/
theorem newEntry_nand {p : Port} {q : Request} {slot : Slot} {sectors : Nat} {ecc : EccMode} {segments : List Nat}
    (h : q.kind.isNand = true) : newEntry p q slot 0 sectors ecc segments =
      { tag := q.tag, port := p, kind := q.kind, ordered := q.ordered, raw := q.raw, slot := slot, offset := 0
        length := 0, page := if q.kind = .pgRead ∨ q.kind = .pgProg then q.page else 0
        block := if q.kind = .nandId then 0 else q.block, firstSector := if q.kind = .pgRead then q.firstSector else 0
        sectorCount := if q.kind = .pgRead then q.sectorCount else if q.kind = .pgProg then sectors else 0
        ecc := if q.kind = .pgRead ∨ q.kind = .pgProg then ecc else .none, compare := 0, operand := 0
        segments := segments, progress := none, bypass := none, state := .held, status := none, sectors := [] } := by
  have hcset : q.kind ≠ .cset := fun hq => by simp [hq, ReqKind.isNand] at h
  have hatomic : q.kind.isAtomic = false := by cases hq : q.kind <;> simp_all [ReqKind.isNand, ReqKind.isAtomic]
  simp [newEntry, h, hcset, hatomic]

/-- A PG-PROG's sectors are laid out in its segments, and no other NAND kind brings data (R50). -/
theorem placeData_nand {e : Entry} (h : e.kind.isNand = true) (m : List Host.Cell) (data : List Byte) :
    placeData m e data =
      if e.kind = .pgProg then stageSectors m e.segments (frameSpare e.ecc e.raw) 0 e.sectorCount data else m := by
  unfold placeData
  cases hk : e.kind <;> simp_all [ReqKind.isNand]

/-- Settles O23: the request is admitted, its creation is read off the NAND kind's entry, and the layout of a PG-PROG's
sectors off the staging area. -/
theorem nandRequestBecomesAnEntry : Obligations.NandRequestBecomesAnEntry := by
  intro s p seq d k c q f count n hk ht hs hd hroom htag hformed htarget hhealth hclaim u fenced paged e bytes pool
  have hkind : q.kind = k := rfl
  have hneed : segmentNeed q (s.profileOf (.chip c)).sectors = n := segmentNeed_nand hk _
  have hatomic : k.isAtomic = false := by cases k <;> simp_all [ReqKind.isNand, ReqKind.isAtomic]
  have ha : s.Admits p q (.chip c) 0 :=
    ⟨hroom, State.fresh_of_not_mem htag, hformed, htarget, fun h : k.isAtomic = true ∧ _ => by simp [hatomic] at h,
      by simp [State.healthy, hhealth], hneed ▸ hclaim⟩
  have hnand : s.nandTarget p q = .ok (.chip c, 0) := (if_pos hk).symm.trans htarget
  obtain ⟨c', -, hcc, -, -, -, -, hsize, hlisted⟩ := State.nandTarget_eq_ok hnand
  obtain rfl := Slot.chip.inj hcc
  have he : s.admitted p q (.chip c) 0 = e := by
    unfold State.admitted
    rw [hneed, newEntry_nand hk]
    rfl
  have hlen : e.segments.length = n := length_take_of_canClaim hclaim
  have hpool : s.claimed e (d.drop 8) = pool := by
    unfold State.claimed
    have hbytes : (if e.kind = .pgProg then stageSectors s.pool.bytes e.segments (frameSpare e.ecc e.raw) 0 e.sectorCount
        (d.drop 8) else s.pool.bytes) = bytes := by
      have hecc : k = .pgProg → e.ecc = f.ecc := fun h => if_pos (.inr h)
      by_cases hprog : k = .pgProg
      · rw [hecc hprog]
      · exact (if_neg hprog).trans (if_neg hprog).symm
    rw [hlen, placeData_nand hk, hbytes]
  obtain ⟨hheld, hqueued⟩ := exec_admitted_cases ht hs hd ha fun c' hc' ⟨_, _, _, _, hret, hblock⟩ => by
    obtain rfl := Slot.chip.inj hc'
    rw [he] at hret hblock
    have hid : k ≠ .nandId := by rcases hret with hret | hret <;> rw [show k = _ from hret] <;> decide
    exact hlisted ⟨hret, (if_neg hid : e.block = q.block) ▸ hblock⟩
  rw [he, hpool] at hheld hqueued
  rw [if_neg (by simp), if_neg (by simp), ← State.takeFrame_sdram s p seq] at hqueued
  have hfenced : fencedBy (s.entries p) e.ordered = true ↔ fenced := fencedBy_iff _ _
  refine ⟨fun hprog hlaw hwf => ?_, fun hf => hheld (hfenced.2 hf), fun hf => ?_⟩
  · have hspares : frameSpare f.ecc e.raw = _ := frameSpare_eq f.ecc e.raw
    have hcount : count = f.pageSize / 512 := by
      change (if k = .pgRead then _ else if k = .pgProg then _ else _) = _
      rw [hprog]
      rfl
    have hbytes : bytes = stageSectors s.pool.bytes e.segments (frameSpare f.ecc e.raw) 0 count (d.drop 8) := if_pos hprog
    have hneedn : n = (count * 528 + 255) / 256 := if_neg (by rw [hprog]; decide)
    have hlength : d.length = 8 + count * (512 + (frameSpare f.ecc e.raw).length) := by
      rw [hcount, length_frameSpare]
      exact ((s.profile c).programSizeOk_iff q).1 hsize hprog
    have hnodup : e.segments.Nodup := (hlaw.2.1.imp Nat.ne_of_lt).sublist (List.take_sublist _ _)
    obtain ⟨hsectors, hrest⟩ := stagingRead_programData hwf hnodup (frameSpare_nodup f.ecc e.raw)
      (frameSpare_below f.ecc e.raw) (by omega) hlength
    rw [hspares] at hbytes hlength hsectors hrest
    rw [hbytes]
    refine ⟨hlength, hsectors, hrest, fun g i hg hi => ?_⟩
    exact read_stageSectors_elsewhere hg hi _ count 0 _ hwf
  · exact hqueued (Bool.eq_false_iff.2 (hfenced.not.2 hf))

end Sys2Proof.Machine
end

section
/-! The end of an entry as one change of the state (R18, R24, R26, R52, R53). -/
namespace Sys2Proof.Machine

theorem releasedAtEnd_iff (k : ReqKind) (st : Status) :
    releasedAtEnd k st = true ↔ k = .write ∨ k = .pgProg ∨ st = .cancelled ∨ st = .flushed ∨ st = .slotStall := by
  simp [releasedAtEnd, or_assoc]

section
variable {s : State} {r : Ref} {e : Entry} {older younger : List Entry} (hfind : s.find r = some e)
  (hs : s.entries r.port = older ++ e :: younger) (ho : ∀ x ∈ older, x.tag ≠ r.tag) (hy : ∀ x ∈ younger, x.tag ≠ r.tag)
include hfind hs ho hy

/-- An ORPHANED entry leaves the table without a reply (R26). -/
theorem State.finish_orphaned (st : Status) (h : e.state = .orphaned) :
    s.finish r st = { s with
      table := s.table.set r.port (older ++ younger), pool := s.pool.release r.port e.segments } := by
  unfold State.finish
  rw [hfind]
  dsimp only
  rw [if_pos h, State.freeEntry_of_split hfind hs ho hy]

/-- Any other entry becomes REPLYING with the status, and its REPLY joins its port's ready list (R18, R24, R52, R53). -/
theorem State.finish_answered (st : Status) (h : e.state ≠ .orphaned) :
    s.finish r st = { s with
      table := s.table.set r.port (older ++
        { e with state := .replying, status := some st, segments := if releasedAtEnd e.kind st then [] else e.segments } ::
          younger)
      pool := if releasedAtEnd e.kind st then s.pool.release r.port e.segments else s.pool
      ports := s.ports.set r.port
        { s.port r.port with ready := (s.port r.port).ready ++ [.entryReply r.tag] } } := by
  unfold State.finish
  rw [hfind]
  dsimp only
  rw [if_neg h]
  split
  · rw [State.releaseSegments_of_split hfind hs ho hy,
      State.updateEntry_of_split (e := { e with segments := [] }) (older := older) (younger := younger) (by simp [State.entries])
        (State.find_tag hfind :) ho hy]
    simp [State.pushReady, State.setPort, State.setEntries, State.port]
  · rw [State.updateEntry_of_split hs (State.find_tag hfind) ho hy]
    simp [State.pushReady, State.setPort, State.setEntries, State.port]

end

/-- Settles O24: the entry stands at one place of its port's list, and both ends of it are changes at that place. -/
theorem finishedEntryIsAnsweredOnce : Obligations.FinishedEntryIsAnsweredOnce := by
  intro s r e st ht hfind released u
  obtain ⟨older, younger, hs, ho, hy⟩ := ht.split_of_find hfind
  refine ⟨fun h => ⟨older, younger, hs, ?_⟩, fun h => ⟨older, younger, hs, State.finish_orphaned hfind hs ho hy st h⟩⟩
  simp only [State.finish_answered hfind hs ho hy st h, releasedAtEnd_iff]
  rfl

end Sys2Proof.Machine
end

section
/-! The data of an entry's REPLY (R23, R50, R202). -/
namespace Sys2Proof.Machine

/-- The payload of an entry's REPLY is its tag, its status and its data (R202). -/
theorem State.itemPayload_entryReply {s : State} {p : Port} {tag : Byte} {e : Entry} {st : Status}
    (hfind : s.find ⟨p, tag⟩ = some e) (hst : e.status = some st) :
    s.itemPayload p (.entryReply tag) = (0x80, [tag, st.code] ++ s.replyData e st) := by
  unfold State.itemPayload
  dsimp only
  rw [hfind]
  dsimp only
  rw [hst]
  rfl

/-- The data of a sector and then its spare bytes, by the mode (R50). -/
theorem State.replySector_parts (s : State) (e : Entry) (k : Nat) :
    (s.replySector e k).take 512 = stagingRange s.pool.bytes e.segments (k * 528) 512 ∧
      (s.replySector e k).drop 512 =
        (frameSpare e.ecc e.raw).map (fun j => stagingRead s.pool.bytes e.segments (k * 528 + 512 + j)) := by
  have hlen : (stagingRange s.pool.bytes e.segments (k * 528) 512).length = 512 := length_stagingRange _ _ _ _
  unfold State.replySector
  exact ⟨List.take_left' hlen, List.drop_left' hlen⟩

section
variable (s : State) {e : Entry} {st : Status}

theorem State.replyData_read (hk : e.kind = .read) (hst : st = .ok ∨ st = .busTimeout) :
    s.replyData e st = leBytes 2 e.moved ++ stagingRange s.pool.bytes e.segments 0 e.moved := by
  unfold State.replyData
  rcases hst with rfl | rfl <;> rw [hk]

theorem State.replyData_write (hk : e.kind = .write) (hst : st = .ok ∨ st = .busTimeout) :
    s.replyData e st = leBytes 2 e.moved := by
  unfold State.replyData
  rcases hst with rfl | rfl <;> rw [hk]

theorem State.replyData_atomic
    (h : e.kind = .cset ∧ (st = .ok ∨ st = .cmpMiss) ∨ (e.kind = .swap ∨ e.kind = .fadd) ∧ st = .ok) :
    s.replyData e st = stagingRange s.pool.bytes e.segments 0 e.length := by
  unfold State.replyData
  rcases h with ⟨hk, rfl | rfl⟩ | ⟨hk | hk, rfl⟩ <;> rw [hk]

theorem State.replyData_pgRead (hk : e.kind = .pgRead) (hst : st = .ok ∨ st = .correctedHigh ∨ st = .eccFail) :
    s.replyData e st =
      e.sectors.map SectorResult.code ++ (List.range e.sectorCount).flatMap (fun k => s.replySector e k) := by
  unfold State.replyData
  rcases hst with rfl | rfl | rfl <;> rw [hk]

theorem State.replyData_nandId (hk : e.kind = .nandId) (hst : st = .ok) :
    s.replyData e st = stagingRange s.pool.bytes e.segments 0 8 := by
  unfold State.replyData
  rw [hst, hk]

/-- Kinds and statuses whose REPLY has no data (R23). -/
theorem State.replyData_none (h : e.kind = .pgProg ∨ e.kind = .blkErase ∨ st = .cancelled ∨ st = .flushed ∨
    st = .slotStall ∨ st = .retired ∨ st = .nandFail ∨ st = .nandTimeout ∨
    (e.kind = .cset ∨ e.kind = .swap ∨ e.kind = .fadd) ∧ st = .busTimeout) : s.replyData e st = [] := by
  unfold State.replyData
  rcases h with hk | hk | rfl | rfl | rfl | rfl | rfl | rfl | ⟨hk, rfl⟩
  case inl => simp only [hk]
  case inr.inl => simp only [hk]
  case inr.inr.inr.inr.inr.inr.inr.inr => rcases hk with hk | hk | hk <;> simp only [hk]
  all_goals cases e.kind <;> rfl

end

/-- Settles O27: the payload is the tag, the status and `replyData`, which goes by kind and status. -/
theorem replyDataFollowsKindAndStatus : Obligations.ReplyDataFollowsKindAndStatus := by
  intro s p tag e st hfind hst staged carries moved
  have hcarries : ∀ {data}, s.replyData e st = data → carries data := fun {data} h =>
    h ▸ State.itemPayload_entryReply hfind hst
  refine ⟨fun ⟨hk, h⟩ => hcarries (s.replyData_read hk h), fun ⟨hk, h⟩ => hcarries (s.replyData_write hk h),
    fun h => hcarries (s.replyData_atomic h), fun ⟨hk, h⟩ => ?_, fun ⟨hk, h⟩ => hcarries (s.replyData_nandId hk h),
    fun h => hcarries (s.replyData_none h)⟩
  refine ⟨(List.range e.sectorCount).map (fun k => s.replySector e k), by simp, hcarries ?_, fun i x hx => ?_⟩
  · rw [s.replyData_pgRead hk h, List.flatMap_def]
  · rw [List.getElem?_map] at hx
    obtain ⟨j, hj, rfl⟩ := Option.map_eq_some_iff.1 hx
    obtain ⟨-, rfl⟩ := List.getElem?_eq_some_iff.1 hj
    rw [List.getElem_range]
    exact s.replySector_parts e i

end Sys2Proof.Machine
end

section
/-! The evaluation of a port's fences (R15, R16): what one release does to the entries, and that it goes on until no HELD entry
can be released. -/
namespace Sys2Proof.Machine

/-! ### What a release does to the entries of its port -/

/-- The entries of one tag have become QUEUED or REPLYING, and the others are as they were. -/
def Relabels (tag : Byte) (es es' : List Entry) : Prop :=
  ∃ f : Entry → Entry, (∀ x, (f x).tag = x.tag ∧ ((f x).state = .queued ∨ (f x).state = .replying)) ∧
    es' = es.map (fun x => if x.tag = tag then f x else x)

/-- A change of one tag followed by a relabelling of the same. -/
theorem Relabels.after {tag : Byte} {g : Entry → Entry} (hg : ∀ x, (g x).tag = x.tag) {es es' : List Entry}
    (h : Relabels tag (es.map (fun x => if x.tag = tag then g x else x)) es') : Relabels tag es es' := by
  obtain ⟨f, hf, rfl⟩ := h
  refine ⟨f ∘ g, fun x => ⟨(hf (g x)).1.trans (hg x), (hf (g x)).2⟩, ?_⟩
  rw [List.map_map]
  refine List.map_congr_left fun x _ => ?_
  by_cases hx : x.tag = tag <;> simp [hx, hg x]

theorem Relabels.tags {tag : Byte} {es es' : List Entry} (h : Relabels tag es es') :
    es'.map Entry.tag = es.map Entry.tag := by
  obtain ⟨f, hf, rfl⟩ := h
  rw [List.map_map]
  refine List.map_congr_left fun x _ => ?_
  by_cases hx : x.tag = tag <;> simp [hx, (hf x).1]

/-- An entry that was not relabelled is one of the old ones. -/
theorem Relabels.mem {tag : Byte} {es es' : List Entry} (h : Relabels tag es es') {y : Entry} (hy : y ∈ es') :
    y ∈ es ∨ y.state = .queued ∨ y.state = .replying := by
  obtain ⟨f, hf, rfl⟩ := h
  obtain ⟨x, hx, rfl⟩ := List.mem_map.1 hy
  split
  · exact .inr (hf x).2
  · exact .inl hx

/-- How many entries are HELD. -/
def heldCount (es : List Entry) : Nat := es.countP (fun e => e.state == .held)

theorem Relabels.heldCount_lt {tag : Byte} {es es' : List Entry} (h : Relabels tag es es') {e : Entry} (he : e ∈ es)
    (htag : e.tag = tag) (hst : e.state = .held) : heldCount es' < heldCount es := by
  obtain ⟨f, hf, rfl⟩ := h
  unfold heldCount
  have hle : ∀ x : Entry, ((if x.tag = tag then f x else x).state == .held) = true → (x.state == .held) = true :=
    fun x hx => by
      split at hx
      · rcases (hf x).2 with hs | hs <;> simp [hs] at hx
      · exact hx
  have hmap : ∀ l : List Entry, (l.map (fun x => if x.tag = tag then f x else x)).countP (fun e => e.state == .held) ≤
      l.countP (fun e => e.state == .held) := fun l => by
    rw [List.countP_map]
    exact List.countP_mono_left fun x _ => hle x
  obtain ⟨a, b, rfl⟩ := List.append_of_mem he
  have he' : ((f e).state == .held) = false := by rcases (hf e).2 with hs | hs <;> simp [hs]
  rw [List.map_append, List.map_cons, if_pos htag, List.countP_append, List.countP_append,
    List.countP_cons_of_neg (by simp [he']), List.countP_cons_of_pos (by simp [hst])]
  have := hmap a
  have := hmap b
  omega

theorem heldCount_filter_lt {es : List Entry} {e : Entry} (he : e ∈ es) (hst : e.state = .held) :
    heldCount (es.filter (fun x => x.tag != e.tag)) < heldCount es := by
  unfold heldCount
  obtain ⟨a, b, rfl⟩ := List.append_of_mem he
  rw [List.filter_append, List.filter_cons_of_neg (by simp), List.countP_append, List.countP_append,
    List.countP_cons_of_pos (by simp [hst])]
  have ha := (List.filter_sublist (p := fun x : Entry => x.tag != e.tag) (l := a)).countP_le (p := fun e => e.state == .held)
  have hb := (List.filter_sublist (p := fun x : Entry => x.tag != e.tag) (l := b)).countP_le (p := fun e => e.state == .held)
  omega

theorem State.entries_releaseSegments {s : State} {r : Ref} {e : Entry} (he : s.find r = some e) (q : Port) :
    (s.releaseSegments r).entries q =
      if q = r.port then (s.entries r.port).map (fun x => if x.tag = r.tag then { x with segments := [] } else x)
      else s.entries q := by
  unfold State.releaseSegments
  rw [he]
  exact State.entries_updateEntry _ r (fun x => { x with segments := [] }) q

/-- The end of an entry that is not ORPHANED relabels its tag (R18). -/
theorem State.entries_finish {s : State} {r : Ref} {e : Entry} (st : Status) (he : s.find r = some e)
    (hst : e.state ≠ .orphaned) :
    (∀ q, q ≠ r.port → (s.finish r st).entries q = s.entries q) ∧
      Relabels r.tag (s.entries r.port) ((s.finish r st).entries r.port) := by
  have hupdate : ∀ (u : State) (q : Port),
      ((u.updateEntry r (fun x => { x with state := .replying, status := some st })).pushReady r.port
        (.entryReply r.tag)).entries q = if q = r.port then (u.entries r.port).map
          (fun x => if x.tag = r.tag then { x with state := .replying, status := some st } else x) else u.entries q :=
    fun u q => State.entries_updateEntry u r (fun x => { x with state := .replying, status := some st }) q
  unfold State.finish
  rw [he]
  dsimp only
  rw [if_neg hst]
  refine ⟨fun q hq => ?_, ?_⟩
  · rw [hupdate, if_neg hq]
    split
    · rw [State.entries_releaseSegments he, if_neg hq]
    · rfl
  · rw [hupdate, if_pos rfl]
    have hlast : ∀ es : List Entry, Relabels r.tag es (es.map (fun x =>
        if x.tag = r.tag then { x with state := .replying, status := some st } else x)) := fun es =>
      ⟨fun x => { x with state := .replying, status := some st }, fun _ => ⟨rfl, .inr rfl⟩, rfl⟩
    split
    · rw [State.entries_releaseSegments he, if_pos rfl]
      exact Relabels.after (g := fun x => { x with segments := [] }) (fun _ => rfl) (hlast _)
    · exact hlast _

/-- The end of an ORPHANED entry drops its tag (R26). -/
theorem State.entries_finish_orphaned {s : State} {r : Ref} {e : Entry} (st : Status) (he : s.find r = some e)
    (hst : e.state = .orphaned) :
    (∀ q, q ≠ r.port → (s.finish r st).entries q = s.entries q) ∧
      (s.finish r st).entries r.port = (s.entries r.port).filter (fun x => x.tag != r.tag) := by
  have hdrop : ∀ q, (s.freeEntry r).entries q =
      if q = r.port then ((s.releaseSegments r).entries r.port).filter (fun x => x.tag != r.tag)
      else (s.releaseSegments r).entries q := fun q => State.entries_setEntries _ r.port q _
  unfold State.finish
  rw [he]
  dsimp only
  rw [if_pos hst]
  refine ⟨fun q hq => ?_, ?_⟩
  · rw [hdrop, if_neg hq, State.entries_releaseSegments he, if_neg hq]
  · rw [hdrop, if_pos rfl, State.entries_releaseSegments he, if_pos rfl]
    induction s.entries r.port with
    | nil => rfl
    | cons x es ih =>
      rw [List.map_cons, List.filter_cons, List.filter_cons, ih]
      by_cases hx : x.tag = r.tag <;> simp [hx]

/-- A join to a static or NAND slot leaves the entry in the queue, or retires it at once as the head that it is (R58, R123). -/
theorem State.join_chip_or (s : State) (r : Ref) (c : Chip) :
    s.join r (.chip c) =
        (s.setQueue (.chip c) (s.queue (.chip c) ++ [r])).updateEntry r (fun e => { e with state := .queued }) ∨
      s.join r (.chip c) = State.retireHead
        ((s.setQueue (.chip c) (s.queue (.chip c) ++ [r])).updateEntry r (fun e => { e with state := .queued })) c r := by
  unfold State.join
  dsimp only
  split
  · next h hempty hh =>
    obtain ⟨rest, y, hq, -⟩ := State.retiredHead_eq_some hh
    have hqueue : ((s.setQueue (.chip c) (s.queue (.chip c) ++ [r])).updateEntry r
        (fun e => { e with state := .queued })).queue (.chip c) = s.queue (.chip c) ++ [r] :=
      (State.queue_setQueue s (.chip c) (.chip c) _).trans (if_pos rfl)
    rw [hqueue, List.isEmpty_iff.1 hempty] at hq
    obtain ⟨rfl, -⟩ := List.cons.inj hq
    exact .inr rfl
  · exact .inl rfl

/-- An entry that has joined its queue is QUEUED, also once it has left the queue again. -/
theorem State.find_joined {s : State} {r : Ref} {e : Entry} {c : Chip} (he : s.find r = some e) :
    (((s.setQueue (.chip c) (s.queue (.chip c) ++ [r])).updateEntry r (fun e => { e with state := .queued })).dequeue
      (.chip c) r).find r = some { e with state := .queued } := by
  rw [State.find_dequeue, State.find_updateEntry (f := fun e => { e with state := .queued }) (hf := by intro; rfl),
    if_pos rfl, State.find_setQueue, he]
  rfl

/-- The entry joins its queue, and where it is retired at once it ends: its tag is relabelled (R58, R123). -/
theorem State.entries_join {s : State} {r : Ref} {e : Entry} (k : Slot) (he : s.find r = some e) :
    (∀ q, q ≠ r.port → (s.join r k).entries q = s.entries q) ∧
      Relabels r.tag (s.entries r.port) ((s.join r k).entries r.port) := by
  have hupdate : ∀ (f : Entry → Entry) (q : Port),
      ((s.setQueue k (s.queue k ++ [r])).updateEntry r f).entries q =
        if q = r.port then (s.entries r.port).map (fun x => if x.tag = r.tag then f x else x) else s.entries q :=
    fun f q => State.entries_updateEntry _ r f q
  have hjoined : ∀ f : Entry → Entry, (∀ x, (f x).tag = x.tag ∧ ((f x).state = .queued ∨ (f x).state = .replying)) →
      (∀ q, q ≠ r.port → ((s.setQueue k (s.queue k ++ [r])).updateEntry r f).entries q = s.entries q) ∧
        Relabels r.tag (s.entries r.port) (((s.setQueue k (s.queue k ++ [r])).updateEntry r f).entries r.port) :=
    fun f hf => ⟨fun q hq => by rw [hupdate, if_neg hq], by rw [hupdate, if_pos rfl]; exact ⟨f, hf, rfl⟩⟩
  cases k with
  | sd => exact hjoined (fun x => { x with state := .queued, bypass := some 0 }) fun _ => ⟨rfl, .inl rfl⟩
  | chip c =>
    rcases s.join_chip_or r c with h | h
    · rw [h]
      exact hjoined (fun x => { x with state := .queued }) fun _ => ⟨rfl, .inl rfl⟩
    · have hr := State.find_joined (c := c) he
      obtain ⟨hothers, hrelabel⟩ := State.entries_finish .retired hr (by simp)
      rw [h]
      refine ⟨fun q hq => (hothers q hq).trans ((hupdate _ q).trans (if_neg hq)), ?_⟩
      refine Relabels.after (g := fun e => { e with state := .queued }) (fun _ => rfl) ?_
      have hold := (hupdate (fun e => { e with state := .queued }) r.port).trans (if_pos rfl)
      exact hold ▸ hrelabel

/-- A released entry's tag is relabelled, or dropped where the name finds an ORPHANED entry (R16, R26). -/
theorem State.entries_releaseHeld {s : State} {p : Port} {e : Entry} (he : e ∈ s.entries p) :
    (∀ q, q ≠ p → (s.releaseHeld p e).entries q = s.entries q) ∧
      (Relabels e.tag (s.entries p) ((s.releaseHeld p e).entries p) ∨
        (s.releaseHeld p e).entries p = (s.entries p).filter (fun x => x.tag != e.tag) ∧
          ∃ o ∈ s.entries p, o.state = .orphaned) := by
  obtain ⟨y, hy⟩ : ∃ y, s.find ⟨p, e.tag⟩ = some y :=
    Option.isSome_iff_exists.1 (List.find?_isSome.2 ⟨e, he, by simp⟩)
  unfold State.releaseHeld
  split
  · obtain ⟨hothers, hrelabel⟩ := State.entries_join e.slot hy
    exact ⟨hothers, .inl hrelabel⟩
  · by_cases hst : y.state = .orphaned
    · obtain ⟨hothers, hdrop⟩ := State.entries_finish_orphaned .slotStall hy hst
      exact ⟨hothers, .inr ⟨hdrop, y, State.find_mem hy, hst⟩⟩
    · obtain ⟨hothers, hrelabel⟩ := State.entries_finish .slotStall hy hst
      exact ⟨hothers, .inl hrelabel⟩

theorem State.heldCount_releaseHeld {s : State} {p : Port} {e : Entry} (he : e ∈ s.entries p) (hst : e.state = .held) :
    heldCount ((s.releaseHeld p e).entries p) < heldCount (s.entries p) := by
  rcases (State.entries_releaseHeld he).2 with h | ⟨h, -⟩
  · exact h.heldCount_lt he rfl hst
  · rw [h]
    exact heldCount_filter_lt he hst

/-! ### What is released, and when nothing more is -/

theorem firstReleasable_eq_none : ∀ {l older : List Entry}, firstReleasable older l = none ↔
    ∀ a x b, l = a ++ x :: b → x.state = .held → fencedBy (older ++ a) x.ordered = true
  | [], older => by simp [firstReleasable]
  | y :: l, older => by
    unfold firstReleasable
    split
    · next hy =>
      refine ⟨fun h => (by cases h), fun h => ?_⟩
      have := h [] y l rfl hy.1
      rw [List.append_nil, hy.2] at this
      cases this
    · next hy =>
      rw [firstReleasable_eq_none]
      refine ⟨fun h a x b hl hx => ?_, fun h a x b hl hx => ?_⟩
      · cases a with
        | nil =>
          obtain ⟨rfl, -⟩ := List.cons.inj hl
          rw [List.append_nil]
          by_contra hf
          exact hy ⟨hx, by simpa using hf⟩
        | cons z a =>
          obtain ⟨rfl, rfl⟩ := List.cons.inj hl
          simpa using h a x b rfl hx
      · simpa using h (y :: a) x b (by rw [hl]; rfl) hx

/-- The oldest HELD entry that is not fenced is the one released. -/
theorem firstReleasable_of_split {e : Entry} : ∀ {a older : List Entry} (b : List Entry), e.state = .held →
    fencedBy (older ++ a) e.ordered = false →
    (∀ a' x b', a = a' ++ x :: b' → x.state = .held → fencedBy (older ++ a') x.ordered = true) →
    firstReleasable older (a ++ e :: b) = some e
  | [], older, b, hst, hf, _ => by
    rw [List.append_nil] at hf
    exact if_pos ⟨hst, hf⟩
  | y :: a, older, b, hst, hf, hmin => by
    have hy : ¬(y.state = .held ∧ fencedBy older y.ordered = false) := fun ⟨hs, hn⟩ => by
      have := hmin [] y a rfl hs
      rw [List.append_nil, hn] at this
      cases this
    rw [List.cons_append, firstReleasable, if_neg hy]
    exact firstReleasable_of_split b hst (by simpa using hf) fun a' x b' ha hx => by
      simpa using hmin (y :: a') x b' (by rw [ha]; rfl) hx

/-- With fuel for every HELD entry the evaluation ends with none that can be released (R16). -/
theorem State.firstReleasable_evalFencesFuel (p : Port) : ∀ (n : Nat) (s : State), heldCount (s.entries p) ≤ n →
    firstReleasable [] ((State.evalFencesFuel n s p).entries p) = none
  | 0, s, hn => by
    refine firstReleasable_eq_none.2 fun a x b hl hx => ?_
    have hmem : x ∈ s.entries p := by
      have : s.entries p = a ++ x :: b := hl
      simp [this]
    have : 0 < heldCount (s.entries p) := List.countP_pos_iff.2 ⟨x, hmem, by simp [hx]⟩
    omega
  | n + 1, s, hn => by
    unfold State.evalFencesFuel
    split
    · next e he =>
      obtain ⟨hmem, hst⟩ := mem_of_firstReleasable he
      have := State.heldCount_releaseHeld hmem hst
      exact State.firstReleasable_evalFencesFuel p n _ (by omega)
    · next he => exact he

/-- More fuel changes nothing. -/
theorem State.evalFencesFuel_congr (p : Port) : ∀ (n m : Nat) (s : State), heldCount (s.entries p) ≤ n →
    heldCount (s.entries p) ≤ m → State.evalFencesFuel n s p = State.evalFencesFuel m s p
  | 0, 0, _, _, _ => rfl
  | 0, m + 1, s, hn, _ => by
    have hnone : firstReleasable [] (s.entries p) = none := State.firstReleasable_evalFencesFuel p 0 s hn
    rw [State.evalFencesFuel, State.evalFencesFuel, hnone]
  | n + 1, 0, s, _, hm => by
    have hnone : firstReleasable [] (s.entries p) = none := State.firstReleasable_evalFencesFuel p 0 s hm
    rw [State.evalFencesFuel, State.evalFencesFuel, hnone]
  | n + 1, m + 1, s, hn, hm => by
    rw [State.evalFencesFuel, State.evalFencesFuel]
    split
    · next e he =>
      obtain ⟨hmem, hst⟩ := mem_of_firstReleasable he
      have := State.heldCount_releaseHeld hmem hst
      exact State.evalFencesFuel_congr p n m _ (by omega) (by omega)
    · rfl

theorem State.heldCount_le (s : State) (p : Port) : heldCount (s.entries p) ≤ (s.entries p).length :=
  List.countP_le_length

/-- With nothing to release the evaluation changes nothing (R16). -/
theorem State.evalFences_of_none {s : State} {p : Port} (h : firstReleasable [] (s.entries p) = none) :
    s.evalFences p = s := by
  rw [State.evalFences, State.evalFencesFuel, h]

/-- One release, and the evaluation goes on (R16). -/
theorem State.evalFences_of_some {s : State} {p : Port} {e : Entry} (h : firstReleasable [] (s.entries p) = some e) :
    s.evalFences p = (s.releaseHeld p e).evalFences p := by
  obtain ⟨hmem, hst⟩ := mem_of_firstReleasable h
  have hlt := State.heldCount_releaseHeld hmem hst
  have hle := s.heldCount_le p
  have hle' := (s.releaseHeld p e).heldCount_le p
  rw [State.evalFences, State.evalFencesFuel, h]
  exact State.evalFencesFuel_congr p _ _ _ (by omega) (by omega)

/-- A condition that every release keeps is kept by the evaluation. -/
theorem State.evalFences_keeps {P : State → Prop} (p : Port)
    (h : ∀ s e, e ∈ s.entries p → e.state = .held → P s → P (s.releaseHeld p e)) {s : State} (hs : P s) :
    P (s.evalFences p) := by
  have fuel : ∀ n s, P s → P (State.evalFencesFuel n s p) := by
    intro n
    induction n with
    | zero => exact fun _ => id
    | succ n ih =>
      intro s hs
      unfold State.evalFencesFuel
      split
      · next e he =>
        obtain ⟨hmem, hst⟩ := mem_of_firstReleasable he
        exact ih _ (h s e hmem hst hs)
      · exact hs
  exact fuel _ s hs

end Sys2Proof.Machine
end

section
/-! Fence evaluation releases in turn and leaves only fenced entries HELD (R15, R16). -/
namespace Sys2Proof.Machine

/-- No entry of either port is ORPHANED. -/
def State.NoOrphan (s : State) : Prop := ∀ q, ∀ e ∈ s.entries q, e.state ≠ .orphaned

/-- A release makes no orphan; where there is none it keeps every tag in its place. -/
theorem State.releaseHeld_tags {s : State} {p : Port} {e : Entry} (he : e ∈ s.entries p) (hn : s.NoOrphan) :
    (s.releaseHeld p e).NoOrphan ∧ ∀ q, ((s.releaseHeld p e).entries q).map Entry.tag = (s.entries q).map Entry.tag := by
  obtain ⟨hothers, hrelabel⟩ := State.entries_releaseHeld he
  have hrelabel := hrelabel.resolve_right fun ⟨_, o, ho, hst⟩ => hn p o ho hst
  refine ⟨fun q y hy => ?_, fun q => ?_⟩
  · by_cases hq : q = p
    · subst hq
      rcases hrelabel.mem hy with hy | hy | hy
      · exact hn q y hy
      · simp [hy]
      · simp [hy]
    · exact hn q y (hothers q hq ▸ hy)
  · by_cases hq : q = p
    · exact hq ▸ hrelabel.tags
    · rw [hothers q hq]

/-- A release makes no entry HELD. -/
theorem State.releaseHeld_held {s : State} {p q : Port} {e y : Entry} (he : e ∈ s.entries p)
    (hy : y ∈ (s.releaseHeld p e).entries q) (hst : y.state = .held) : y ∈ s.entries q := by
  obtain ⟨hothers, hrelabel⟩ := State.entries_releaseHeld he
  by_cases hq : q = p
  · subst hq
    rcases hrelabel with h | ⟨h, -⟩
    · exact (h.mem hy).resolve_right fun hs => by rcases hs with hs | hs <;> simp [hst] at hs
    · exact List.mem_of_mem_filter (h ▸ hy)
  · exact hothers q hq ▸ hy

/-- Settles O25: each release takes one HELD entry away (`heldCount`), so that the evaluation ends with none to release, and
what one release does is read off the entry's place. -/
theorem fenceEvaluationLeavesOnlyFencedEntries : Obligations.FenceEvaluationLeavesOnlyFencedEntries := by
  intro s p t fenced
  have hfenced : ∀ older (e : Entry), fencedBy older e.ordered = true ↔ fenced older e := fun older e => fencedBy_iff _ _
  have hdone : firstReleasable [] (t.entries p) = none :=
    State.firstReleasable_evalFencesFuel p _ s ((s.heldCount_le p).trans (Nat.le_succ _))
  refine ⟨fun older e younger hs hst => (hfenced older e).1 (firstReleasable_eq_none.1 hdone older e younger hs hst),
    fun hp ho => ?_, fun q e he hst => ?_, fun h => ?_, fun ht older e younger hs hst hnot hmin => ?_⟩
  · have hnone : s.NoOrphan := fun q => by
      rcases p.eq_or_other q with rfl | rfl
      · exact hp
      · exact ho
    exact (State.evalFences_keeps (P := fun u => u.NoOrphan ∧ ∀ q, (u.entries q).map Entry.tag = (s.entries q).map Entry.tag)
      p (fun u e he _ ⟨hn, htags⟩ => by
        obtain ⟨hn', htags'⟩ := State.releaseHeld_tags he hn
        exact ⟨hn', fun q => (htags' q).trans (htags q)⟩) ⟨hnone, fun _ => rfl⟩).2
  · exact State.evalFences_keeps (P := fun u => ∀ y ∈ u.entries q, y.state = .held → y ∈ s.entries q) p
      (fun u x hx _ hu y hy hyst => hu y (State.releaseHeld_held hx hy hyst) hyst) (fun _ hy _ => hy) e he hst
  · exact State.evalFences_of_none (firstReleasable_eq_none.2 fun a x b hl hx => (hfenced _ x).2 (h a x b hl hx))
  · have hfirst : firstReleasable [] (s.entries p) = some e := hs ▸ firstReleasable_of_split younger hst
      (Bool.eq_false_iff.2 ((hfenced _ e).not.2 hnot)) fun a x b ha hx => (hfenced _ x).2 (hmin a x b ha hx)
    have hnext : t = (s.releaseHeld p e).evalFences p := State.evalFences_of_some hfirst
    obtain ⟨hold, hyoung⟩ := ht.split_of_mem hs
    intro r joined waits
    have hplaced : ∀ k y, e.slot = k → s.placed r k (older ++ y :: younger) = joined y := fun k y hk => by
      subst hk
      rfl
    have hjoin : ∀ k, e.slot = k → s.healthy k = true → s.releaseHeld p e = s.join r k := fun k hk h => by
      subst hk
      exact if_pos h
    refine ⟨fun h => hnext.trans (congrArg (State.evalFences · p) (if_neg (by simp [h]))), fun hsd => ?_, fun c hc hok => ?_⟩
    · rw [hnext, hjoin .sd hsd rfl, State.join_sd (r := r) hs rfl hold hyoung, hplaced .sd _ hsd]
    · intro retires
      have hhealth : s.health.get c = .ok := by simpa [hc, State.healthy] using hok
      have hretires : s.RetiresAlone c e ↔ retires :=
        ⟨fun ⟨hq, ht, hi, _, hk, hb⟩ => ⟨hq, ht, hi, hk, hb⟩, fun ⟨hq, ht, hi, hk, hb⟩ => ⟨hq, ht, hi, hhealth, hk, hb⟩⟩
      refine ⟨fun h => ?_, fun h => ?_⟩
      · rw [hnext, hjoin _ hc (hc ▸ hok), State.join_chip_waits (r := r) hs rfl hold hyoung (hretires.not.2 h), hplaced _ _ hc]
      · rw [hnext, hjoin _ hc (hc ▸ hok), State.join_chip_retires (r := r) hs rfl hold hyoung (hretires.2 h), hplaced _ _ hc]
        rfl

end Sys2Proof.Machine
end

section
/-! A flush answers the QUEUED entries of its queue, and what the fences then release leaves them be (R20). -/
namespace Sys2Proof.Machine

/-! ### A release beside the entry released -/

/-- `u` has the answers of `s` and further ones behind them, and of the entries that are not HELD exactly those of `s`; slot
`k`, which takes no new work, has the queue it had (R16). -/
structure State.Undisturbed (k : Slot) (s u : State) : Prop where
  table : u.TableLaw
  stalled : u.healthy k = false
  queue : u.queue k = s.queue k
  kept : ∀ r e, s.find r = some e → e.state ≠ .held → u.find r = some e
  ready : ∀ p, ∃ more, (u.port p).ready = (s.port p).ready ++ more

theorem State.isQueued_iff {s : State} {r : Ref} : s.isQueued r = true ↔ ∃ e, s.find r = some e ∧ e.state = .queued := by
  unfold State.isQueued
  cases s.find r <;> simp

/-- The end of an entry moves no other entry and no queue, and adds at most one answer (R18). -/
theorem State.finish_beside {s : State} {r : Ref} {e : Entry} (st : Status) (he : s.find r = some e) :
    (∀ x, x ≠ r → (s.finish r st).find x = s.find x) ∧
      ∀ p, ∃ more, ((s.finish r st).port p).ready = (s.port p).ready ++ more :=
  ⟨fun x hx => by rw [State.find_finish st he, if_neg hx], fun p => ⟨_, State.ready_finish st he p⟩⟩

/-- A join moves no other entry and no other queue, and adds at most one answer (R58, R123). -/
theorem State.join_beside {s : State} {r : Ref} {e : Entry} (k : Slot) (he : s.find r = some e) :
    (∀ x, x ≠ r → (s.join r k).find x = s.find x) ∧ (∀ j, j ≠ k → (s.join r k).queue j = s.queue j) ∧
      ∀ p, ∃ more, ((s.join r k).port p).ready = (s.port p).ready ++ more := by
  have hjoined : ∀ (f : Entry → Entry), (∀ e, (f e).tag = e.tag) →
      let u := (s.setQueue k (s.queue k ++ [r])).updateEntry r f
      (∀ x, x ≠ r → u.find x = s.find x) ∧ (∀ j, j ≠ k → u.queue j = s.queue j) ∧
        ∀ p, ∃ more, (u.port p).ready = (s.port p).ready ++ more := fun f hf => by
    refine ⟨fun x hx => ?_, fun j hj => (State.queue_setQueue s k j _).trans (if_neg hj), fun p => ⟨[], ?_⟩⟩
    · rw [State.find_updateEntry _ r x hf, if_neg hx, State.find_setQueue]
    · exact (List.append_nil _).symm
  cases k with
  | sd => exact hjoined (fun e => { e with state := .queued, bypass := some 0 }) fun _ => rfl
  | chip c =>
    obtain ⟨hfind, hqueue, hready⟩ := hjoined (fun e => { e with state := .queued }) fun _ => rfl
    rcases s.join_chip_or r c with h | h
    · rw [h]
      exact ⟨hfind, hqueue, hready⟩
    · have hr := State.find_joined (c := c) he
      obtain ⟨hf, hm⟩ := State.finish_beside .retired hr
      rw [h]
      refine ⟨fun x hx => (hf x hx).trans (hfind x hx), fun j hj => ?_, hm⟩
      rw [State.retireHead, State.queue_finish, State.queue_dequeue, if_neg hj]
      exact hqueue j hj

theorem State.Undisturbed.ready_trans {k : Slot} {s u t : State} (h : State.Undisturbed k s u)
    (hm : ∀ p, ∃ more, (t.port p).ready = (u.port p).ready ++ more) (p : Port) :
    ∃ more, (t.port p).ready = (s.port p).ready ++ more := by
  obtain ⟨more, hmore⟩ := h.ready p
  obtain ⟨last, hlast⟩ := hm p
  exact ⟨more ++ last, by rw [hlast, hmore, List.append_assoc]⟩

theorem State.Undisturbed.releaseHeld {k : Slot} {s u : State} (h : State.Undisturbed k s u) {p : Port} {e : Entry}
    (he : e ∈ u.entries p) (hst : e.state = .held) : State.Undisturbed k s (u.releaseHeld p e) := by
  have hfind := h.table.find_of_mem he
  have hother : ∀ r x, s.find r = some x → x.state ≠ .held → r ≠ ⟨p, e.tag⟩ := fun r x hx hxst hr => by
    obtain rfl := Option.some.inj ((h.kept r x hx hxst).symm.trans (hr ▸ hfind))
    exact hxst hst
  have htable := tableOps_tableLaw.releaseHeld p e h.table
  have hhealth : (u.releaseHeld p e).healthy k = false := by
    rw [← h.stalled]
    unfold State.healthy
    rw [State.releaseHeld_health]
  by_cases hok : u.healthy e.slot = true
  · have hrel : u.releaseHeld p e = u.join ⟨p, e.tag⟩ e.slot := if_pos hok
    obtain ⟨hf, hq, hm⟩ := State.join_beside e.slot hfind
    rw [hrel] at htable hhealth ⊢
    refine ⟨htable, hhealth, (hq k fun hk => ?_).trans h.queue, fun r x hx hxst =>
      (hf r (hother r x hx hxst)).trans (h.kept r x hx hxst), fun q => ?_⟩
    · rw [← hk, h.stalled] at hok
      cases hok
    · exact h.ready_trans hm q
  · have hrel : u.releaseHeld p e = u.finish ⟨p, e.tag⟩ .slotStall := if_neg hok
    obtain ⟨hf, hm⟩ := State.finish_beside .slotStall hfind
    rw [hrel] at htable hhealth ⊢
    exact ⟨htable, hhealth, (State.queue_finish _ _ _ k).trans h.queue, fun r x hx hxst =>
      (hf r (hother r x hx hxst)).trans (h.kept r x hx hxst), h.ready_trans hm⟩

/-- The fences release HELD entries alone (R16). -/
theorem State.Undisturbed.evalFences {k : Slot} {s u : State} (h : State.Undisturbed k s u) (p : Port) :
    State.Undisturbed k s (u.evalFences p) :=
  State.evalFences_keeps (P := State.Undisturbed k s) p (fun _ _ he hst hu => hu.releaseHeld he hst) h

/-! ### The entries flushed -/

/-- What the flush of the names in `l` has done by `t` (R20). -/
structure State.FlushedTo (s : State) (k : Slot) (l : List Ref) (t : State) : Prop where
  queue : t.queue k = (s.queue k).filter (fun x => !(decide (x ∈ l) && s.isQueued x))
  kept : ∀ x, ¬(x ∈ l ∧ s.isQueued x = true) → t.find x = s.find x
  answered : ∀ x ∈ l, s.isQueued x = true →
    ∃ e, t.find x = some e ∧ e.state = .replying ∧ e.status = some .flushed ∧ e.segments = []
  ready : ∀ p, (t.port p).ready = (s.port p).ready ++
    (l.filter (fun r => decide (r.port = p) && s.isQueued r)).map (fun r => Item.entryReply r.tag)

theorem State.flushList_flushedTo (k : Slot) : ∀ (l : List Ref) (s : State), l.Nodup → s.FlushedTo k l (s.flushList k l)
  | [], s, _ => ⟨by simp [State.flushList], fun _ _ => rfl, by simp, by simp [State.flushList]⟩
  | r :: l, s, hl => by
    obtain ⟨hr, hl⟩ := List.nodup_cons.1 hl
    unfold State.flushList
    split
    · next hq =>
      obtain ⟨e, he, hst⟩ := State.isQueued_iff.1 hq
      have hne : e.state ≠ .orphaned := by simp [hst]
      have hfind : ∀ x, ((s.dequeue k r).finish r .flushed).find x = _ :=
        State.find_finish (s := s.dequeue k r) .flushed (e := e) he
      have hisQueued : ∀ x, x ≠ r → ((s.dequeue k r).finish r .flushed).isQueued x = s.isQueued x := fun x hx => by
        unfold State.isQueued
        rw [hfind, if_neg hx]
        rfl
      have hrest := State.flushList_flushedTo k l ((s.dequeue k r).finish r .flushed) hl
      have hmem : ∀ x ∈ l, x ≠ r := fun x hx hxr => hr (hxr ▸ hx)
      refine ⟨?_, fun x hx => ?_, fun x hx hxq => ?_, fun p => ?_⟩
      · rw [hrest.queue, State.queue_finish, State.queue_dequeue, if_pos rfl, List.filter_filter]
        refine List.filter_congr fun x _ => ?_
        by_cases hx : x = r
        · subst hx
          simp [hq]
        · simp [hx, hisQueued x hx]
      · by_cases hxr : x = r
        · exact absurd ⟨hxr ▸ List.mem_cons_self .., hxr ▸ hq⟩ hx
        · rw [hrest.kept x fun ⟨hm, hxq⟩ => hx ⟨List.mem_cons_of_mem r hm, hisQueued x hxr ▸ hxq⟩, hfind, if_neg hxr]
          rfl
      · by_cases hxr : x = r
        · subst hxr
          refine ⟨_, (hrest.kept x fun ⟨hm, _⟩ => hr hm).trans ((hfind x).trans ((if_pos rfl).trans (if_neg hne))), rfl, rfl, ?_⟩
          exact if_pos (by simp [releasedAtEnd])
        · exact hrest.answered x ((List.mem_cons.1 hx).resolve_left hxr) (hisQueued x hxr ▸ hxq)
      · have hready := State.ready_finish (s := s.dequeue k r) .flushed (e := e) he p
        have hfilter : l.filter (fun x => decide (x.port = p) && ((s.dequeue k r).finish r .flushed).isQueued x) =
            l.filter (fun x => decide (x.port = p) && s.isQueued x) :=
          List.filter_congr fun x hx => by rw [hisQueued x (hmem x hx)]
        rw [hrest.ready p, hready, hfilter, List.filter_cons]
        by_cases hp : r.port = p
        · simp [hp, hq, hst, State.port, State.dequeue, State.setQueue]
        · simp [hp, Ne.symm hp, State.port, State.dequeue, State.setQueue]
    · next hq =>
      have hrest := State.flushList_flushedTo k l s hl
      have hnot : ∀ x, (x ∈ r :: l ∧ s.isQueued x = true) → x ∈ l ∧ s.isQueued x = true := fun x ⟨hx, hxq⟩ =>
        ⟨(List.mem_cons.1 hx).resolve_left fun hxr => hq (hxr ▸ hxq), hxq⟩
      refine ⟨hrest.queue.trans (List.filter_congr fun x _ => ?_),
        fun x hx => hrest.kept x fun ⟨hm, hxq⟩ => hx ⟨List.mem_cons_of_mem r hm, hxq⟩,
        fun x hx hxq => hrest.answered x (hnot x ⟨hx, hxq⟩).1 hxq, fun p => ?_⟩
      · by_cases hx : x = r
        · subst hx
          simp [Bool.eq_false_iff.2 hq]
        · simp [hx]
      · rw [hrest.ready p, List.filter_cons_of_neg (by simp [Bool.eq_false_iff.2 hq])]

/-- Settles O26: the flush answers the QUEUED entries (`flushList_flushedTo`), and the fences leave the answered and the ACTIVE
entries and the queue of the stalled slot as they are (`Undisturbed`). -/
theorem flushAnswersEveryQueuedEntry : Obligations.FlushAnswersEveryQueuedEntry := by
  intro s k ht hk hnodup hnamed t
  have hflushed := State.flushList_flushedTo k (s.queue k) s hnodup
  have hrest : State.Undisturbed k (s.flushList k (s.queue k)) t := by
    have hstart : State.Undisturbed k (s.flushList k (s.queue k)) (s.flushList k (s.queue k)) := by
      refine ⟨tableOps_tableLaw.flushList k _ ht, ?_, rfl, fun _ _ h _ => h, fun p => ⟨[], (List.append_nil _).symm⟩⟩
      rw [← hk]
      unfold State.healthy
      rw [State.flushList_health]
    change State.Undisturbed k _ (s.flush k)
    unfold State.flush
    dsimp only
    split <;> split
    · exact (hstart.evalFences _).evalFences _
    · exact hstart.evalFences _
    · exact hstart.evalFences _
    · exact hstart
  refine ⟨fun r hr => ?_, fun r hr hq => ?_, fun p => ?_⟩
  · rw [hrest.queue, hflushed.queue, List.mem_filter] at hr
    obtain ⟨hm, hnot⟩ := hr
    have hnq : s.isQueued r = false := by simpa [hm] using hnot
    obtain ⟨e, he, -, hst⟩ := hnamed r hm
    have hactive : e.state = .active := hst.resolve_left fun h => by
      rw [State.isQueued_iff.2 ⟨e, he, h⟩] at hnq
      cases hnq
    have hfind := hrest.kept r e ((hflushed.kept r fun h => by simp [hnq] at h).trans he) (by simp [hactive])
    unfold State.isQueued
    rw [hfind]
    simp [hactive]
  · obtain ⟨e, he, hst, hstatus, hseg⟩ := hflushed.answered r hr hq
    refine ⟨fun hm => ?_, e, hrest.kept r e he (by simp [hst]), hst, hstatus, hseg⟩
    rw [hrest.queue, hflushed.queue, List.mem_filter] at hm
    simp [hr, hq] at hm
  · obtain ⟨more, hmore⟩ := hrest.ready p
    exact ⟨more, by rw [hmore, hflushed.ready p]⟩

end Sys2Proof.Machine
end

section
/-! CANCEL and BRIDGE-RESET at their owner (R21, R181), and the full reset on its five ways (R27, R181, R183). -/
namespace Sys2Proof.Machine

/-! ### The way of a control message -/

/-- A control message that passes the tests of its port is dealt with by its owner (R170, R173, R174). -/
theorem State.takeControl_of_reaches {s : State} {k : CtrlKind} {p : Port} {seq : Byte} {d : List Byte}
    (h : s.Reaches k p seq d) (owner : State → State) : s.takeControl k p seq d owner = owner (s.takeFrame p seq) := by
  obtain ⟨ht, hs, hheld, hlen, hconfig⟩ := h
  obtain ⟨htop, hport⟩ := hs.takeFrame seq
  have hfree : (s.takeFrame p seq).slotFree p = true := by simpa [State.slotFree] using hheld
  have hright : (k.needsRight && !((s.takeFrame p seq).port p).config) = false := by
    rw [(s.takeFrame_standing p p seq).config]
    cases hk : k.needsRight
    · rfl
    · simp [hconfig hk]
  have hstopped : (s.takeFrame p seq).stopped k p d = none := by
    unfold State.stopped
    rw [if_neg (by simp [hfree]), if_neg (by simp [hlen]), if_neg (by simp [hright])]
  unfold State.takeControl State.dealControl
  rw [State.takeMessage_in_turn ht]
  simp only [htop, hport, hstopped]

/-- The head of a NAND queue is examined after an entry of its slot has gone (R123). -/
def State.examinedOn (s : State) (k : Slot) : State :=
  match k with
  | .chip c => s.examine c
  | .sd => s

theorem State.complete_of_found {s : State} {r : Ref} {e : Entry} (st : Status) (he : s.find r = some e)
    (hst : e.state ≠ .orphaned) : s.complete r st = (s.finish r st).evalFences r.port := by
  unfold State.complete
  rw [he]
  exact if_neg hst

/-- A HELD entry is cancelled where it stands (R21). -/
theorem State.cancelEntry_held {s : State} {e : Entry} (he : s.find e.ref = some e) (hst : e.state = .held) :
    s.cancelEntry e = ((s.finish e.ref .cancelled).evalFences e.port).examinedOn e.slot := by
  unfold State.cancelEntry
  dsimp only
  rw [if_neg (by simp [hst]), State.complete_of_found .cancelled he (by simp [hst])]
  rfl

/-- A QUEUED entry leaves its queue and is cancelled (R21). -/
theorem State.cancelEntry_queued {s : State} {e : Entry} (he : s.find e.ref = some e) (hst : e.state = .queued) :
    s.cancelEntry e = (((s.dequeue e.slot e.ref).finish e.ref .cancelled).evalFences e.port).examinedOn e.slot := by
  unfold State.cancelEntry
  dsimp only
  rw [if_pos hst, State.complete_of_found (s := s.dequeue e.slot e.ref) .cancelled he (by simp [hst])]
  rfl

/-- CANCEL by what its tag finds (R21). -/
theorem State.cancelAct_of_find {s : State} {p : Port} {token tag : Byte} :
    (s.find ⟨p, tag⟩ = none → s.cancelAct p [token, tag] = s.reply p token .cancel .notFound []) ∧
    ∀ e, s.find ⟨p, tag⟩ = some e → e.port = p →
      (e.state = .active ∨ e.state = .replying ∨ e.state = .orphaned →
        s.cancelAct p [token, tag] = s.reply p token .cancel .tooLate []) ∧
      (e.state = .held → s.cancelAct p [token, tag] =
        (((s.finish ⟨p, tag⟩ .cancelled).evalFences p).examinedOn e.slot).reply p token .cancel .ok []) ∧
      (e.state = .queued → s.cancelAct p [token, tag] =
        ((((s.dequeue e.slot ⟨p, tag⟩).finish ⟨p, tag⟩ .cancelled).evalFences p).examinedOn e.slot).reply
          p token .cancel .ok []) := by
  have hact : s.cancelAct p [token, tag] = match s.find ⟨p, tag⟩ with
      | none => s.reply p token .cancel .notFound []
      | some e =>
        match e.state with
        | .held | .queued => (s.cancelEntry e).reply p token .cancel .ok []
        | .active | .replying | .orphaned => s.reply p token .cancel .tooLate [] := rfl
  rw [hact]
  refine ⟨fun h => by rw [h], fun e he hp => ?_⟩
  have href : e.ref = ⟨p, tag⟩ := by rw [Entry.ref, hp, State.find_tag he]
  rw [he]
  refine ⟨fun h => ?_, fun h => ?_, fun h => ?_⟩
  · rcases h with h | h | h <;> simp only [h]
  · simp only [h, State.cancelEntry_held (href ▸ he) h, href, hp]
  · simp only [h, State.cancelEntry_queued (href ▸ he) h, href, hp]

/-- Settles O41: the message reaches its owner on the state that taking the frame leaves, and CANCEL goes by what its tag
finds there. -/
theorem cancelAndBridgeResetAnswerOnce : Obligations.CancelAndBridgeResetAnswerOnce := by
  intro s p seq token tag
  constructor
  · intro h u answered examined
    have hrow : exec (.cancel p seq [token, tag]) s = .next (u.cancelAct p [token, tag]).settle :=
      congrArg (fun v : State => Host.Outcome.next v.settle) (State.takeControl_of_reaches h fun s => s.cancelAct p [token, tag])
    have hfind : ∀ r, s.find r = u.find r := fun r => (State.find_of_table (s.takeFrame_table p seq) r).symm
    obtain ⟨hnone, hsome⟩ := State.cancelAct_of_find (s := u) (p := p) (token := token) (tag := tag)
    rw [hfind]
    have hanswer : ∀ {v : State} {st}, u.cancelAct p [token, tag] = v.reply p token .cancel st [] → answered v st :=
      fun {v st} hv => hrow.trans (by rw [hv])
    refine ⟨fun hn => hanswer (hnone hn), fun e he hp => ?_⟩
    obtain ⟨hlate, hheld, hqueued⟩ := hsome e he hp
    exact ⟨fun hst => hanswer (hlate hst), fun hst => hanswer (hheld hst), fun hst => hanswer (hqueued hst)⟩
  · intro h u
    have hrow : exec (.bridgeReset p seq [token]) s = .next (u.bridgeResetAct p [token]).settle :=
      congrArg (fun v : State => Host.Outcome.next v.settle) (State.takeControl_of_reaches h fun s => s.bridgeResetAct p [token])
    have hpending : u.bridgeReset = s.bridgeReset := s.takeFrame_bridgeReset p seq
    rw [hrow]
    unfold State.bridgeResetAct
    rw [hpending]
    refine ⟨fun hb => by rw [hb]; rfl, fun hb => ?_⟩
    obtain ⟨x, hx⟩ := Option.ne_none_iff_exists'.1 hb
    rw [hx]
    rfl

/-! ### Full resets -/

/-- A full reset leaves every block at its reset values (R183). -/
theorem State.fullReset_fullyReset (s : State) (cause : Cause) (pins : Pins) :
    (s.fullReset cause pins).FullyReset cause pins := by
  refine ⟨fun p => by cases p <;> rfl, fun k => ?_, rfl, rfl, rfl, fun c => by cases c <;> exact ⟨rfl, rfl⟩, fun c hc => ?_,
    rfl, rfl, rfl, rfl, rfl, rfl, rfl, rfl, rfl, rfl, rfl, rfl, fun p => by cases p <;> exact ⟨rfl, rfl, rfl, rfl⟩,
    fun p => ?_, rfl, rfl, rfl, rfl, rfl, rfl, rfl, rfl, rfl, rfl, rfl, rfl⟩
  · cases k with
    | sd => rfl
    | chip c => cases c <;> rfl
  · cases c with
    | s1 => exact absurd rfl hc
    | s2 => exact ⟨rfl, rfl⟩
    | s3 => exact ⟨rfl, rfl⟩
    | s4 => exact ⟨rfl, rfl⟩
  · cases p <;> exact ⟨rfl, rfl, rfl, rfl, rfl, rfl, rfl, rfl, rfl, rfl⟩

/-- What a full reset records of the tenure it cuts off (R57). -/
theorem State.fullReset_cutOff (s : State) (cause : Cause) (pins : Pins) : s.CutOff (s.fullReset cause pins) := by
  refine ⟨fun h => ?_, fun x hx => ?_⟩
  · rw [State.fullReset_cut, State.cutTenure, h]
    rfl
  · obtain ⟨htenure, hcases⟩ := x.cutAt_cases
      (match x.entry.bind (fun r => s.find r) with | some e => s.cutWork x e | none => []) (Config.cutAfter s.fresh)
    refine ⟨_, by rw [State.fullReset_cut, State.cutTenure, hx]; rfl, htenure, fun r e hr he => ?_⟩
    have hwork : (match x.entry.bind (fun r => s.find r) with | some e => s.cutWork x e | none => []) = s.cutWork x e := by
      rw [hr, Option.bind_some, he]
    rwa [hwork] at hcases ⊢

/-- With the queues empty an examination of the heads changes nothing (R123). -/
theorem State.examineHeads_of_empty {s : State} (h : ∀ k, s.queue k = []) : s.examineHeads = s := by
  have hone : ∀ c, s.examine c = s := fun c => by
    have hnone : s.retiredHead c = none := by
      unfold State.retiredHead
      rw [h]
      simp
    rw [State.examine, State.examineFuel, hnone]
  unfold State.examineHeads
  rw [hone, hone, hone, hone]

/-- The levels that a MESSAGE reset finds are those of the pins and of the free choice alone (log entries 2, 22). -/
theorem State.messagePins_congr {s t : State} (hpins : t.pins = s.pins) (hfresh : t.fresh = s.fresh) :
    t.messagePins = s.messagePins := by
  unfold State.messagePins
  rw [hpins, hfresh]

/-- A reset of the port whose bridge reset is pending is a full reset (R181); the heads of its empty queues stay. -/
theorem State.portResetStep_of_pending {s : State} {p : Port} (cause : PortStart) (h : s.bridgeReset = some p) :
    (s.portResetStep p cause).FullyReset (.message p) s.messagePins ∧
      (s.portResetStep p cause).pool.bytes = s.pool.bytes := by
  have hreset : s.portReset p cause = ((s.cleared p cause).post p.other (.peerReset p cause)).messageReset p := by
    rw [State.portReset_eq, if_pos h]
  have hpins : ((s.cleared p cause).post p.other (.peerReset p cause)).messagePins = s.messagePins :=
    State.messagePins_congr (by rw [State.post_pins]; rfl) (by rw [State.post_fresh]; rfl)
  have hfull := State.fullReset_fullyReset ((s.cleared p cause).post p.other (.peerReset p cause)) (.message p) s.messagePins
  have hqueues : ∀ k, (s.portReset p cause).queue k = [] := by
    rw [hreset, State.messageReset, hpins]
    exact hfull.2.1
  unfold State.portResetStep
  rw [State.examineHeads_of_empty hqueues, hreset, State.messageReset, hpins]
  refine ⟨hfull, ?_⟩
  rw [State.fullReset_bytes _ (by simp), State.post_pool]
  rfl

/-- Settles O8: three of the ways are the full reset itself, and the reset of a port with a pending bridge reset comes to one
whose queues have no heads to examine. -/
theorem fullResetEmptiesTheTable : Obligations.FullResetEmptiesTheTable := by
  intro s p reset
  refine ⟨fun pins => ⟨_, rfl, s.fullReset_fullyReset .power pins, s.fullReset_cutOff .power pins, fun h => absurd rfl h⟩,
    fun pins => ⟨_, rfl, s.fullReset_fullyReset .pin pins, s.fullReset_cutOff .pin pins, fun h => State.fullReset_bytes _ h⟩,
    fun token body rest htx hready hpending => ?_, fun seq d ht hs hd hpending => ?_, ?_⟩
  · obtain ⟨x, hx⟩ := Option.ne_none_iff_exists'.1 htx
    let u := s.setPort p { s.port p with tx := none, ready := rest }
    let v := u.setPort p { u.port p with held := (u.port p).held - 1 }
    have hsent : s.frameSent p = v.fullReset (.message p) s.messagePins := by
      unfold State.frameSent
      rw [hx, hready]
      exact if_pos ⟨rfl, rfl, hpending⟩
    refine ⟨v.fullReset (.message p) s.messagePins, ?_, v.fullReset_fullyReset _ _, v.fullReset_cutOff _ _,
      fun h => State.fullReset_bytes (s := v) _ h⟩
    rw [← hsent]
    rfl
  · obtain ⟨htop, hport⟩ := hs.takeFrame seq
    have htake : s.takePortReset p seq d = (s.takeFrame p seq).portResetStep p .message := by
      unfold State.takePortReset State.dealPortReset
      rw [State.takeMessage_in_turn ht]
      simp only [htop, hport, hd, if_false]
    obtain ⟨hfull, hbytes⟩ := State.portResetStep_of_pending (s := s.takeFrame p seq) (p := p) .message
      ((s.takeFrame_bridgeReset p seq).trans hpending)
    rw [State.messagePins_congr (s.takeFrame_pins p seq) (s.takeFrame_fresh p seq)] at hfull
    refine ⟨_, ?_, hfull, hbytes.trans (congrArg Pool.bytes (s.takeFrame_pool p seq))⟩
    rw [← htake]
    rfl
  · intro hup hbreak hpending low
    let u := low.setPort p { low.port p with receiver := .inBreak }
    have htake : s.breakTaken p = u.portResetStep p .brk := by
      have hstate : (u.port p).state = .up := by
        rw [State.port_setPort, if_pos rfl]
        exact hup
      unfold State.breakTaken
      rw [if_neg hbreak]
      change (match (u.port p).state with | .up => u.portResetStep p .brk | .down => u) = _
      rw [hstate]
    obtain ⟨hfull, hbytes⟩ := State.portResetStep_of_pending (s := u) (p := p) .brk hpending
    refine ⟨_, ?_, hfull, hbytes⟩
    rw [← htake]
    rfl

end Sys2Proof.Machine
end

section
/-! The end of an atomic (R2, R67, R83, R109). -/
namespace Sys2Proof.Machine

/-- A CSET whose old value is not `compare` writes nothing; SWAP and a CSET that hits write the operand, FADD the sum (R2). -/
theorem atomicResult_eq (k : ReqKind) (length old compare operand : Nat) :
    atomicResult k length old compare operand =
      if k = .cset ∧ old ≠ compare then none
      else some (if k = .cset ∨ k = .swap then operand else (old + operand) % 2 ^ (8 * length)) := by
  unfold atomicResult
  cases k <;> simp

theorem Entry.newBytes_eq (e : Entry) (w : Nat) (xs : List Sample) :
    e.newBytes w xs =
      if e.kind = .cset ∧ leValue (readBytes w e.offset e.length xs) ≠ e.compare then none
      else some (leBytes e.length (if e.kind = .cset ∨ e.kind = .swap then e.operand
        else (leValue (readBytes w e.offset e.length xs) + e.operand) % 2 ^ (8 * e.length))) := by
  unfold Entry.newBytes oldValue
  rw [atomicResult_eq]
  split <;> rfl

/-- The end of a tenure leaves the self-refresh timer alone (R98). -/
theorem State.endTenure_selfRefreshTimer (s : State) (w : Bool) (cs : List BusCycle) :
    (s.endTenure w cs).sdram.selfRefreshTimer = s.sdram.selfRefreshTimer := by
  unfold State.endTenure
  split
  · rfl
  · dsimp only
    split <;> rfl

/-- The tenure of an atomic in progress and the entry it serves. -/
theorem State.serving_of_tenure {s : State} {x : Purpose} {t : Tenure} {r : Ref} {e : Entry}
    (ht : s.arbiter.tenure = some t) (hx : t.purpose = x) (hr : t.entry = some r) (he : s.find r = some e) :
    s.serving x = some (t, e) := by
  unfold State.serving
  rw [ht]
  dsimp only
  rw [if_pos hx, hr, Option.bind_some, he]
  rfl

/-- The bus work of an atomic that writes nothing is its read phase (R83). -/
theorem atomicCycles_of_none {f : Profile} {e : Entry} {xs : List Sample} {w : Nat} (hw : f.beatBytes = w)
    (h : e.newBytes w xs = none) :
    atomicCycles f e xs = readBeats f w e.offset e.length xs (beatCount w e.offset e.length) false ++ [] := by
  subst hw
  unfold atomicCycles
  dsimp only
  rw [h]

/-- The bus work of an atomic that writes: read phase, recovery, write phase (R83). -/
theorem atomicCycles_of_some {f : Profile} {e : Entry} {xs : List Sample} {w : Nat} {d : List Byte} (hw : f.beatBytes = w)
    (h : e.newBytes w xs = some d) :
    atomicCycles f e xs = readBeats f w e.offset e.length xs (beatCount w e.offset e.length) false ++
      .idle f.recovery :: writeBeats f w e.offset d xs (beatCount w e.offset e.length) (beatCount w e.offset e.length)
        false := by
  subst hw
  unfold atomicCycles
  dsimp only
  rw [h]

/-- An atomic's move on a static slot (R83). -/
theorem State.moveAtomic_chip {s : State} {t : Tenure} {c : Chip} (hc : t.slot = .chip c) (e : Entry) (xs : List Sample) :
    s.moveAtomic t e xs =
      (s.stage e.segments 0 (readBytes (s.profile c).beatBytes e.offset e.length xs)).endTenure
        (e.newBytes (s.profile c).beatBytes xs).isSome (atomicCycles (s.profile c) e xs) := by
  unfold State.moveAtomic
  rw [hc]
  rfl

/-- An atomic's move on SD (R98, R109). -/
theorem State.moveAtomic_sd {s : State} {t : Tenure} (hsd : t.slot = .sd) (e : Entry) (xs : List Sample) :
    s.moveAtomic t e xs =
      ((s.stage e.segments 0 (readBytes s.sdram.settings.beatBytes e.offset e.length xs)).endSd
        (e.newBytes s.sdram.settings.beatBytes xs).isSome (s.sdAtomicWork e xs)).restartSelfRefresh := by
  unfold State.moveAtomic
  rw [hsd]
  rfl

/-- Settles O45: the entry's new bytes decide what is written, and the data's move and the completion are read off. -/
theorem atomicReadsDecidesAndWrites : Obligations.AtomicReadsDecidesAndWrites := by
  intro s xs t r e htable ht hx hr he w data old missed value done
  have href : e.ref = r := htable.ref_of_find he
  have hw : s.beatBytes t.slot = w := by
    unfold State.beatBytes
    change _ = match t.slot with | .chip c => (s.profile c).width / 8 | .sd => s.sdram.settings.width / 8
    cases t.slot <;> rfl
  have hnew : e.newBytes w xs = if missed then none else some (leBytes e.length value) := e.newBytes_eq w xs
  have hsome : (e.newBytes w xs).isSome = !decide missed := by
    rw [hnew]
    by_cases hm : missed <;> simp [hm]
  have hrow : exec (.atomicEnd xs) s = .next (done (s.moveAtomic t e xs)).settle := by
    have hst : (if (e.newBytes w xs).isSome then Status.ok else .cmpMiss) = if missed then .cmpMiss else .ok := by
      rw [hsome]
      by_cases hm : missed <;> simp [hm]
    change Host.Outcome.next (s.atomicEnd xs).settle = _
    unfold State.atomicEnd
    rw [State.serving_of_tenure ht hx hr he]
    dsimp only
    rw [hw, hst, href]
    unfold State.endWork
    rw [href]
    rfl
  have hcases : (missed ∧ e.newBytes w xs = none) ∨ ¬missed ∧ e.newBytes w xs = some (leBytes e.length value) := by
    by_cases hm : missed
    · exact .inl ⟨hm, hnew.trans (if_pos hm)⟩
    · exact .inr ⟨hm, hnew.trans (if_neg hm)⟩
  constructor
  · intro c hc f n written cycles
    have hwf : (s.profile c).beatBytes = w := by rw [← hw, hc]; rfl
    have hcycles : atomicCycles f e xs = cycles := by
      rcases hcases with ⟨hm, hnone⟩ | ⟨hm, hvalue⟩
      · have hwritten : (if missed then [] else written) = [] := if_pos hm
        change _ = readBeats f w e.offset e.length xs n false ++ if missed then [] else written
        rw [atomicCycles_of_none hwf hnone, hwritten]
      · have hwritten : (if missed then [] else written) = written := if_neg hm
        change _ = readBeats f w e.offset e.length xs n false ++ if missed then [] else written
        rw [atomicCycles_of_some hwf hvalue, hwritten]
        rfl
    rw [hrow, State.moveAtomic_chip hc, hwf, hsome, hcycles]
    rfl
  · intro hsd g read work u
    have hwg : s.sdram.settings.beatBytes = w := by rw [← hw, hsd]; rfl
    have hread : (s.sdStart.openRow g e.offset).readBeats g e.offset (beatCount g.beatBytes e.offset e.length) xs = read :=
      congrArg (fun w => (s.sdStart.openRow g e.offset).readBeats g e.offset (beatCount w e.offset e.length) xs) hwg
    have hwork : s.sdAtomicWork e xs = work := by
      change sdAtomic s.sdStart g e.offset e.length xs (e.newBytes s.sdram.settings.beatBytes xs) =
        (if missed then _ else _ : SdTrace).policyEnd g e.offset
      rw [hwg]
      rcases hcases with ⟨hm, hnone⟩ | ⟨hm, hvalue⟩
      · rw [hnone, if_pos hm]
        exact congrArg (fun x : SdTrace => x.policyEnd g e.offset) hread
      · rw [hvalue, if_neg hm]
        exact congrArg (fun x : SdTrace => ((x.wait 1).writeBeats g e.offset (leBytes e.length value)).policyEnd g e.offset)
          hread
    have htimer : u.sdram.selfRefreshTimer = s.sdram.selfRefreshTimer := State.endTenure_selfRefreshTimer _ _ _
    rw [hrow, State.moveAtomic_sd hsd, hwg, hsome, hwork, ← htimer]
    rfl

end Sys2Proof.Machine
end

section
/-! What most of the part leaves as it is: the window table, the retired-block lists, the profiles and the SDRAM settings,
with an initialised SDRAM staying initialised. -/
namespace Sys2Proof.Machine

/-! ### The SDRAM engine -/

/-- An initialised SDRAM, as R33 asks of a window's target (R94). -/
def Sdram.live (d : Sdram) : Prop := d.state = .ready ∨ d.state = .powerdown ∨ d.state = .selfRefresh

/-- `x` has the settings of `d` and is initialised where `d` is. -/
structure Sdram.Kept (d x : Sdram) : Prop where
  settings : x.settings = d.settings
  live : d.live → x.live

namespace Sdram.Kept

variable {d x y : Sdram}

theorem refl (d : Sdram) : d.Kept d := ⟨rfl, id⟩

theorem trans (h : d.Kept x) (g : x.Kept y) : d.Kept y := ⟨g.settings.trans h.settings, g.live ∘ h.live⟩

theorem after (g : x.Kept y) (h : d.Kept x) : d.Kept y := h.trans g

theorem of_eq (hsettings : x.settings = d.settings) (hstate : x.state = d.state) : d.Kept x :=
  ⟨hsettings, fun h => by rwa [Sdram.live, hstate]⟩

theorem wake (d : Sdram) (now : Nat) : d.Kept (d.wake now) := by
  unfold Sdram.wake
  split
  · exact ⟨rfl, fun _ => .inl rfl⟩
  · exact refl d

theorem joined (d : Sdram) (now : Nat) : d.Kept (d.joined now) := (wake d now).trans (of_eq rfl rfl)

theorem asleep (d : Sdram) : d.Kept d.asleep := ⟨rfl, fun _ => .inr (.inr rfl)⟩

theorem started (d : Sdram) : d.Kept d.started := ⟨rfl, fun _ => .inl rfl⟩

end Sdram.Kept

/-! ### Steady changes -/

/-- `t` has the windows, the retired-block lists, the profiles and the SDRAM settings of `s`, and its SDRAM is initialised
where that of `s` is. -/
structure State.Steady (s t : State) : Prop where
  windows : t.windows = s.windows
  retired : t.retired = s.retired
  profiles : t.arbiter.profiles = s.arbiter.profiles
  sdram : s.sdram.Kept t.sdram

namespace State.Steady

variable {s t u : State}

theorem refl (s : State) : s.Steady s := ⟨rfl, rfl, rfl, .refl _⟩

theorem trans (h : s.Steady t) (g : t.Steady u) : s.Steady u :=
  ⟨g.windows.trans h.windows, g.retired.trans h.retired, g.profiles.trans h.profiles, h.sdram.trans g.sdram⟩

theorem after (g : t.Steady u) (h : s.Steady t) : s.Steady u := h.trans g

theorem profile (h : s.Steady t) (c : Chip) : t.profile c = s.profile c := by
  simp only [State.profile, h.profiles]

theorem of_eq (hwindows : t.windows = s.windows) (hretired : t.retired = s.retired)
    (hprofiles : t.arbiter.profiles = s.arbiter.profiles) (hsdram : t.sdram = s.sdram) : s.Steady t :=
  ⟨hwindows, hretired, hprofiles, hsdram ▸ .refl _⟩

/-! ### Places in the state -/

theorem setPort (s : State) (p : Port) (u : PortUnit) : s.Steady (s.setPort p u) := of_eq rfl rfl rfl rfl

theorem setEntries (s : State) (p : Port) (es : List Entry) : s.Steady (s.setEntries p es) := of_eq rfl rfl rfl rfl

theorem updateEntry (s : State) (r : Ref) (f : Entry → Entry) : s.Steady (s.updateEntry r f) := setEntries s _ _

theorem setQueue (s : State) (k : Slot) (q : List Ref) : s.Steady (s.setQueue k q) := of_eq rfl rfl rfl rfl

theorem dequeue (s : State) (k : Slot) (r : Ref) : s.Steady (s.dequeue k r) := setQueue s k _

theorem setContext (s : State) (c : Chip) (x : Context) : s.Steady (s.setContext c x) := of_eq rfl rfl rfl rfl

theorem setHealth (s : State) (c : Chip) (h : Health) : s.Steady (s.setHealth c h) := of_eq rfl rfl rfl rfl

theorem setStartup (s : State) (x : Startup) : s.Steady (s.setStartup x) := of_eq rfl rfl rfl rfl

theorem setSdram {d : Sdram} (h : s.sdram.Kept d) : s.Steady (s.setSdram d) := ⟨rfl, rfl, rfl, h⟩

theorem stage (s : State) (l : List Nat) (j : Nat) (d : List Byte) : s.Steady (s.stage l j d) := of_eq rfl rfl rfl rfl

theorem freeEntry (s : State) (r : Ref) : s.Steady (s.freeEntry r) := by
  rw [State.freeEntry_only]
  exact of_eq rfl rfl rfl rfl

/-! ### Ready lists, notices and frames -/

theorem moveNotice (s : State) (p : Port) : s.Steady (s.moveNotice p) := by
  rw [State.moveNotice_only]
  exact of_eq rfl rfl rfl rfl

theorem post (s : State) (p : Port) (x : Notice) : s.Steady (s.post p x) := by
  rw [State.post_only]
  exact of_eq rfl rfl rfl rfl

theorem postBoth (s : State) (x : Notice) : s.Steady (s.postBoth x) := by
  rw [State.postBoth_only]
  exact of_eq rfl rfl rfl rfl

theorem postSome (s : State) (x : Option Notice) : s.Steady (s.postSome x) := by
  cases x with
  | none => exact refl s
  | some n => exact postBoth s n

theorem holdSlot (s : State) (p : Port) : s.Steady (s.holdSlot p) := of_eq rfl rfl rfl rfl

theorem overrun (s : State) (p : Port) : s.Steady (s.overrun p) := by
  rw [State.overrun_only]
  exact of_eq rfl rfl rfl rfl

theorem slotAnswer (s : State) (p : Port) (i : Item) : s.Steady (s.slotAnswer p i) := by
  rw [State.slotAnswer_only]
  exact of_eq rfl rfl rfl rfl

theorem reply (s : State) (p : Port) (token : Byte) (k : CtrlKind) (st : Status) (d : List Byte) :
    s.Steady (s.reply p token k st d) := of_eq rfl rfl rfl rfl

theorem deferredReply (s : State) (d : Option Deferred) (k : CtrlKind) (st : Status) (body : List Byte) :
    s.Steady (s.deferredReply d k st body) := by
  rw [State.deferredReply_only]
  exact of_eq rfl rfl rfl rfl

theorem takeFrame (s : State) (p : Port) (seq : Byte) : s.Steady (s.takeFrame p seq) := by
  rw [State.takeFrame_only]
  exact of_eq rfl rfl rfl rfl

theorem pump (s : State) (p : Port) : s.Steady (s.pump p) := by
  rw [State.pump_only]
  exact of_eq rfl rfl rfl rfl

theorem dropFrame (s : State) (p : Port) (r : DropReason) : s.Steady (s.dropFrame p r) := (setPort s p _).trans (post _ p _)

theorem setRxd (s : State) (p : Port) (level : Bool) : s.Steady (s.setRxd p level) := of_eq rfl rfl rfl rfl

theorem receive (s : State) (p : Port) (c : Byte) : s.Steady (s.receive p c) := by
  unfold State.receive State.judgeFrame
  dsimp only
  split
  · exact refl s
  · exact setPort s p _
  · split_ifs
    · exact dropFrame s p _
    · exact dropFrame s p _
    · exact setPort s p _
    · exact dropFrame s p _
    · exact setPort s p _

theorem character (s : State) (p : Port) (c : Byte) (stop : Bool) : s.Steady (s.character p c stop) := by
  unfold State.character
  split
  · exact refl s
  · exact (setRxd s p stop).trans (receive _ p c)

theorem gapTimeout (s : State) (p : Port) : s.Steady (s.gapTimeout p) := by
  unfold State.gapTimeout
  split
  · exact dropFrame s p _
  · exact refl s

theorem rxdHigh (s : State) (p : Port) : s.Steady (s.rxdHigh p) := by
  unfold State.rxdHigh
  dsimp only
  split
  · exact (setRxd s p true).trans (setPort _ p _)
  · exact setRxd s p true

/-! ### The Request Table -/

theorem finish (s : State) (r : Ref) (st : Status) : s.Steady (s.finish r st) := by
  rw [State.finish_only]
  exact of_eq rfl rfl rfl rfl

theorem retireHead (s : State) (c : Chip) (r : Ref) : s.Steady (s.retireHead c r) := (dequeue s _ r).trans (finish _ r _)

theorem join (s : State) (r : Ref) (k : Slot) : s.Steady (s.join r k) := by
  unfold State.join
  dsimp only
  cases k with
  | sd => exact ((setQueue s _ _).trans (updateEntry _ r _)).trans (setSdram (.joined _ _))
  | chip c =>
    have hu := (setQueue s (.chip c) (s.queue (.chip c) ++ [r])).trans (updateEntry _ r (fun e => { e with state := .queued }))
    dsimp only
    split
    · exact hu.trans (retireHead _ c _)
    · exact hu

theorem releaseHeld (s : State) (p : Port) (e : Entry) : s.Steady (s.releaseHeld p e) := by
  unfold State.releaseHeld
  split
  · exact join s _ _
  · exact finish s _ _

theorem evalFencesFuel (p : Port) : ∀ (n : Nat) (s : State), s.Steady (State.evalFencesFuel n s p)
  | 0, s => refl s
  | n + 1, s => by
    unfold State.evalFencesFuel
    split
    · exact (releaseHeld s p _).trans (evalFencesFuel p n _)
    · exact refl s

theorem evalFences (s : State) (p : Port) : s.Steady (s.evalFences p) := evalFencesFuel p _ s

theorem complete (s : State) (r : Ref) (st : Status) : s.Steady (s.complete r st) := by
  unfold State.complete
  split
  · exact refl s
  · split
    · exact finish s r st
    · exact (finish s r st).trans (evalFences _ _)

theorem examineFuel (c : Chip) : ∀ (n : Nat) (s : State), s.Steady (State.examineFuel n s c)
  | 0, s => refl s
  | n + 1, s => by
    unfold State.examineFuel
    split
    · exact ((retireHead s c _).trans (evalFences _ _)).trans (examineFuel c n _)
    · exact refl s

theorem examine (s : State) (c : Chip) : s.Steady (s.examine c) := examineFuel c _ s

theorem examineHeads (s : State) : s.Steady s.examineHeads :=
  (((examine s .s1).trans (examine _ .s2)).trans (examine _ .s3)).trans (examine _ .s4)

theorem flushList (k : Slot) : ∀ (l : List Ref) (s : State), s.Steady (s.flushList k l)
  | [], s => refl s
  | r :: l, s => by
    unfold State.flushList
    refine after (flushList k l _) ?_
    split
    · exact (dequeue s k r).trans (finish _ r _)
    · exact refl s

theorem flush (s : State) (k : Slot) : s.Steady (s.flush k) := by
  have hfences : ∀ (b : Bool) (p : Port) (u : State), u.Steady (if b then u.evalFences p else u) := fun b p u => by
    cases b
    · exact refl u
    · exact evalFences u p
  exact ((flushList k _ s).trans (hfences _ .a _)).trans (hfences _ .b _)

theorem create (s : State) (e : Entry) (data : List Byte) : s.Steady (s.create e data) := by
  have happ : s.Steady (s.appended e data) := of_eq rfl rfl rfl rfl
  rw [State.create_eq]
  split
  · exact happ
  · exact happ.trans (join _ _ _)

theorem dealRequest (s : State) (k : ReqKind) (p : Port) (d : List Byte) : s.Steady (s.dealRequest k p d) := by
  unfold State.dealRequest State.admitRequest
  split
  · exact slotAnswer s p _
  · exact slotAnswer s p _
  · split
    · exact slotAnswer s p _
    · split
      · exact create s _ _
      · exact slotAnswer s p _

theorem cancelEntry (s : State) (e : Entry) : s.Steady (s.cancelEntry e) := by
  have hcomplete : s.Steady ((if e.state = .queued then s.dequeue e.slot e.ref else s).complete e.ref .cancelled) := by
    split
    · exact (dequeue s _ _).trans (complete _ _ _)
    · exact complete s _ _
  unfold State.cancelEntry
  dsimp only
  split
  · exact hcomplete.trans (examine _ _)
  · exact hcomplete

/-! ### Grants and tenure ends -/

theorem beginNandHead (s : State) (c : Chip) (r : Ref) (e : Entry) : s.Steady (s.beginNandHead c r e).1 := by
  have hu := (dequeue s (.chip c) r).trans (updateEntry _ r Entry.activate)
  unfold State.beginNandHead
  dsimp only
  split <;> exact hu.trans (of_eq rfl rfl rfl rfl)

theorem beginNand (s : State) (c : Chip) : s.Steady (s.beginNand c).1 := by
  have hunload : ∀ x, s.Steady (s.beginUnload c x).1 := fun x => by
    rw [State.beginUnload_only]
    exact of_eq rfl rfl rfl rfl
  unfold State.beginNand
  dsimp only
  split
  · split
    · exact setContext s c _
    · split
      · split
        · exact beginNandHead s c _ _
        · exact refl s
      · exact refl s
  · split <;> exact of_eq rfl rfl rfl rfl
  · split
    · exact hunload _
    · exact setContext s c _
  · exact hunload _
  · exact refl s
  · exact refl s
  · exact refl s

theorem beginSd (s : State) : s.Steady s.beginSd.1 := by
  have hentry : s.Steady s.beginSdEntry.1 := by
    rw [State.beginSdEntry_only]
    exact of_eq rfl rfl rfl rfl
  unfold State.beginSd State.beginRefresh
  split_ifs
  · exact refl s
  · exact refl s
  · exact refl s
  · exact setSdram (.of_eq rfl rfl)
  · exact hentry
  · exact setSdram (.of_eq rfl rfl)
  · exact refl s
  · exact setSdram (.of_eq rfl rfl)

theorem beginOn (s : State) (k : Slot) : s.Steady (s.beginOn k).1 := by
  unfold State.beginOn
  split
  · split
    · exact beginNand s _
    · rw [State.beginStatic_only]
      exact of_eq rfl rfl rfl rfl
  · exact beginSd s

theorem grant (s : State) : s.Steady s.grant := by
  unfold State.grant
  split
  · exact refl s
  · split
    · next k _ => exact (beginOn s k).trans (of_eq rfl rfl rfl rfl)
    · exact refl s

theorem settle (s : State) : s.Steady s.settle := ((pump s .a).trans (pump _ .b)).trans (grant _)

theorem endTenure (s : State) (w : Bool) (cs : List BusCycle) : s.Steady (s.endTenure w cs) := by
  unfold State.endTenure
  split
  · exact refl s
  · refine ⟨rfl, rfl, rfl, ?_⟩
    dsimp only
    split
    · exact .of_eq rfl rfl
    · exact .refl _

theorem endSd (s : State) (w : Bool) (x : SdTrace) : s.Steady (s.endSd w x) :=
  (endTenure _ _ _).after (setSdram (.of_eq rfl rfl))

theorem endWork (s : State) (e : Entry) (st : Status) : s.Steady (s.endWork e st) :=
  (dequeue s _ _).trans (complete _ _ _)

theorem moveChunk (s : State) (t : Tenure) (e : Entry) (xs : List Sample) : s.Steady (s.moveChunk t e xs) := by
  have hstage : ∀ w, s.Steady (s.stageChunk e w xs) := fun w => by
    unfold State.stageChunk
    split
    · exact refl s
    · exact stage s _ _ _
  unfold State.moveChunk
  dsimp only
  split
  · exact (hstage _).trans (endTenure _ _ _)
  · exact ((hstage _).trans (endSd _ _ _)).trans (setSdram (.of_eq rfl rfl))

theorem chunkEnd (s : State) (xs : List Sample) : s.Steady (s.chunkEnd xs) := by
  unfold State.chunkEnd
  dsimp only
  split
  · next t e _ =>
    have hu := (moveChunk s t e xs).trans (updateEntry _ e.ref
      (fun x => { x with progress := some (e.moved + e.chunkLength) }))
    split
    · exact hu.trans (endWork _ _ _)
    · exact hu
  · exact refl s

theorem atomicEnd (s : State) (xs : List Sample) : s.Steady (s.atomicEnd xs) := by
  unfold State.atomicEnd
  split
  · next t e _ =>
    have hmove : s.Steady (s.moveAtomic t e xs) := by
      unfold State.moveAtomic
      dsimp only
      split
      · exact (stage s _ _ _).trans (endTenure _ _ _)
      · exact ((stage s _ _ _).trans (endSd _ _ _)).trans (setSdram (.of_eq rfl rfl))
    exact (hmove.trans (updateEntry _ _ _)).trans (endWork _ _ _)
  · exact refl s

theorem stall (s : State) (c : Chip) (e : Entry) (k : Nat) (xs : List Sample) : s.Steady (s.stall c e k xs) := by
  have hstage : s.Steady ((s.setHealth c .stalled).stageWaited (s.profile c) e k xs) := by
    refine (setHealth s c .stalled).trans ?_
    unfold State.stageWaited
    split
    · exact refl _
    · exact stage _ _ _ _
  have hgrant := (hstage.trans (endTenure _ (s.waitCycles (s.profile c) e k xs).1
    (s.waitCycles (s.profile c) e k xs).2)).trans (grant _)
  exact (((hgrant.trans (updateEntry _ _ _)).trans (endWork _ e .busTimeout)).trans (flush _ _)).trans (postBoth _ _)

theorem waitLimit (s : State) (k : Nat) (xs : List Sample) : s.Steady (s.waitLimit k xs) := by
  unfold State.waitLimit
  split
  · split
    · exact stall s _ _ _ _
    · exact refl s
  · exact refl s

/-! ### Start-up -/

theorem tryRun (s : State) : s.Steady s.tryRun := by
  unfold State.tryRun
  dsimp only
  split
  · split <;> exact setStartup s _
  · exact refl s

theorem copyEnded (s : State) (l : Load) (x : CopyReason) : s.Steady (s.copyEnded l x) := by
  unfold State.copyEnded
  dsimp only
  split
  · exact (setStartup s _).trans (tryRun _)
  · split
    · exact (setStartup s _).trans (tryRun _)
    · exact setStartup s _

theorem countApplied (s : State) : s.Steady s.countApplied := setStartup s _

theorem countSkipped (s : State) (n index : Nat) : s.Steady (s.countSkipped n index) := setStartup s _

theorem advanceWalk (s : State) (size : Nat) : s.Steady (s.advanceWalk size) := by
  unfold State.advanceWalk
  split
  · exact refl s
  · exact setStartup s _

theorem walkUnknown (s : State) : s.Steady s.walkUnknown := by
  unfold State.walkUnknown
  split
  · exact refl s
  · split
    · exact ((countSkipped s _ _).trans (setStartup _ _)).trans (tryRun _)
    · split
      · exact ((countSkipped s _ _).trans (advanceWalk _ _)).trans (tryRun _)
      · exact refl s

theorem applyPorts (s : State) (e : NextEntry) : s.Steady (s.applyPorts e) := by
  unfold State.applyPorts
  split
  · exact ((setPort s .a _).trans (setPort _ .b _)).trans (countApplied _)
  · exact countSkipped s _ _

theorem supersede (s : State) (index : Nat) : s.Steady (s.supersede index) := by
  unfold State.supersede
  split
  · exact (countSkipped s _ _).trans (setStartup _ _)
  · exact refl s

theorem loadChunkEnd (s : State) (xs : List Sample) : s.Steady (s.loadChunkEnd xs) := by
  unfold State.loadChunkEnd
  dsimp only
  split
  · have hu := fun cs x => (endTenure s false cs).trans (setStartup _ x)
    split
    · exact hu _ _
    · exact (hu _ _).trans (copyEnded _ _ _)
  · exact refl s

/-! ### NAND slots -/

theorem idleContext (s : State) (c : Chip) : s.Steady (s.idleContext c) := (setContext s c _).trans (examine _ c)

theorem endOperation (s : State) (c : Chip) (r : Ref) (st : Status) : s.Steady (s.endOperation c r st) :=
  (complete s r st).trans (idleContext _ c)

theorem loadResetDone (s : State) : s.Steady s.loadResetDone := by
  have hu := setContext s .s1 Context.idle
  unfold State.loadResetDone
  dsimp only
  split
  · split
    · exact hu.trans (copyEnded _ _ _)
    · exact hu.trans (setStartup _ _)
  · exact hu

theorem endClear (s : State) (c : Chip) (h : Health) (st : Status) : s.Steady (s.endClear c h st) :=
  ((setHealth s c h).trans (setContext _ c _)).trans (deferredReply _ _ _ _ _)

theorem takeRise (s : State) (c : Chip) : s.Steady (s.takeRise c) := by
  unfold State.takeRise
  split
  · split
    · exact loadResetDone s
    · exact idleContext s c
  · exact endClear s c _ _
  · exact setContext s c _

theorem setReady (s : State) (c : Chip) (level : Bool) : s.Steady (s.setReady c level) := of_eq rfl rfl rfl rfl

theorem arm (s : State) (c : Chip) (limit : Nat) (ready : Bool) : s.Steady (s.arm c limit ready) := by
  have hu := (setReady s c ready).trans (setContext _ c
    { (s.setReady c ready).context c with timer := some ⟨limit, 0⟩, readySeen := false })
  unfold State.arm
  dsimp only
  split
  · exact hu.trans (takeRise _ c)
  · exact hu

theorem readyRise (s : State) (c : Chip) : s.Steady (s.readyRise c) := by
  unfold State.readyRise
  dsimp only
  split
  · exact (setReady s c true).trans (takeRise _ c)
  · exact setReady s c true

theorem commandEnd (s : State) (ready : Bool) : s.Steady (s.commandEnd ready) := by
  unfold State.commandEnd
  dsimp only
  split
  · exact refl s
  · split <;> exact (endTenure s _ _).trans (arm _ _ _ _)

theorem loadingEnd (s : State) (ready : Bool) : s.Steady (s.loadingEnd ready) := by
  unfold State.loadingEnd
  dsimp only
  split
  · exact refl s
  · split
    · exact refl s
    · have hu := fun cs r x c => ((endTenure s true cs).trans (updateEntry _ r Entry.sectorDone)).trans (setContext _ c x)
      split
      · exact (hu _ _ _ _).trans (arm _ _ _ _)
      · exact hu _ _ _ _

theorem setEcc (s : State) (n : Nat) (x : EccUnit) : s.Steady { s with fresh := n, ecc := x } := of_eq rfl rfl rfl rfl

theorem loadSectorEnd (s : State) (l : Load) (raw : List Byte) : s.Steady (s.loadSectorEnd l raw) :=
  ((((endTenure s _ _).trans (setContext _ .s1 _)).trans (setEcc _ _ _)).trans (setStartup _ _)).trans (copyEnded _ _ _)

/-- A sector's bytes and result reach the entry and its context (R125). -/
theorem sectorUnloaded (s : State) (l : List Nat) (j : Nat) (d : List Byte) (r : Ref) (f : Entry → Entry) (c : Chip)
    (x : Context) : s.Steady (((s.stage l j d).updateEntry r f).setContext c x) :=
  ((stage s l j d).trans (updateEntry _ r f)).trans (setContext _ c x)

theorem unloadingEnd (s : State) (bytes : List Byte) : s.Steady (s.unloadingEnd bytes) := by
  unfold State.unloadingEnd
  dsimp only
  split
  · exact refl s
  · split
    · have hu := fun cs n x => (endTenure s false cs).trans (setEcc _ n x)
      split
      · exact ((hu _ _ _).trans (sectorUnloaded _ _ _ _ _ _ _ _)).trans (endOperation _ _ _ _)
      · exact (hu _ _ _).trans (sectorUnloaded _ _ _ _ _ _ _ _)
    · split
      · exact loadSectorEnd s _ _
      · exact refl s
    · exact refl s

theorem idEnd (s : State) (bytes : List Byte) : s.Steady (s.idEnd bytes) := by
  unfold State.idEnd
  dsimp only
  split
  · exact refl s
  · split
    · exact refl s
    · exact ((stage s _ _ _).trans (endTenure _ _ _)).trans (endOperation _ _ _ _)

theorem resetEnd (s : State) (ready : Bool) : s.Steady (s.resetEnd ready) := by
  unfold State.resetEnd
  dsimp only
  split
  · exact refl s
  · exact ((endTenure s _ _).trans (setContext _ _ _)).trans (arm _ _ _ _)

theorem busyTimeout (s : State) (c : Chip) : s.Steady (s.busyTimeout c) := by
  unfold State.busyTimeout
  dsimp only
  split
  · exact ((complete s _ _).trans (setContext _ c _)).trans (post _ _ _)
  · exact refl s

theorem recoveryExpiry (s : State) (c : Chip) : s.Steady (s.recoveryExpiry c) := by
  unfold State.recoveryExpiry
  dsimp only
  split
  · exact (((setHealth s c _).trans (setContext _ c _)).trans (flush _ _)).trans (postBoth _ _)
  · exact refl s

theorem clearExpiry (s : State) (c : Chip) : s.Steady (s.clearExpiry c) := by
  unfold State.clearExpiry
  split
  · exact endClear s c _ _
  · exact refl s

theorem loadTimeout (s : State) : s.Steady s.loadTimeout := by
  unfold State.loadTimeout
  dsimp only
  split
  · split
    · exact loadResetDone s
    · exact ((setContext s .s1 _).trans (setStartup _ _)).trans (postBoth _ _)
    · exact refl s
  · exact refl s

/-! ### SDRAM events -/

theorem wakeIfDue (s : State) : s.Steady s.wakeIfDue := by
  unfold State.wakeIfDue
  split
  · exact setSdram (.wake _ _)
  · exact refl s

theorem refreshExpiry (s : State) : s.Steady s.refreshExpiry := by
  unfold State.refreshExpiry
  dsimp only
  split
  · exact refl s
  · split
    · exact setSdram (.after (.wake _ _) (.of_eq rfl rfl))
    · exact (postBoth _ _).after (setSdram (.of_eq rfl rfl))

theorem refreshRoundEnd (s : State) : s.Steady s.refreshRoundEnd := by
  unfold State.refreshRoundEnd
  split
  · exact endSd s _ _
  · exact refl s

theorem enterPowerDown (s : State) : s.Steady s.enterPowerDown := by
  unfold State.enterPowerDown
  split
  · exact setSdram ⟨rfl, fun _ => .inr (.inl rfl)⟩
  · exact refl s

theorem selfRefreshReached (s : State) : s.Steady s.selfRefreshReached := by
  unfold State.selfRefreshReached
  dsimp only
  split
  · exact (wakeIfDue _).after (setSdram (.of_eq rfl rfl))
  · exact refl s

theorem selfRefreshEntryEnd (s : State) : s.Steady s.selfRefreshEntryEnd := by
  unfold State.selfRefreshEntryEnd
  dsimp only
  split
  · split
    · exact ((endSd s _ _).trans (setSdram (.asleep _))).trans (deferredReply _ _ _ _ _)
    · exact endSd s _ _
  · exact refl s

theorem selfRefreshExitEnd (s : State) : s.Steady s.selfRefreshExitEnd := by
  unfold State.selfRefreshExitEnd
  dsimp only
  split
  · split
    · exact (endSd s _ _).trans (setSdram (.trans (.started _) (.of_eq rfl rfl)))
    · exact endSd s _ _
  · exact refl s

theorem stabilised (s : State) : s.Steady s.stabilised := by
  unfold State.stabilised
  split
  · exact setSdram (.of_eq rfl rfl)
  · exact refl s

theorem prechargeStepEnd (s : State) : s.Steady s.prechargeStepEnd := by
  unfold State.prechargeStepEnd
  split
  · exact (endSd s _ _).trans (setSdram (.of_eq rfl rfl))
  · exact refl s

theorem refreshStepEnd (s : State) : s.Steady s.refreshStepEnd := by
  unfold State.refreshStepEnd
  split
  · exact (endSd s _ _).trans (setSdram (.of_eq rfl rfl))
  · exact refl s

/-! ### Control messages -/

theorem winGetAct (s : State) (p : Port) (d : List Byte) : s.Steady (s.winGetAct p d) := by
  unfold State.winGetAct
  split <;> exact reply s p _ _ _ _

theorem slotGetAct (s : State) (p : Port) (d : List Byte) : s.Steady (s.slotGetAct p d) := by
  unfold State.slotGetAct
  split <;> exact reply s p _ _ _ _

theorem slotClearAct (s : State) (p : Port) (d : List Byte) : s.Steady (s.slotClearAct p d) := by
  unfold State.slotClearAct State.beginClear
  dsimp only
  split
  · exact reply s p _ _ _ _
  · split
    · split
      · exact reply s p _ _ _ _
      · exact reply s p _ _ _ _
      · exact ((setHealth s _ _).trans (setContext _ _ _)).trans (holdSlot _ p)
    · exact (setHealth s _ _).trans (reply _ p _ _ _ _)

theorem sdrSleepAct (s : State) (p : Port) (d : List Byte) : s.Steady (s.sdrSleepAct p d) := by
  have hsleep : s.Steady (if s.sdram.sleepPending || !(s.queue .sd).isEmpty then s.reply p (answerToken d) .sdrSleep .busy []
      else ((s.setSdram { s.sdram with sleepPending := true, sleepReply := some ⟨p, answerToken d⟩ }).holdSlot
        p).wakeIfDue) := by
    split
    · exact reply s p _ _ _ _
    · exact (wakeIfDue _).after ((holdSlot _ p).after (setSdram (.of_eq rfl rfl)))
  unfold State.sdrSleepAct
  dsimp only
  split
  · exact reply s p _ _ _ _
  · exact reply s p _ _ _ _
  · exact reply s p _ _ _ _
  · exact hsleep
  · exact hsleep

theorem retireListAct (s : State) (p : Port) (d : List Byte) : s.Steady (s.retireListAct p d) := by
  unfold State.retireListAct
  split <;> exact reply s p _ _ _ _

theorem cancelAct (s : State) (p : Port) (d : List Byte) : s.Steady (s.cancelAct p d) := by
  unfold State.cancelAct
  dsimp only
  split
  · exact reply s p _ _ _ _
  · split
    · exact (cancelEntry s _).trans (reply _ p _ _ _ _)
    · exact (cancelEntry s _).trans (reply _ p _ _ _ _)
    · exact reply s p _ _ _ _
    · exact reply s p _ _ _ _
    · exact reply s p _ _ _ _

theorem bridgeResetAct (s : State) (p : Port) (d : List Byte) : s.Steady (s.bridgeResetAct p d) := by
  unfold State.bridgeResetAct
  split
  · exact (reply _ p _ _ _ _).after (of_eq rfl rfl rfl rfl)
  · exact reply s p _ _ _ _

/-- What meets a control message before its owner is an answer or an overrun (R173, R174). -/
theorem stopped {k : CtrlKind} {p : Port} {d : List Byte} (h : s.stopped k p d = some u) : s.Steady u := by
  unfold State.stopped at h
  split_ifs at h <;> obtain rfl := Option.some.inj h
  · exact overrun s p
  · exact reply s p _ _ _ _
  · exact reply s p _ _ _ _

theorem dealHello (s : State) (p : Port) (seq : Byte) (d : List Byte) : s.Steady (s.dealHello p seq d) := by
  unfold State.dealHello State.dealControl
  split
  · split
    · exact slotAnswer s p _
    · split
      · exact (setPort s p _).trans (reply _ p _ _ _ _)
      · exact overrun s p
  · split
    · exact slotAnswer s p _
    · exact slotAnswer s p _
    · split
      · next h => exact stopped h
      · exact reply s p _ _ _ _

/-- A port reset's own part ends with the notice to the other port (R180). -/
theorem cleared (s : State) (p : Port) (cause : PortStart) (n : Notice) :
    s.Steady ((s.cleared p cause).post p.other n) := by
  have hown : s.Steady (s.cleared p cause) := ⟨rfl, rfl, rfl, .of_eq rfl rfl⟩
  exact hown.trans (post _ _ n)

theorem tick (s : State) : s.Steady s.tick := by
  have hcounts : s.Steady { s with now := s.now + 1, ports := ⟨s.ports.a.tick, s.ports.b.tick⟩, sdram := s.sdram.tick } :=
    ⟨rfl, rfl, rfl, .of_eq rfl rfl⟩
  unfold State.tick
  dsimp only
  split
  · exact hcounts.trans ⟨rfl, rfl, rfl, .of_eq rfl rfl⟩
  · exact hcounts

end State.Steady

end Sys2Proof.Machine
end

section
/-! The writers of windows, profiles, SDRAM settings and retired-block lists: a condition that is kept by steady changes and
by each writer is kept by every command and by every step. -/
namespace Sys2Proof.Machine

/-! ### The retirement of a failed operation's block -/

/-- Only the list changes. -/
theorem State.autoRetire_only (s : State) (c : Chip) (b : Nat) :
    (s.autoRetire c b).1 = { s with retired := (s.autoRetire c b).1.retired } := by
  unfold State.autoRetire
  split_ifs <;> rfl

/-- The end of the tenure does not bear on the retirement (R142). -/
theorem State.Steady.autoRetire_endTenure (s : State) (w : Bool) (cs : List BusCycle) (c : Chip) (b : Nat) :
    (s.autoRetire c b).1.Steady ((s.endTenure w cs).autoRetire c b).1 := by
  unfold State.autoRetire
  rw [State.endTenure_retired]
  split
  · exact .endTenure s w cs
  · split
    · obtain ⟨hwindows, hretired, hprofiles, hsdram⟩ := State.Steady.endTenure s w cs
      exact ⟨hwindows, by simp [State.addRetired], hprofiles, hsdram⟩
    · exact .endTenure s w cs

/-! ### The writers -/

/-- The commands at which the window table may be written, but for the full resets (R30, R31, R193). -/
def State.WritesWindows (s : State) (i : Instr) : Prop :=
  (∃ p seq d, i = .winSet p seq d ∧ s.Serves p ∧ (s.port p).config = true) ∨ i = .setupWindowEntry ∨ i = .modeStepEnd

/-- The writers. `P` is the condition they keep; a window is written only where `W` allows it and a full reset with a cause is
taken only where `R` allows it; `K` is what `P` needs besides at the retirement of a failed operation's block. -/
structure WriterOps (W : Prop) (R : Cause → Prop) (K P : State → Prop) : Prop where
  steady : ∀ {s t : State}, P s → s.Steady t → P t
  window : ∀ {s : State} {index : Nat} {d : List Byte} {w : Window}, W → P s → s.judgeWindow index d = .ok w →
    P (s.setWindow index w)
  slot : ∀ {s : State} {code : Byte} {d : List Byte} {c : Chip} {f : Profile}, P s → s.judgeSlot code d = .ok (c, f) →
    P (s.applySlot c f)
  sdram : ∀ {s : State} {d : List Byte} {g : Settings} (reply : Option Deferred), P s → s.judgeSdr d = .ok g →
    P (s.applySdr g reply)
  insert : ∀ {s : State} {code : Byte} {c : Chip} {b : Nat}, P s → s.judgeRetire code b = .ok c → b ∉ s.retired.get c →
    P (s.addRetired c b)
  failed : ∀ {s : State} {c : Chip} {e : Entry}, K s → P s → s.contextEntry c = some e → P (s.autoRetire c e.block).1
  drop : ∀ {s : State} (c : Chip) (b : Nat), P s → P (s.setRetired c ((s.retired.get c).filter (fun x => x != b)))
  reset : ∀ {s : State} {cause : Cause} (pins : Pins), R cause → P (s.fullReset cause pins)

namespace WriterOps

variable {W : Prop} {R : Cause → Prop} {K P : State → Prop} {s : State}

/-! ### Message rows -/

/-- A control message: what its owner makes of it, on a port that is served and has the right where it is needed. -/
theorem takeControl (h : WriterOps W R K P) (k : CtrlKind) (p : Port) (seq : Byte) (d : List Byte) {owner : State → State}
    (hs : P s) (howner : ∀ {u : State}, P u → s.Serves p → (k.needsRight = true → (s.port p).config = true) →
      P (owner u)) : P (s.takeControl k p seq d owner).settle := by
  refine h.steady ?_ (.settle _)
  have hu := h.steady hs (.takeFrame s p seq)
  have hstand := s.takeFrame_standing p p seq
  unfold State.takeControl State.takeMessage
  split
  · exact hs
  · unfold State.dealControl
    dsimp only
    split
    · exact h.steady hu (.slotAnswer _ p _)
    · exact h.steady hu (.slotAnswer _ p _)
    · next htop hport =>
      split
      · next hstop => exact h.steady hu (.stopped hstop)
      · next hstop =>
        refine howner hu ⟨by rw [← htop, State.takeFrame_startup], by rw [← hport, hstand.state]⟩ fun hk => ?_
        unfold State.stopped at hstop
        split_ifs at hstop with _ _ hright
        simpa [hk, hstand.config] using hright

theorem takeControl_steady (h : WriterOps W R K P) (k : CtrlKind) (p : Port) (seq : Byte) (d : List Byte)
    {owner : State → State} (hs : P s) (howner : ∀ u : State, u.Steady (owner u)) :
    P (s.takeControl k p seq d owner).settle :=
  h.takeControl k p seq d hs fun hu _ _ => h.steady hu (howner _)

theorem takeMessage_steady (h : WriterOps W R K P) {p : Port} {kind seq : Byte} {d : List Byte} {deal : State → State}
    (hs : P s) (hdeal : ∀ u : State, u.Steady (deal u)) : P (s.takeMessage p kind seq d deal).settle := by
  refine h.steady hs (.after (.settle _) ?_)
  unfold State.takeMessage
  split
  · exact .refl s
  · exact (State.Steady.takeFrame s p seq).trans (hdeal _)

theorem winSetAct (h : WriterOps W R K P) (p : Port) (d : List Byte) (hW : W) (hs : P s) : P (s.winSetAct p d) := by
  unfold State.winSetAct
  dsimp only
  split
  · next hj => exact h.steady (h.window hW hs hj) (.reply _ p _ _ _ _)
  · exact h.steady hs (.reply s p _ _ _ _)

theorem slotSetAct (h : WriterOps W R K P) (p : Port) (d : List Byte) (hs : P s) : P (s.slotSetAct p d) := by
  unfold State.slotSetAct
  split
  · next hj => exact h.steady (h.slot hs hj) (.reply _ p _ _ _ _)
  · exact h.steady hs (.reply s p _ _ _ _)

theorem sdrSetAct (h : WriterOps W R K P) (p : Port) (d : List Byte) (hs : P s) : P (s.sdrSetAct p d) := by
  unfold State.sdrSetAct
  split
  · next hj => exact h.steady (h.sdram _ hs hj) (.holdSlot _ p)
  · exact h.steady hs (.reply s p _ _ _ _)

theorem retireAddAct (h : WriterOps W R K P) (p : Port) (d : List Byte) (hs : P s) : P (s.retireAddAct p d) := by
  unfold State.retireAddAct
  dsimp only
  split
  · next hj =>
    refine h.steady ?_ (.reply _ p _ _ _ _)
    split
    · exact hs
    · next hb => exact h.steady (h.insert hs hj hb) (.examine _ _)
  · exact h.steady hs (.reply s p _ _ _ _)

theorem retireDropAct (h : WriterOps W R K P) (p : Port) (d : List Byte) (hs : P s) : P (s.retireDropAct p d) := by
  unfold State.retireDropAct
  dsimp only
  split
  · exact h.steady hs (.reply s p _ _ _ _)
  · split
    · exact h.steady (h.drop _ _ hs) (.reply _ p _ _ _ _)
    · exact h.steady hs (.reply s p _ _ _ _)

/-! ### Resets of a port -/

/-- A port reset carries out the port's pending bridge reset as a full reset (R180, R181). -/
theorem portResetStep (h : WriterOps W R K P) {p : Port} (cause : PortStart)
    (hR : s.bridgeReset = some p → R (.message p)) (hs : P s) : P (s.portResetStep p cause) := by
  refine h.steady ?_ (.examineHeads _)
  rw [State.portReset_eq]
  split
  · next hb => exact h.reset _ (hR hb)
  · exact h.steady hs (.cleared s p cause _)

theorem takePortReset (h : WriterOps W R K P) (p : Port) (seq : Byte) (d : List Byte)
    (hR : s.Takes p CtrlKind.portReset.code seq d → s.Serves p → d ≠ [] → s.bridgeReset = some p → R (.message p))
    (hs : P s) : P (s.takePortReset p seq d).settle := by
  refine h.steady ?_ (.settle _)
  have hu := h.steady hs (.takeFrame s p seq)
  unfold State.takePortReset
  by_cases hturn : s.Takes p CtrlKind.portReset.code seq d
  · rw [State.takeMessage_in_turn hturn]
    unfold State.dealPortReset
    split
    · exact h.steady hu (.slotAnswer _ p _)
    · exact h.steady hu (.slotAnswer _ p _)
    · next htop hport =>
      split
      · exact h.steady hu (.slotAnswer _ p _)
      · next hd =>
        rw [State.takeFrame_startup] at htop
        rw [(s.takeFrame_standing p p seq).state] at hport
        exact h.portResetStep _ (fun hb => hR hturn ⟨htop, hport⟩ hd (s.takeFrame_bridgeReset p seq ▸ hb)) hu
  · rw [State.takeMessage_out_of_turn hturn]
    exact hs

theorem breakTaken (h : WriterOps W R K P) (p : Port)
    (hR : (s.port p).state = .up → (s.port p).receiver ≠ .inBreak → s.bridgeReset = some p → R (.message p))
    (hs : P s) : P (s.breakTaken p) := by
  unfold State.breakTaken
  dsimp only
  split
  · exact hs
  · next hbreak =>
    have hlow := h.steady (h.steady hs (.setRxd s p false)) (.setPort _ p
      { (s.setRxd p false).port p with receiver := .inBreak })
    split
    · next hup =>
      rw [State.port_setPort, if_pos rfl] at hup
      exact h.portResetStep _ (hR hup hbreak) hlow
    · exact hlow

theorem frameSent (h : WriterOps W R K P) (p : Port)
    (hR : (s.port p).tx ≠ none → (∃ token body rest, (s.port p).ready = .ctrl token .bridgeReset .ok body :: rest) →
      s.bridgeReset = some p → R (.message p)) (hs : P s) : P (s.frameSent p) := by
  unfold State.frameSent
  split
  · next x i rest htx hready =>
    have hrest := h.steady hs (.setPort s p { s.port p with tx := none, ready := rest })
    cases i with
    | entryReply tag => exact h.steady hrest (.freeEntry _ _)
    | refusal tag st => exact h.steady hrest (.setPort _ p _)
    | notice n x => exact h.steady hrest (.after (.moveNotice _ p) (.of_eq rfl rfl rfl rfl))
    | ctrl token k st body =>
      unfold State.itemSent
      dsimp only
      split
      · next hb =>
        obtain ⟨rfl, rfl, hb⟩ := hb
        exact h.reset _ (hR (by simp [htx]) ⟨token, body, rest, hready⟩ hb)
      · exact h.steady hrest (.setPort _ p _)
  · exact hs

/-! ### The end of a status tenure, and the walk of the setup record -/

theorem statusEnd (h : WriterOps W R K P) (b : Byte) (hk : K s) (hs : P s) : P (s.statusEnd b) := by
  unfold State.statusEnd
  dsimp only
  split
  · exact hs
  · split
    · exact hs
    · next hce =>
      split
      · exact h.steady (h.steady (h.failed hk hs hce) (.autoRetire_endTenure s _ _ _ _))
          (.after (.postSome _ _) (.endOperation _ _ _ _))
      · exact h.steady hs (.after (.endOperation _ _ _ _) (.endTenure s _ _))

theorem walkStep (h : WriterOps W R K P) (t : EntryType) {apply : State → NextEntry → State} (hs : P s)
    (happly : ∀ e, P (apply s e)) : P (s.walkStep t apply).settle := by
  refine h.steady ?_ (.settle _)
  unfold State.walkStep
  dsimp only
  split
  · exact hs
  · split
    · exact hs
    · refine h.steady ?_ (.after (.tryRun _) (.advanceWalk _ _))
      split
      · exact happly _
      · exact h.steady hs (.countSkipped s _ _)

theorem applySlotEntry (h : WriterOps W R K P) (e : NextEntry) (hs : P s) : P (s.applySlotEntry e) := by
  unfold State.applySlotEntry
  split
  · next hj => exact h.steady (h.slot hs hj) (.countApplied _)
  · exact h.steady hs (.countSkipped s _ _)

theorem applySdramEntry (h : WriterOps W R K P) (e : NextEntry) (hs : P s) : P (s.applySdramEntry e) := by
  unfold State.applySdramEntry
  split
  · next hj => exact h.steady (h.sdram none hs hj) (.countApplied _)
  · exact h.steady hs (.countSkipped s _ _)

theorem applyWindowBlock (h : WriterOps W R K P) (hW : W) (entry index : Nat) (d : List Byte) (hs : P s) :
    P (s.applyWindowBlock entry index d) := by
  unfold State.applyWindowBlock
  split
  · next hj => exact h.steady (h.window hW hs hj) (.countApplied _)
  · exact h.steady hs (.countSkipped s _ _)

theorem applyWindowEntry (h : WriterOps W R K P) (hW : W) (e : NextEntry) (hs : P s) : P (s.applyWindowEntry e) := by
  have hu := h.steady hs (.supersede s (at8 e.bytes 2).toNat)
  unfold State.applyWindowEntry
  dsimp only
  split
  · exact h.steady hu (.setStartup _ _)
  · exact h.applyWindowBlock hW _ _ _ hu

theorem applyDeferred (h : WriterOps W R K P) (hW : W) (hs : P s) : P s.applyDeferred := by
  have all : ∀ (l : List DeferredWindow) {u : State}, P u →
      P (l.foldl (fun u x => u.applyWindowBlock x.entry x.index x.block) u) := fun l => by
    induction l with
    | nil => exact id
    | cons x l ih => exact fun hu => ih (h.applyWindowBlock hW _ _ _ hu)
  exact h.steady (all _ hs) (.setStartup _ _)

theorem settleStartup (h : WriterOps W R K P) (hW : W) (hs : P s) : P s.settleStartup := by
  unfold State.settleStartup
  split
  · exact h.steady (h.applyDeferred hW hs) (.tryRun _)
  · exact hs

theorem modeStepEnd (h : WriterOps W R K P) (hW : W) (hs : P s) : P s.modeStepEnd := by
  unfold State.modeStepEnd
  dsimp only
  split
  · refine h.settleStartup hW (h.steady hs (.after (.deferredReply _ _ _ _ _) ?_))
    exact .after (.setSdram ⟨rfl, fun _ => .inl rfl⟩) (.endSd s _ _)
  · exact hs

theorem applyRetireBlocks (h : WriterOps W R K P) (code : Byte) : ∀ (l : List Nat) {s : State}, P s →
    P (s.applyRetireBlocks code l).1
  | [], _, hs => hs
  | b :: l, s, hs => by
    unfold State.applyRetireBlocks
    split
    · next hj =>
      refine h.applyRetireBlocks code l ?_
      split
      · exact hs
      · next hb => exact h.insert hs hj hb
    · exact h.applyRetireBlocks code l hs

theorem applyRetireEntry (h : WriterOps W R K P) (e : NextEntry) (hs : P s) : P (s.applyRetireEntry e) := by
  unfold State.applyRetireEntry State.counted
  split
  · have hu := h.applyRetireBlocks (at8 e.bytes 2) (retireBlocks e.bytes) hs
    dsimp only
    split
    · exact h.steady hu (.countApplied _)
    · exact h.steady hu (.countSkipped _ _ _)
  · exact h.steady hs (.countSkipped s _ _)

/-! ### Every command, every step -/

theorem exec (h : WriterOps W R K P) (i : Instr) (hW : s.WritesWindows i → W)
    (hR : ∀ cause, s.TakesFullReset i cause → R cause) (hk : K s) (hs : P s) :
    ∃ t, Machine.exec i s = .next t ∧ P t := by
  have still : ∀ {u : State}, s.Steady u → P u.settle := fun hu => h.steady hs (hu.trans (.settle _))
  cases i with
  | powerOn pins => exact ⟨_, rfl, h.steady (h.reset pins (hR _ (.inl ⟨rfl, pins, rfl⟩))) (.settle _)⟩
  | resetPin pins => exact ⟨_, rfl, h.steady (h.reset pins (hR _ (.inr (.inl ⟨rfl, pins, rfl⟩)))) (.settle _)⟩
  | characterReceived p c stop => exact ⟨_, rfl, still (.character s p c stop)⟩
  | frameGapTimeout p => exact ⟨_, rfl, still (.gapTimeout s p)⟩
  | linkBreak p =>
    exact ⟨_, rfl, h.steady (h.breakTaken p (fun hup hbreak hb =>
      hR _ (.inr (.inr ⟨p, rfl, hb, .inr (.inr ⟨rfl, hup, hbreak⟩)⟩))) hs) (.settle _)⟩
  | rxdRise p => exact ⟨_, rfl, still (.rxdHigh s p)⟩
  | holdChange p level => exact ⟨_, rfl, still (.of_eq rfl rfl rfl rfl)⟩
  | frameSent p =>
    exact ⟨_, rfl, h.steady (h.frameSent p (fun htx hready hb =>
      hR _ (.inr (.inr ⟨p, rfl, hb, .inl ⟨rfl, htx, hready⟩⟩))) hs) (.settle _)⟩
  | read p seq d => exact ⟨_, rfl, h.takeMessage_steady hs fun u => .dealRequest u .read p d⟩
  | write p seq d => exact ⟨_, rfl, h.takeMessage_steady hs fun u => .dealRequest u .write p d⟩
  | cset p seq d => exact ⟨_, rfl, h.takeMessage_steady hs fun u => .dealRequest u .cset p d⟩
  | swap p seq d => exact ⟨_, rfl, h.takeMessage_steady hs fun u => .dealRequest u .swap p d⟩
  | fadd p seq d => exact ⟨_, rfl, h.takeMessage_steady hs fun u => .dealRequest u .fadd p d⟩
  | pgRead p seq d => exact ⟨_, rfl, h.takeMessage_steady hs fun u => .dealRequest u .pgRead p d⟩
  | pgProg p seq d => exact ⟨_, rfl, h.takeMessage_steady hs fun u => .dealRequest u .pgProg p d⟩
  | blkErase p seq d => exact ⟨_, rfl, h.takeMessage_steady hs fun u => .dealRequest u .blkErase p d⟩
  | nandId p seq d => exact ⟨_, rfl, h.takeMessage_steady hs fun u => .dealRequest u .nandId p d⟩
  | hello p seq d => exact ⟨_, rfl, h.takeMessage_steady hs fun u => .dealHello u p seq d⟩
  | info p seq d => exact ⟨_, rfl, h.takeControl_steady .info p seq d hs fun u => .reply u p _ _ _ _⟩
  | status p seq d => exact ⟨_, rfl, h.takeControl_steady .status p seq d hs fun u => .reply u p _ _ _ _⟩
  | winSet p seq d =>
    exact ⟨_, rfl, h.takeControl .winSet p seq d hs fun hu hserves hright =>
      h.winSetAct p d (hW (.inl ⟨p, seq, d, rfl, hserves, hright rfl⟩)) hu⟩
  | winGet p seq d => exact ⟨_, rfl, h.takeControl_steady .winGet p seq d hs fun u => .winGetAct u p d⟩
  | slotSet p seq d => exact ⟨_, rfl, h.takeControl .slotSet p seq d hs fun hu _ _ => h.slotSetAct p d hu⟩
  | slotGet p seq d => exact ⟨_, rfl, h.takeControl_steady .slotGet p seq d hs fun u => .slotGetAct u p d⟩
  | slotClear p seq d => exact ⟨_, rfl, h.takeControl_steady .slotClear p seq d hs fun u => .slotClearAct u p d⟩
  | sdrSet p seq d => exact ⟨_, rfl, h.takeControl .sdrSet p seq d hs fun hu _ _ => h.sdrSetAct p d hu⟩
  | sdrGet p seq d => exact ⟨_, rfl, h.takeControl_steady .sdrGet p seq d hs fun u => .reply u p _ _ _ _⟩
  | sdrSleep p seq d => exact ⟨_, rfl, h.takeControl_steady .sdrSleep p seq d hs fun u => .sdrSleepAct u p d⟩
  | retireAdd p seq d => exact ⟨_, rfl, h.takeControl .retireAdd p seq d hs fun hu _ _ => h.retireAddAct p d hu⟩
  | retireDrop p seq d => exact ⟨_, rfl, h.takeControl .retireDrop p seq d hs fun hu _ _ => h.retireDropAct p d hu⟩
  | retireList p seq d => exact ⟨_, rfl, h.takeControl_steady .retireList p seq d hs fun u => .retireListAct u p d⟩
  | cancel p seq d => exact ⟨_, rfl, h.takeControl_steady .cancel p seq d hs fun u => .cancelAct u p d⟩
  | portReset p seq d =>
    exact ⟨_, rfl, h.takePortReset p seq d (fun hturn hserves hd hb =>
      hR _ (.inr (.inr ⟨p, rfl, hb, .inr (.inl ⟨seq, d, rfl, hturn, hserves, hd⟩)⟩))) hs⟩
  | bridgeReset p seq d => exact ⟨_, rfl, h.takeControl_steady .bridgeReset p seq d hs fun u => .bridgeResetAct u p d⟩
  | chunkEnd xs =>
    refine ⟨_, rfl, still ?_⟩
    split
    · exact .loadChunkEnd s xs
    · exact .chunkEnd s xs
  | atomicEnd xs => exact ⟨_, rfl, still (.atomicEnd s xs)⟩
  | waitLimitReached k xs => exact ⟨_, rfl, still (.waitLimit s k xs)⟩
  | nandCommandEnd ready => exact ⟨_, rfl, still (.commandEnd s ready)⟩
  | loadingTenureEnd ready => exact ⟨_, rfl, still (.loadingEnd s ready)⟩
  | unloadingTenureEnd bytes => exact ⟨_, rfl, still (.unloadingEnd s bytes)⟩
  | statusTenureEnd b => exact ⟨_, rfl, h.steady (h.statusEnd b hk hs) (.settle _)⟩
  | idTenureEnd bytes => exact ⟨_, rfl, still (.idEnd s bytes)⟩
  | resetTenureEnd ready => exact ⟨_, rfl, still (.resetEnd s ready)⟩
  | nandReadyRise c => exact ⟨_, rfl, still (.readyRise s c)⟩
  | nandTimeout c => exact ⟨_, rfl, still (.busyTimeout s c)⟩
  | recoveryResetExpiry c => exact ⟨_, rfl, still (.recoveryExpiry s c)⟩
  | clearResetExpiry c => exact ⟨_, rfl, still (.clearExpiry s c)⟩
  | loadBusyTimeout => exact ⟨_, rfl, still (.loadTimeout s)⟩
  | refreshExpiry => exact ⟨_, rfl, still (.refreshExpiry s)⟩
  | refreshRoundEnd => exact ⟨_, rfl, still (.refreshRoundEnd s)⟩
  | powerdownEntry => exact ⟨_, rfl, still (.enterPowerDown s)⟩
  | selfRefreshTimer => exact ⟨_, rfl, still (.selfRefreshReached s)⟩
  | selfRefreshEntryEnd => exact ⟨_, rfl, still (.selfRefreshEntryEnd s)⟩
  | selfRefreshExitEnd => exact ⟨_, rfl, still (.selfRefreshExitEnd s)⟩
  | stabilisationWaitEnd => exact ⟨_, rfl, still (.stabilised s)⟩
  | prechargeStepEnd => exact ⟨_, rfl, still (.prechargeStepEnd s)⟩
  | refreshStepEnd => exact ⟨_, rfl, still (.refreshStepEnd s)⟩
  | modeStepEnd => exact ⟨_, rfl, h.steady (h.modeStepEnd (hW (.inr (.inr rfl))) hs) (.settle _)⟩
  | setupPortsEntry => exact ⟨_, rfl, h.walkStep .ports hs fun e => h.steady hs (.applyPorts s e)⟩
  | setupSlotEntry => exact ⟨_, rfl, h.walkStep .slot hs fun e => h.applySlotEntry e hs⟩
  | setupSdramEntry => exact ⟨_, rfl, h.walkStep .sdram hs fun e => h.applySdramEntry e hs⟩
  | setupWindowEntry =>
    exact ⟨_, rfl, h.walkStep .window hs fun e => h.applyWindowEntry (hW (.inr (.inl rfl))) e hs⟩
  | setupRetireEntry => exact ⟨_, rfl, h.walkStep .retire hs fun e => h.applyRetireEntry e hs⟩
  | setupUnknownEntry => exact ⟨_, rfl, still (.walkUnknown s)⟩

/-- Every step keeps a condition that allows every window and every full reset. -/
theorem step (h : WriterOps True (fun _ => True) K P) (hrest : ∀ {s : State} rest, K s → K { s with pending := rest })
    {t : State} (hstep : Machine.step s = .next t) (hk : K s) (hs : P s) : P t := by
  unfold Machine.step at hstep
  split at hstep
  · obtain rfl := Host.Outcome.next.inj hstep
    exact h.steady hs (.tick s)
  · next i rest _ =>
    obtain ⟨u, hu, hpu⟩ := h.exec (s := { s with pending := rest }) i (fun _ => trivial) (fun _ _ => trivial) (hrest rest hk)
      (h.steady hs (.of_eq rfl rfl rfl rfl))
    rw [hu] at hstep
    exact Host.Outcome.next.inj hstep ▸ hpu

end WriterOps

/-! ### Who writes the window table -/

/-- Beside the writing of windows and the full resets every command leaves the window table as it is. -/
theorem writerOps_windows (l : List Window) (W : Prop) (R : Cause → Prop) :
    WriterOps W R (fun _ => True)
      (fun t => W ∨ t.windows = l ∨ (∃ cause, R cause) ∧ t.windows = List.replicate 8 Window.off) where
  steady hs h := by rwa [h.windows]
  window hW _ _ := .inl hW
  slot hs _ := hs
  sdram _ hs _ := hs
  insert hs _ _ := hs
  failed _ hs _ := by
    rw [State.autoRetire_only]
    exact hs
  drop _ _ hs := hs
  reset _ hR := .inr (.inr ⟨⟨_, hR⟩, rfl⟩)

/-- Settles O4: a command that is none of the three writers and takes no full reset leaves the table as it is. -/
theorem windowTableChangesOnlyByItsWriters : Obligations.WindowTableChangesOnlyByItsWriters := by
  intro i s t hexec hchanged
  obtain ⟨u, hu, hcases⟩ := (writerOps_windows s.windows (s.WritesWindows i) (s.TakesFullReset i)).exec i id (fun _ => id)
    trivial (.inr (.inl rfl))
  obtain rfl := Host.Outcome.next.inj (hu.symm.trans hexec)
  rcases hcases with (hset | hwalk | hmode) | hsame | hreset
  · exact .inl hset
  · exact .inr (.inl hwalk)
  · exact .inr (.inr (.inl hmode))
  · exact absurd hsame hchanged
  · exact .inr (.inr (.inr hreset))

end Sys2Proof.Machine
end

section
/-! WIN-SET at the Window Unit (R31–R36): what the form of a window block is, and what the judging of one answers, check by
check. -/
namespace Sys2Proof.Machine

/-! ### The form of a window block -/

theorem isPow2_iff {lo hi n : Nat} : isPow2 lo hi n = true ↔ ∃ k, lo ≤ k ∧ k ≤ hi ∧ n = 2 ^ k := by
  simp only [isPow2, List.any_eq_true, List.mem_range, Bool.and_eq_true, decide_eq_true_eq, beq_iff_eq, Nat.lt_succ_iff]
  exact exists_congr fun k => and_left_comm

theorem slotOfCode_isSome (b : Byte) : (slotOfCode b).isSome = true ↔ 1 ≤ b.toNat ∧ b.toNat ≤ 5 := by
  unfold slotOfCode
  split
  · next h => simp [h]
  · next h =>
    rw [Option.isSome_map, chipOfCode_isSome]
    omega

theorem rightsOfCode_isSome (b : Byte) : (rightsOfCode b).isSome = true ↔ b.toNat ≤ 2 := by
  unfold rightsOfCode
  split
  · next h => simp [h]
  · next h => simp [h]
  · next h => simp [h]
  · next h0 h1 h2 =>
    have : ¬b.toNat ≤ 2 := fun h => by interval_cases hb : b.toNat <;> simp_all
    simpa using this

/-- The form that R32 asks of a window block, but for its enabled value and the index. -/
structure BlockFormed (d : List Byte) : Prop where
  size : ∃ k, 12 ≤ k ∧ k ≤ 27 ∧ field d 8 4 = 2 ^ k
  aligned : field d 8 4 ∣ field d 4 4
  offset : 4096 ∣ field d 12 4
  target : 1 ≤ (at8 d 1).toNat ∧ (at8 d 1).toNat ≤ 5
  rights : (at8 d 2).toNat ≤ 2 ∧ (at8 d 3).toNat ≤ 2

/-- The enabled window that a block's fields give with a target and rights (R29, R35). -/
def blockWindow (d : List Byte) (k : Slot) (a b : Rights) : Window :=
  { enabled := true, base := field d 4 4, size := field d 8 4, target := some k, offset := field d 12 4, rights := ⟨a, b⟩ }

theorem windowOfBlock_of_formed {d : List Byte} {k : Slot} {a b : Rights} (h : BlockFormed d)
    (hk : slotOfCode (at8 d 1) = some k) (ha : rightsOfCode (at8 d 2) = some a) (hb : rightsOfCode (at8 d 3) = some b) :
    windowOfBlock d = some (blockWindow d k a b) := by
  have hsize := isPow2_iff.2 h.size
  have haligned := Nat.mod_eq_zero_of_dvd h.aligned
  have hoffset := Nat.mod_eq_zero_of_dvd h.offset
  unfold windowOfBlock
  simp only [hk, ha, hb, hsize, haligned, hoffset]
  rfl

theorem windowOfBlock_eq_some {d : List Byte} {w : Window} (h : windowOfBlock d = some w) :
    BlockFormed d ∧ ∃ k a b, w = blockWindow d k a b := by
  unfold windowOfBlock at h
  split at h
  · next k a b hk ha hb =>
    dsimp only at h
    split at h
    · next hform =>
      simp only [Bool.and_eq_true, beq_iff_eq] at hform
      obtain ⟨⟨hsize, haligned⟩, hoffset⟩ := hform
      exact ⟨⟨isPow2_iff.1 hsize, Nat.dvd_of_mod_eq_zero haligned, Nat.dvd_of_mod_eq_zero hoffset,
        (slotOfCode_isSome _).1 (by rw [hk]; rfl), (rightsOfCode_isSome _).1 (by rw [ha]; rfl),
        (rightsOfCode_isSome _).1 (by rw [hb]; rfl)⟩, k, a, b, (Option.some.inj h).symm⟩
    · cases h
  · cases h

/-! ### The target and the other windows -/

/-- The target test of R33: an SRAM or NOR slot, or an initialised SD. -/
def State.TargetOk (s : State) : Slot → Prop
  | .chip c => (s.profile c).type = .sram ∨ (s.profile c).type = .nor
  | .sd => s.sdram.live

theorem State.targetStatus_of_ok {s : State} {k : Slot} (h : s.TargetOk k) : s.targetStatus k = none := by
  cases k with
  | chip c => exact if_pos h
  | sd =>
    unfold State.targetStatus
    rcases h with h | h | h <;> simp only [h]

theorem State.targetStatus_of_not_ok {s : State} {k : Slot} (h : ¬s.TargetOk k) :
    s.targetStatus k = some (if k = .sd then .notReady else .badArg) := by
  cases k with
  | chip c => exact if_neg h
  | sd =>
    cases hst : s.sdram.state with
    | ready => exact absurd (.inl hst) h
    | powerdown => exact absurd (.inr (.inl hst)) h
    | selfRefresh => exact absurd (.inr (.inr hst)) h
    | uninit => simp [State.targetStatus, hst]
    | initialising => simp [State.targetStatus, hst]

theorem State.targetStatus_eq_none {s : State} {k : Slot} : s.targetStatus k = none ↔ s.TargetOk k := by
  refine ⟨fun h => ?_, State.targetStatus_of_ok⟩
  by_contra hk
  rw [State.targetStatus_of_not_ok hk] at h
  cases h

theorem Window.overlaps_iff {x y : Window} : x.overlaps y = true ↔
    x.enabled = true ∧ y.enabled = true ∧ x.base < y.base + y.size ∧ y.base < x.base + x.size := by
  simp only [Window.overlaps, Bool.and_eq_true, decide_eq_true_eq, and_assoc]

theorem Window.overlaps_comm (x y : Window) : x.overlaps y = y.overlaps x := by
  rw [Bool.eq_iff_iff, Window.overlaps_iff, Window.overlaps_iff]
  tauto

theorem State.windowConflict_iff {s : State} {index : Nat} {w : Window} : s.windowConflict index w = true ↔
    ∃ j x, j ≠ index ∧ s.windows[j]? = some x ∧ x.overlaps w = true := by
  simp only [State.windowConflict, List.any_eq_true, Bool.and_eq_true, bne_iff_ne, Prod.exists,
    List.mem_zipIdx_iff_getElem?]
  constructor
  · rintro ⟨x, j, hx, hj, ho⟩
    exact ⟨j, x, hj, hx, ho⟩
  · rintro ⟨j, x, hj, hx, ho⟩
    exact ⟨x, j, hx, hj, ho⟩

/-! ### The judging of a window block -/

/-- With enabled 0 the entry at an index of the table is disabled, whatever the other fields hold (R36). -/
theorem State.judgeWindow_disable {index : Nat} {d : List Byte} (s : State) (hindex : index ≤ 7) (hd : at8 d 0 = 0) :
    s.judgeWindow index d = .ok Window.off := by
  unfold State.judgeWindow
  rw [if_neg (by omega), if_pos hd]

theorem State.judgeWindow_past_table {index : Nat} (s : State) (d : List Byte) (hindex : 7 < index) :
    s.judgeWindow index d = .error .badArg := if_pos hindex

/-- What is left to judge of a block of the form of R32: target, capacity and overlap (R33, R34). -/
theorem State.judgeWindow_of_block {s : State} {index : Nat} {d : List Byte} {w : Window} {k : Slot} (hindex : index ≤ 7)
    (hd : at8 d 0 = 1) (hw : windowOfBlock d = some w) (hk : w.target = some k) :
    (∀ st, s.targetStatus k = some st → s.judgeWindow index d = .error st) ∧
      (s.targetStatus k = none →
        (s.slotCapacity k < w.offset + w.size → s.judgeWindow index d = .error .badArg) ∧
        (w.offset + w.size ≤ s.slotCapacity k →
          (s.windowConflict index w = true → s.judgeWindow index d = .error .conflict) ∧
          (s.windowConflict index w = false → s.judgeWindow index d = .ok w))) := by
  unfold State.judgeWindow
  rw [if_neg (by omega), if_neg (by rw [hd]; decide), if_neg (by simp [hd]), hw]
  simp only [hk]
  refine ⟨fun st hst => by rw [hst], fun hst => ?_⟩
  rw [hst]
  refine ⟨fun hcap => if_pos hcap, fun hcap => ?_⟩
  simp only [if_neg (Nat.not_lt.2 hcap)]
  exact ⟨fun hc => if_pos hc, fun hc => by rw [hc]; rfl⟩

/-- A block that neither disables nor has the form of R32 is refused BADARG (R31, R32). -/
theorem State.judgeWindow_of_not_formed {index : Nat} {d : List Byte} (s : State) (hd : at8 d 0 ≠ 0)
    (h : ¬(at8 d 0 = 1 ∧ index ≤ 7 ∧ BlockFormed d)) : s.judgeWindow index d = .error .badArg := by
  by_cases hindex : 7 < index
  · exact s.judgeWindow_past_table d hindex
  unfold State.judgeWindow
  rw [if_neg (by omega), if_neg hd]
  by_cases hone : at8 d 0 = 1
  · cases hw : windowOfBlock d with
    | none => simp
    | some w => exact absurd ⟨hone, by omega, (windowOfBlock_eq_some hw).1⟩ h
  · exact if_pos hone

/-- All that the judging of a window block accepts: the disabled entry, or a record that passes R32 to R34. -/
theorem State.judgeWindow_eq_ok {s : State} {index : Nat} {d : List Byte} {w : Window} (h : s.judgeWindow index d = .ok w) :
    w = Window.off ∨ windowOfBlock d = some w ∧ s.windowConflict index w = false ∧
      ∃ k, w.target = some k ∧ s.targetStatus k = none ∧ w.offset + w.size ≤ s.slotCapacity k := by
  unfold State.judgeWindow at h
  split at h
  · cases h
  split at h
  · exact .inl (Except.ok.inj h).symm
  split at h
  · cases h
  split at h
  · cases h
  next x hx =>
  split at h
  · cases h
  next k hk =>
  split at h
  · cases h
  next hst =>
  split at h
  · cases h
  next hcap =>
  split at h
  · cases h
  next hconflict =>
  obtain rfl := Except.ok.inj h
  exact .inr ⟨hx, by simpa using hconflict, k, hk, hst, Nat.not_lt.1 hcap⟩

/-! ### The command -/

/-- The judging of a window block looks at no port unit and no notice. -/
theorem State.judgeWindow_takeFrame (s : State) (p : Port) (seq : Byte) (index : Nat) (d : List Byte) :
    (s.takeFrame p seq).judgeWindow index d = s.judgeWindow index d := by
  rw [State.takeFrame_only]
  rfl

section
variable {s : State} {p : Port} {seq token i : Byte} {block : List Byte}

theorem exec_winSet (h : s.Reaches .winSet p seq (token :: i :: block)) :
    exec (.winSet p seq (token :: i :: block)) s =
      .next ((s.takeFrame p seq).winSetAct p (token :: i :: block)).settle :=
  congrArg (fun v : State => Host.Outcome.next v.settle)
    (State.takeControl_of_reaches h fun u => u.winSetAct p (token :: i :: block))

/-- An accepted record is held whole, and answered OK with the index (R35). -/
theorem exec_winSet_accepted {w : Window} (h : s.Reaches .winSet p seq (token :: i :: block))
    (hj : s.judgeWindow i.toNat block = .ok w) :
    exec (.winSet p seq (token :: i :: block)) s = .next
      (({ s.takeFrame p seq with windows := s.windows.set i.toNat w } : State).reply p token .winSet .ok [i]).settle := by
  have hj : (s.takeFrame p seq).judgeWindow (at8 (token :: i :: block) 1).toNat ((token :: i :: block).drop 2) = .ok w :=
    (State.judgeWindow_takeFrame s p seq _ _).trans hj
  have hact : (s.takeFrame p seq).winSetAct p (token :: i :: block) =
      ((s.takeFrame p seq).setWindow i.toNat w).reply p token .winSet .ok [i] := by
    unfold State.winSetAct
    simp only [hj]
    rfl
  rw [exec_winSet h, hact, State.setWindow, (State.Steady.takeFrame s p seq).windows]

/-- A refused record changes nothing, and is answered with its status and the index (R31). -/
theorem exec_winSet_refused {st : Status} (h : s.Reaches .winSet p seq (token :: i :: block))
    (hj : s.judgeWindow i.toNat block = .error st) :
    exec (.winSet p seq (token :: i :: block)) s = .next ((s.takeFrame p seq).reply p token .winSet st [i]).settle := by
  have hj : (s.takeFrame p seq).judgeWindow (at8 (token :: i :: block) 1).toNat ((token :: i :: block).drop 2) = .error st :=
    (State.judgeWindow_takeFrame s p seq _ _).trans hj
  have hact : (s.takeFrame p seq).winSetAct p (token :: i :: block) = (s.takeFrame p seq).reply p token .winSet st [i] := by
    unfold State.winSetAct
    simp only [hj]
    rfl
  rw [exec_winSet h, hact]

end

/-- A disabled window overlaps none (R36). -/
theorem Window.off_overlaps (w : Window) : Window.off.overlaps w = false := rfl

/-- Settles O35: the index is judged first, and then the enabled value alone. -/
theorem winSetDisablesWhateverTheOtherFieldsHold : Obligations.WinSetDisablesWhateverTheOtherFieldsHold := by
  intro s p seq token i block h hd u off
  exact ⟨fun hi => exec_winSet_accepted h (s.judgeWindow_disable hi hd),
    fun hi => exec_winSet_refused h (s.judgeWindow_past_table block hi), fun _ => rfl,
    fun w => ⟨w.off_overlaps, (w.overlaps_comm _).trans w.off_overlaps⟩, rfl⟩

/-- Settles O34: a record of the form of R32 is left with target, capacity and overlap to be judged, any other is refused. -/
theorem winSetJudgesTheWholeRecord : Obligations.WinSetJudgesTheWholeRecord := by
  intro s p seq token i block h hd base size offset formed u refused
  have hformed : formed ↔ at8 block 0 = 1 ∧ i.toNat ≤ 7 ∧ BlockFormed block :=
    ⟨fun ⟨hone, hi, hsize, haligned, hoffset, hlo, hhi, ha, hb⟩ =>
        ⟨hone, hi, hsize, haligned, hoffset, ⟨hlo, hhi⟩, ha, hb⟩,
      fun ⟨hone, hi, hsize, haligned, hoffset, ⟨hlo, hhi⟩, ha, hb⟩ =>
        ⟨hone, hi, hsize, haligned, hoffset, hlo, hhi, ha, hb⟩⟩
  refine ⟨fun hnot => exec_winSet_refused h (s.judgeWindow_of_not_formed hd fun hf => hnot (hformed.2 hf)), ?_⟩
  intro k a b hk ha hb hf targetOk overlapping
  obtain ⟨hone, hi, hblock⟩ := hformed.1 hf
  have htarget : targetOk ↔ s.TargetOk k := by cases k <;> exact Iff.rfl
  have hoverlap : overlapping ↔ s.windowConflict i.toNat (blockWindow block k a b) = true := by
    simp only [State.windowConflict_iff, Window.overlaps_iff, blockWindow, true_and]
    exact Iff.rfl
  obtain ⟨hstatus, hrest⟩ := State.judgeWindow_of_block (s := s) hi hone (windowOfBlock_of_formed hblock hk ha hb) rfl
  refine ⟨fun hnot => exec_winSet_refused h (hstatus _ (State.targetStatus_of_not_ok fun hok => hnot (htarget.2 hok))),
    fun hok => ?_⟩
  obtain ⟨hbig, hfits⟩ := hrest (State.targetStatus_of_ok (htarget.1 hok))
  refine ⟨fun hcap => exec_winSet_refused h (hbig hcap), fun hcap => ?_⟩
  obtain ⟨hconflict, hclear⟩ := hfits hcap
  exact ⟨fun ho => exec_winSet_refused h (hconflict (hoverlap.1 ho)),
    fun ho => exec_winSet_accepted h (hclear (Bool.not_eq_true _ ▸ mt hoverlap.2 ho))⟩

end Sys2Proof.Machine
end

section
/-! Every writer keeps the laws of windows, targets, profiles and retired-block lists (R29–R34, R70, R71, R75, R95, R117, R139). -/
namespace Sys2Proof.Machine

/-! ### Windows (R29, R30, R32, R34) -/

theorem leValue_lt : ∀ l : List Byte, leValue l < 256 ^ l.length
  | [] => by simp [leValue]
  | b :: l => by
    have hb := b.isLt
    have hl := leValue_lt l
    rw [leValue, List.length_cons, Nat.pow_succ]
    omega

theorem field_lt (d : List Byte) (i k : Nat) : field d i k < 256 ^ k :=
  (leValue_lt _).trans_le (Nat.pow_le_pow_right (by decide) (by simp))

theorem blockWindow_formed {d : List Byte} (h : BlockFormed d) (k : Slot) (a b : Rights) : (blockWindow d k a b).Formed := by
  obtain ⟨⟨n, hlo, hhi, hsize⟩, haligned, hoffset, -, -⟩ := h
  refine .inr ⟨rfl, isPow2_iff.2 ⟨n, hlo, hhi, hsize⟩, Nat.mod_eq_zero_of_dvd haligned, ?_,
    Nat.mod_eq_zero_of_dvd hoffset, rfl⟩
  have hbase : field d 4 4 < 2 ^ 32 := field_lt d 4 4
  have hspan : field d 8 4 ∣ 2 ^ 32 := hsize ▸ pow_dvd_pow 2 (by omega)
  have hroom := Nat.le_of_dvd (Nat.sub_pos_of_lt hbase) (Nat.dvd_sub hspan haligned)
  change field d 4 4 + field d 8 4 ≤ 2 ^ 32
  omega

theorem State.judgeWindow_formed {s : State} {index : Nat} {d : List Byte} {w : Window}
    (h : s.judgeWindow index d = .ok w) : w.Formed := by
  rcases State.judgeWindow_eq_ok h with rfl | ⟨hw, -⟩
  · exact .inl rfl
  · obtain ⟨hform, k, a, b, rfl⟩ := windowOfBlock_eq_some hw
    exact blockWindow_formed hform k a b

/-- An accepted window overlaps no other entry of the table (R34). -/
theorem State.judgeWindow_apart {s : State} {index : Nat} {d : List Byte} {w : Window} (h : s.judgeWindow index d = .ok w)
    {j : Nat} {x : Window} (hj : j ≠ index) (hx : s.windows[j]? = some x) : w.Apart x := by
  rcases State.judgeWindow_eq_ok h with rfl | ⟨-, hconflict, -⟩
  · exact x.off_overlaps
  · rw [Window.Apart, Window.overlaps_comm]
    by_contra ho
    rw [State.windowConflict_iff.2 ⟨j, x, hj, hx, by simpa using ho⟩] at hconflict
    cases hconflict

theorem State.WindowLaw.setWindow {s : State} {index : Nat} {d : List Byte} {w : Window} (h : s.WindowLaw)
    (hj : s.judgeWindow index d = .ok w) : (s.setWindow index w).WindowLaw := by
  obtain ⟨hlen, hformed, hapart⟩ := h
  refine ⟨by simpa [State.setWindow] using hlen, fun x hx => ?_, List.pairwise_iff_getElem.2 fun a b ha hb hab => ?_⟩
  · rcases List.mem_or_eq_of_mem_set hx with hx | rfl
    · exact hformed x hx
    · exact State.judgeWindow_formed hj
  · simp only [State.setWindow, List.length_set] at ha hb
    simp only [State.setWindow, List.getElem_set]
    split_ifs with hia hib hib
    · omega
    · exact State.judgeWindow_apart hj (by omega) (List.getElem?_eq_getElem hb)
    · rw [Window.Apart, Window.overlaps_comm]
      exact State.judgeWindow_apart hj (by omega) (List.getElem?_eq_getElem ha)
    · exact List.pairwise_iff_getElem.1 hapart a b ha hb hab

/-- The window table is written by accepted windows and by full resets alone. -/
theorem writerOps_windowLaw : WriterOps True (fun _ => True) (fun _ => True) State.WindowLaw where
  steady hs h := by rwa [State.WindowLaw, h.windows]
  window _ hs hj := hs.setWindow hj
  slot hs _ := hs
  sdram _ hs _ := hs
  insert hs _ _ := hs
  failed _ hs _ := by
    rw [State.autoRetire_only]
    exact hs
  drop _ _ hs := hs
  reset _ _ := ⟨rfl, fun _ hw => .inl (List.eq_of_mem_replicate hw), List.pairwise_replicate.2 (.inr rfl)⟩

/-! ### What the checks of SLOT-SET and SDR-SET have found (R71, R95) -/

theorem State.judgeSlot_eq_ok {s : State} {code : Byte} {d : List Byte} {c : Chip} {f : Profile}
    (h : s.judgeSlot code d = .ok (c, f)) : s.windowOn (.chip c) = false ∧ profileOfBlock d = some f := by
  unfold State.judgeSlot at h
  split at h
  · cases h
  split at h
  · cases h
  next hwindow =>
  split at h
  · cases h
  split at h
  · cases h
  next g hg =>
  obtain ⟨rfl, rfl⟩ := Prod.mk.inj (Except.ok.inj h)
  exact ⟨by simpa using hwindow, hg⟩

theorem State.judgeSdr_eq_ok {s : State} {d : List Byte} {g : Settings} (h : s.judgeSdr d = .ok g) :
    s.windowOn .sd = false := by
  unfold State.judgeSdr at h
  split at h
  · cases h
  · next hwindow => simpa using hwindow

theorem State.target_ne_of_windowOn {s : State} {k : Slot} (h : s.windowOn k = false) {w : Window} (hw : w ∈ s.windows)
    (he : w.enabled = true) : w.target ≠ some k := by
  simp only [State.windowOn, List.any_eq_false, Bool.and_eq_true, beq_iff_eq] at h
  exact fun hk => h w hw ⟨he, hk⟩

@[simp] theorem State.profile_applySlot (s : State) (c d : Chip) (f : Profile) :
    (s.applySlot c f).profile d = if d = c then f else s.profile d := by
  simp [State.applySlot]

/-! ### Targets (R33, R34, R71, R95) -/

/-- A window lies within a slot that passes the target test of R33, up to its capacity (R34). -/
def State.Carries (s : State) (w : Window) (k : Slot) : Prop := s.TargetOk k ∧ w.offset + w.size ≤ s.slotCapacity k

theorem State.targetLaw_iff {s : State} :
    s.TargetLaw ↔ ∀ w ∈ s.windows, w.enabled = true → ∃ k, w.target = some k ∧ s.Carries w k := by
  simp only [State.TargetLaw, State.Carries, State.targetStatus_eq_none]

theorem State.Carries.steady {s t : State} {w : Window} {k : Slot} (h : s.Carries w k) (g : s.Steady t) : t.Carries w k := by
  cases k with
  | chip c => simpa only [State.Carries, State.TargetOk, State.slotCapacity, g.profile] using h
  | sd =>
    obtain ⟨hlive, hcap⟩ := h
    exact ⟨g.sdram.live hlive, by rwa [State.slotCapacity, g.sdram.settings]⟩

theorem State.TargetLaw.steady {s t : State} (h : s.TargetLaw) (g : s.Steady t) : t.TargetLaw := by
  rw [State.targetLaw_iff] at h ⊢
  rw [g.windows]
  intro w hw he
  obtain ⟨k, hk, hcarries⟩ := h w hw he
  exact ⟨k, hk, hcarries.steady g⟩

theorem State.TargetLaw.setWindow {s : State} {index : Nat} {d : List Byte} {w : Window} (h : s.TargetLaw)
    (hj : s.judgeWindow index d = .ok w) : (s.setWindow index w).TargetLaw := by
  intro x hx he
  rcases List.mem_or_eq_of_mem_set hx with hx | rfl
  · exact h x hx he
  · rcases State.judgeWindow_eq_ok hj with rfl | ⟨-, -, hk⟩
    · cases he
    · exact hk

/-- No enabled window targets a slot whose profile changes (R71). -/
theorem State.TargetLaw.applySlot {s : State} {code : Byte} {d : List Byte} {c : Chip} {f : Profile} (h : s.TargetLaw)
    (hj : s.judgeSlot code d = .ok (c, f)) : (s.applySlot c f).TargetLaw := by
  rw [State.targetLaw_iff] at h ⊢
  intro w hw he
  obtain ⟨k, hk, hcarries⟩ := h w hw he
  have hne : k ≠ .chip c := fun hkc => State.target_ne_of_windowOn (State.judgeSlot_eq_ok hj).1 hw he (hkc ▸ hk)
  refine ⟨k, hk, ?_⟩
  cases k with
  | chip x =>
    have hx : x ≠ c := fun hxc => hne (hxc ▸ rfl)
    simpa only [State.Carries, State.TargetOk, State.slotCapacity, State.profile_applySlot, if_neg hx] using hcarries
  | sd => exact hcarries

/-- No enabled window targets SD when its settings change (R95). -/
theorem State.TargetLaw.applySdr {s : State} {d : List Byte} {g : Settings} (h : s.TargetLaw) (hj : s.judgeSdr d = .ok g)
    (reply : Option Deferred) : (s.applySdr g reply).TargetLaw := by
  intro w hw he
  obtain ⟨k, hk, hstatus, hcap⟩ := h w hw he
  cases k with
  | chip c => exact ⟨_, hk, hstatus, hcap⟩
  | sd => exact absurd hk (State.target_ne_of_windowOn (State.judgeSdr_eq_ok hj) hw he)

theorem writerOps_targetLaw : WriterOps True (fun _ => True) (fun _ => True) State.TargetLaw where
  steady hs h := hs.steady h
  window _ hs hj := hs.setWindow hj
  slot hs hj := hs.applySlot hj
  sdram reply hs hj := hs.applySdr hj reply
  insert hs _ _ := hs
  failed _ hs _ := by
    rw [State.autoRetire_only]
    exact hs
  drop _ _ hs := hs
  reset _ _ := fun w hw he => by
    obtain rfl := List.eq_of_mem_replicate hw
    cases he

/-! ### Retired-block lists (R139) -/

theorem State.get_addRetired (s : State) (c d : Chip) (b : Nat) :
    (s.addRetired c b).retired.get d = if d = c then insertAsc b (s.retired.get c) else s.retired.get d :=
  ByChip.get_set s.retired c d _

theorem State.get_applySlot (s : State) (c d : Chip) (f : Profile) :
    (s.applySlot c f).retired.get d =
      if d = c then (if (s.profile c).keepsList f then s.retired.get c else []) else s.retired.get d :=
  ByChip.get_set s.retired c d _

theorem State.get_fullReset (s : State) (cause : Cause) (pins : Pins) (c : Chip) :
    (s.fullReset cause pins).retired.get c = [] := by cases c <;> rfl

/-- A block that RETIRE-ADD or a RETIRE entry accepts lies in a NAND slot whose list has room for it (R140). -/
theorem State.judgeRetire_eq_ok {s : State} {code : Byte} {c : Chip} {b : Nat} (h : s.judgeRetire code b = .ok c)
    (hb : b ∉ s.retired.get c) :
    (s.profile c).type = .nand ∧ b < (s.profile c).blockCount ∧ (s.retired.get c).length < 32 := by
  unfold State.judgeRetire at h
  split at h
  · cases h
  split at h
  · cases h
  next hplace =>
  rw [not_or, not_not, Nat.not_le] at hplace
  split at h
  · next hmem => exact absurd (Except.ok.inj h ▸ hmem) hb
  split at h
  · cases h
  next hroom =>
  obtain rfl := Except.ok.inj h
  exact ⟨hplace.1, hplace.2, Nat.not_le.1 hroom⟩

/-- A failed operation's block is listed where its list has room for it (R142). -/
theorem State.autoRetire_cases (s : State) (c : Chip) (b : Nat) :
    (s.autoRetire c b).1 = s ∨ (s.retired.get c).length < 32 ∧ (s.autoRetire c b).1 = s.addRetired c b := by
  unfold State.autoRetire
  split
  · exact .inl rfl
  · split
    · next hroom => exact .inr ⟨hroom, rfl⟩
    · exact .inl rfl

theorem State.RetiredLaw.addRetired {s : State} {c : Chip} (h : s.RetiredLaw) (hroom : (s.retired.get c).length < 32)
    (b : Nat) : (s.addRetired c b).RetiredLaw := by
  intro d
  rw [State.get_addRetired]
  split
  · exact ⟨pairwise_insertAsc b _ (h c).1, (length_insertAsc_le b _).trans hroom⟩
  · exact h d

/-- A list of a slot replaced by a part of itself. -/
theorem State.RetiredLaw.of_sublist {s t : State} (h : s.RetiredLaw)
    (hl : ∀ c, (t.retired.get c).Sublist (s.retired.get c)) : t.RetiredLaw := fun c =>
  ⟨(h c).1.sublist (hl c), (hl c).length_le.trans (h c).2⟩

theorem State.sublist_applySlot (s : State) (c : Chip) (f : Profile) (d : Chip) :
    ((s.applySlot c f).retired.get d).Sublist (s.retired.get d) := by
  rw [State.get_applySlot]
  split
  · next hd =>
    subst hd
    split
    · exact .refl _
    · exact List.nil_sublist _
  · exact .refl _

theorem State.sublist_dropRetired (s : State) (c : Chip) (b : Nat) (d : Chip) :
    ((s.setRetired c ((s.retired.get c).filter (fun x => x != b))).retired.get d).Sublist (s.retired.get d) := by
  rw [State.retired_setRetired, ByChip.get_set]
  split
  · next hd => exact hd ▸ List.filter_sublist
  · exact .refl _

theorem writerOps_retiredLaw : WriterOps True (fun _ => True) (fun _ => True) State.RetiredLaw where
  steady hs h := by rwa [State.RetiredLaw, h.retired]
  window _ hs _ := hs
  slot hs _ := hs.of_sublist (State.sublist_applySlot _ _ _)
  sdram _ hs _ := hs
  insert hs hj hb := by
    obtain ⟨-, -, hroom⟩ := State.judgeRetire_eq_ok hj hb
    exact hs.addRetired hroom _
  failed {s c e} _ hs _ := by
    rcases s.autoRetire_cases c e.block with h | ⟨hroom, h⟩ <;> rw [h]
    · exact hs
    · exact hs.addRetired hroom _
  drop c b hs := hs.of_sublist (State.sublist_dropRetired _ c b)
  reset _ _ := fun c => by
    rw [State.get_fullReset]
    exact ⟨.nil, by decide⟩

/-! ### Profiles (R70, R75, R76, R117, R118) -/

/-- A profile block that passes check 4 of R71 gives a profile in its ranges, its unused fields 0 (R72). -/
theorem profileOfBlock_legal {d : List Byte} {f : Profile} (h : profileOfBlock d = some f) : f.Legal := by
  unfold profileOfBlock at h
  split at h
  · dsimp only at h
    split at h
    · next hcommon =>
      split at h
      · obtain rfl := Option.some.inj h
        exact ⟨hcommon, rfl⟩
      · split at h
        · next hok =>
          obtain rfl := Option.some.inj h
          exact ⟨hcommon, hok, rfl⟩
        · cases h
      · split at h
        · next hok =>
          obtain rfl := Option.some.inj h
          exact ⟨hcommon, hok, rfl⟩
        · cases h
      · split at h
        · split at h
          · next hok =>
            obtain rfl := Option.some.inj h
            exact ⟨hcommon, hok, rfl⟩
          · cases h
        · cases h
    · cases h
  · cases h

/-- The profiles of a full reset (R76, R118). -/
theorem Profile.boot_legal (boot : BitVec 2) : (Profile.boot boot).Legal := by
  unfold Profile.boot
  split
  · exact ⟨by decide, rfl⟩
  · exact ⟨by decide, by decide, rfl⟩
  · exact ⟨by decide, by decide, rfl⟩
  · exact ⟨by decide, by decide, rfl⟩

theorem writerOps_profileLaw : WriterOps True (fun _ => True) (fun _ => True) State.ProfileLaw where
  steady hs h := fun c => by
    rw [h.profile]
    exact hs c
  window _ hs _ := hs
  slot {s code d c f} hs hj := fun x => by
    rw [State.profile_applySlot]
    split
    · exact profileOfBlock_legal (State.judgeSlot_eq_ok hj).2
    · exact hs x
  sdram _ hs _ := hs
  insert hs _ _ := hs
  failed _ hs _ := by
    rw [State.autoRetire_only]
    exact hs
  drop _ _ hs := hs
  reset pins _ := fun c => by
    cases c with
    | s1 => exact Profile.boot_legal pins.boot
    | s2 => exact Profile.boot_legal 0
    | s3 => exact Profile.boot_legal 0
    | s4 => exact Profile.boot_legal 0

/-! ### The place of the lists (R139) -/

/-- A kept list's blocks are those of a NAND slot with the same number of blocks (R139). -/
theorem Profile.keepsList_eq_true {f g : Profile} (h : f.keepsList g = true) :
    f.type = .nand ∧ g.type = .nand ∧ g.blockCount = f.blockCount := by
  simp only [Profile.keepsList, Bool.and_eq_true, beq_iff_eq] at h
  obtain ⟨⟨⟨⟨hf, hg⟩, -⟩, -⟩, hblocks⟩ := h
  exact ⟨hf, hg, hblocks.symm⟩

theorem State.ListPlaceLaw.addRetired {s : State} {c : Chip} {b : Nat} (h : s.ListPlaceLaw)
    (htype : (s.profile c).type = .nand) (hb : b < (s.profile c).blockCount) : (s.addRetired c b).ListPlaceLaw := by
  intro d
  rw [State.get_addRetired]
  change ((s.profile d).type ≠ .nand → _) ∧ ∀ x ∈ _, x < (s.profile d).blockCount
  split
  · next hd =>
    subst hd
    refine ⟨fun hne => absurd htype hne, fun x hx => ?_⟩
    rcases (mem_insertAsc b x _).1 hx with rfl | hx
    · exact hb
    · exact (h d).2 x hx
  · exact h d

/-- The slot's profile stays and its list is replaced by a part of itself. -/
theorem State.ListPlaceLaw.of_sublist {s t : State} (h : s.ListPlaceLaw) (hprofile : ∀ c, t.profile c = s.profile c)
    (hl : ∀ c, (t.retired.get c).Sublist (s.retired.get c)) : t.ListPlaceLaw := fun c => by
  rw [hprofile]
  exact ⟨fun hne => List.sublist_nil.1 ((h c).1 hne ▸ hl c), fun b hb => (h c).2 b ((hl c).subset hb)⟩

theorem State.ListPlaceLaw.applySlot {s : State} (h : s.ListPlaceLaw) (c : Chip) (f : Profile) :
    (s.applySlot c f).ListPlaceLaw := by
  intro d
  rw [State.get_applySlot, State.profile_applySlot]
  split
  · next hd =>
    subst hd
    split
    · next hkeep =>
      obtain ⟨-, hnand, hblocks⟩ := Profile.keepsList_eq_true hkeep
      exact ⟨fun hne => absurd hnand hne, fun b hb => hblocks ▸ (h d).2 b hb⟩
    · exact ⟨fun _ => rfl, by simp⟩
  · exact h d

/-- The entry that a context serves is a NAND kind's on its own slot, so its block is one of the slot's (R11, R122). -/
theorem State.contextEntry_block {s : State} {c : Chip} {e : Entry} (hkind : s.KindLaw) (hwork : s.WorkLaw)
    (h : s.contextEntry c = some e) : (s.profile c).type = .nand ∧ e.block < (s.profile c).blockCount := by
  obtain ⟨r, hr, hfind⟩ := Option.bind_eq_some_iff.1 h
  obtain ⟨hcontext, -⟩ := hwork
  obtain ⟨-, x, hx, hslot, hnand, hworks⟩ := hcontext c r hr
  obtain rfl := Option.some.inj (hfind.symm.trans hx)
  have hplace := hkind r.port e (State.find_mem hfind) (by rcases hworks with hst | hst <;> simp [hst])
  rw [hslot] at hplace
  obtain ⟨htype, hblock⟩ := hplace
  exact ⟨htype.1 hnand, hblock hnand⟩

theorem writerOps_listPlaceLaw :
    WriterOps True (fun _ => True) (fun s => s.KindLaw ∧ s.WorkLaw) State.ListPlaceLaw where
  steady hs h := hs.of_sublist h.profile fun c => by rw [h.retired]
  window _ hs _ := hs
  slot hs _ := hs.applySlot _ _
  sdram _ hs _ := hs
  insert hs hj hb := by
    obtain ⟨htype, hblock, -⟩ := State.judgeRetire_eq_ok hj hb
    exact hs.addRetired htype hblock
  failed {s c e} hk hs hce := by
    obtain ⟨hkind, hwork⟩ := hk
    obtain ⟨htype, hblock⟩ := State.contextEntry_block hkind hwork hce
    rcases s.autoRetire_cases c e.block with h | ⟨-, h⟩ <;> rw [h]
    · exact hs
    · exact hs.addRetired htype hblock
  drop c b hs := hs.of_sublist (fun _ => rfl) (State.sublist_dropRetired _ c b)
  reset _ _ := fun c => by
    rw [State.get_fullReset]
    exact ⟨fun _ => rfl, by simp⟩

/-- Settles O58: each law goes command by command through the writers (`WriterOps`), and the list of a failed operation's
slot takes a block of the slot by the laws of kinds and work. -/
theorem everyStepKeepsWindowsAndRetiredLists : Obligations.EveryStepKeepsWindowsAndRetiredLists := by
  refine ⟨fun s t h hwindow htarget hretired => ⟨?_, ?_, ?_⟩, fun s t h hprofile => ⟨?_, fun _ hkind hwork hplace => ?_⟩⟩
  · exact writerOps_windowLaw.step (fun _ h => h) h trivial hwindow
  · exact writerOps_targetLaw.step (fun _ h => h) h trivial htarget
  · exact writerOps_retiredLaw.step (fun _ h => h) h trivial hretired
  · exact writerOps_profileLaw.step (fun _ h => h) h trivial hprofile
  · exact writerOps_listPlaceLaw.step (fun _ h => h) h ⟨hkind, hwork⟩ hplace

end Sys2Proof.Machine
end

section
/-! The claim of segments within the reserves (R44, R45). -/
namespace Sys2Proof.Machine

/-- The test of a claim (R45), with the unused reserves of R43 written out. -/
theorem Pool.canClaim_iff {x : Pool} {p : Port} {n : Nat} :
    x.canClaim p n = true ↔
      n = 0 ∨ (n ≤ x.free.length ∧ (8 - x.holding.get p.other) + (8 - (x.holding.get p + n)) ≤ x.free.length - n) := by
  simp only [Pool.canClaim, Bool.or_eq_true, beq_iff_eq, Bool.and_eq_true, decide_eq_true_eq]
  rfl

/-- Settles O28: the test is read off `canClaim_iff`, and a met claim takes the lower part of the ascending free list, cut at
`n`. -/
theorem claimsKeepTheReserves : Obligations.ClaimsKeepTheReserves := by
  intro x p n mine others
  refine ⟨Pool.canClaim_iff, fun hasc hlaw => ⟨fun hn => Pool.canClaim_iff.2 (.inr ?_), fun hclaim => ?_⟩⟩
  · change n ≤ x.free.length ∧ (8 - others) + (8 - (mine + n)) ≤ x.free.length - n
    omega
  · intro y
    have hleft : (8 - (mine + n)) + (8 - others) ≤ x.free.length - n := by
      rcases Pool.canClaim_iff.1 hclaim with rfl | ⟨-, h⟩
      · exact hlaw
      · exact Nat.add_comm _ _ ▸ h
    refine ⟨List.take_append_drop n x.free, length_take_of_canClaim hclaim, ?_, ?_, rfl, ?_, fun _ ha _ hb =>
      hasc.rel_of_mem_take_of_mem_drop ha hb⟩
    · exact (ByPort.get_set ..).trans (if_pos rfl)
    · exact (ByPort.get_set ..).trans (if_neg (Port.other_ne p))
    · exact (List.length_drop (l := x.free) (i := n)).symm ▸ hleft

end Sys2Proof.Machine
end

section
/-! Bytes written to a staging area and read back as a range (R47, R49). -/
namespace Sys2Proof.Machine

/-- A staging byte is byte i mod 256 of the segment at position i div 256 (R47). -/
theorem stagingRead_of_segment {segments : List Nat} {i n : Nat} (h : segments[i / 256]? = some n) (m : List Host.Cell) :
    stagingRead m segments i = Memory.read m (n * 256 + i % 256) := by
  unfold stagingRead stagingCell
  rw [h]
  rfl

/-- A range is read back as it was written (R49). -/
theorem stagingRange_stagingWrite {segments : List Nat} (hn : segments.Nodup) {m : List Host.Cell} (hm : Memory.wf m = true)
    {j : Nat} {bytes : List Byte} (hlen : j + bytes.length ≤ 256 * segments.length) :
    stagingRange (stagingWrite m segments j bytes) segments j bytes.length = bytes := by
  refine List.ext_getElem (length_stagingRange ..) fun i hi hi' => ?_
  have hread := stagingRead_stagingWrite hn (j + i) bytes hm hlen
  rw [if_pos (by omega), Nat.add_sub_cancel_left] at hread
  simpa [stagingRange, at8, hi'] using hread

/-- Settles O29: what a staging byte reads after a write (`stagingRead_stagingWrite`), inside the range and outside it. -/
theorem stagingReadsBackWhatIsWritten : Obligations.StagingReadsBackWhatIsWritten := by
  intro m segments j bytes hm hn hlen t
  refine ⟨stagingRange_stagingWrite hn hm hlen, fun i hi => ?_, fun n i hout hi => ?_, stagingWrite_wf _ _ _ _ hm,
    fun i n hseg => ⟨stagingRead_of_segment hseg m, stagingRead_of_segment hseg t⟩⟩
  · exact (stagingRead_stagingWrite hn i bytes hm hlen).trans (if_neg (by omega))
  · exact read_stagingWrite_elsewhere hout hi hm j bytes

end Sys2Proof.Machine
end

section
/-! The end of a chunk (R49, R57, R65): on a static slot (R78–R82) and on SD, with the row table that its tenure leaves
(R106–R108). -/
namespace Sys2Proof.Machine

/-! ### The data and the entry -/

/-- A chunk's move on a static slot (R78, R79). -/
theorem State.moveChunk_chip {s : State} {t : Tenure} {c : Chip} (hc : t.slot = .chip c) (e : Entry) (xs : List Sample) :
    s.moveChunk t e xs =
      (s.stageChunk e (s.profile c).beatBytes xs).endTenure (e.kind == .write) (s.chunkCycles (s.profile c) e xs) := by
  unfold State.moveChunk
  rw [hc]

/-- A chunk's move on SD (R98, R107). -/
theorem State.moveChunk_sd {s : State} {t : Tenure} (hsd : t.slot = .sd) (e : Entry) (xs : List Sample) :
    s.moveChunk t e xs =
      ((s.stageChunk e s.sdram.settings.beatBytes xs).endSd (e.kind == .write) (s.sdChunk e xs)).restartSelfRefresh := by
  unfold State.moveChunk
  rw [hsd]

/-- Progress rises by the chunk's bytes, and after the last chunk the entry leaves its queue and completes (R49, R57). -/
theorem exec_chunkEnd {s : State} {t : Tenure} {r : Ref} {e : Entry} (htable : s.TableLaw)
    (ht : s.arbiter.tenure = some t) (hx : t.purpose = .chunk) (hr : t.entry = some r) (he : s.find r = some e)
    (xs : List Sample) :
    let u := (s.moveChunk t e xs).setProgress r (e.moved + e.chunkLength)
    (e.moved + e.chunkLength ≠ e.length → exec (.chunkEnd xs) s = .next u.settle) ∧
      (e.moved + e.chunkLength = e.length →
        exec (.chunkEnd xs) s = .next ((u.dequeue e.slot r).complete r .ok).settle) := by
  intro u
  have href : e.ref = r := htable.ref_of_find he
  have hload : s.inTenure .loadChunk = false := by
    unfold State.inTenure
    rw [ht]
    dsimp only
    rw [hx]
    rfl
  have hrow : exec (.chunkEnd xs) s =
      .next (if e.moved + e.chunkLength = e.length then (u.dequeue e.slot r).complete r .ok else u).settle := by
    change Host.Outcome.next (if s.inTenure .loadChunk then s.loadChunkEnd xs else s.chunkEnd xs).settle = _
    rw [hload, if_neg Bool.false_ne_true]
    unfold State.chunkEnd
    rw [State.serving_of_tenure ht hx hr he]
    dsimp only
    rw [href]
    unfold State.endWork
    rw [href]
  exact ⟨fun h => hrow.trans (by rw [if_neg h]), fun h => hrow.trans (by rw [if_pos h])⟩

/-- A WRITE stages nothing, and a READ stages the bytes sampled (R49). -/
theorem State.stageChunk_eq (s : State) (e : Entry) (w : Nat) (xs : List Sample) :
    s.stageChunk e w xs =
      if decide (e.kind = .write) then s
      else s.stage e.segments e.moved (readBytes w e.current e.chunkLength xs) := by
  simp only [State.stageChunk, decide_eq_true_eq]

/-- The beats of a chunk on a static slot: a WRITE drives staging, a READ samples (R78, R79). -/
theorem State.chunkCycles_eq (s : State) (f : Profile) (e : Entry) (xs : List Sample) :
    s.chunkCycles f e xs =
      if decide (e.kind = .write)
      then writeBeats f f.beatBytes e.current (s.chunkData e) xs 0 (beatCount f.beatBytes e.current e.chunkLength) false
      else readBeats f f.beatBytes e.current e.chunkLength xs (beatCount f.beatBytes e.current e.chunkLength) false := by
  simp only [State.chunkCycles, decide_eq_true_eq]

/-- The bus work of a chunk on SD: a WRITE drives staging, a READ samples (R107). -/
theorem State.sdChunk_eq (s : State) (e : Entry) (xs : List Sample) :
    s.sdChunk e xs =
      if decide (e.kind = .write) then sdWriteChunk s.sdStart s.sdram.settings e.current (s.chunkData e)
      else sdReadChunk s.sdStart s.sdram.settings e.current e.chunkLength xs := by
  simp only [State.sdChunk, decide_eq_true_eq]

/-- Settles O43: the data's move on a static slot, and the entry's progress and completion by `exec_chunkEnd`. -/
theorem staticChunkMovesItsBytes : Obligations.StaticChunkMovesItsBytes := by
  intro s xs t c r e htable ht hx hc hr he f w o n write data cycles moved u
  have hmove : s.moveChunk t e xs = moved := by
    rw [State.moveChunk_chip hc, State.stageChunk_eq, State.chunkCycles_eq]
    rfl
  have hend := exec_chunkEnd htable ht hx hr he xs
  rw [hmove] at hend
  exact hend

/-! ### The row table in a tenure's work -/

namespace SdTrace

@[simp] theorem wait_rows (x : SdTrace) (n : Nat) : (x.wait n).rows = x.rows := by
  unfold wait
  split <;> rfl

@[simp] theorem waitUntil_rows (x : SdTrace) (m : Nat) : (x.waitUntil m).rows = x.rows := wait_rows x _

@[simp] theorem timed_rows (x : SdTrace) (c : SdCommand) (n : Nat) : (x.timed c n).rows = x.rows := wait_rows _ _

/-- A run of commands leaves the row table and puts one cycle for each behind the cycles so far (R93). -/
theorem foldl_command (f : Nat → SdCommand) : ∀ (l : List Nat) (x : SdTrace),
    (l.foldl (fun x i => x.command (f i)) x).rows = x.rows ∧
      (l.foldl (fun x i => x.command (f i)) x).cycles = x.cycles ++ l.map (fun i => .sd (f i))
  | [], x => ⟨rfl, (List.append_nil _).symm⟩
  | i :: l, x => by
    obtain ⟨hrows, hcycles⟩ := foldl_command f l (x.command (f i))
    refine ⟨hrows, hcycles.trans ?_⟩
    simp [command]

/-- A bank that is closed already stays closed (R107). -/
theorem closeBank_rows (x : SdTrace) (t : Settings) (bank : Nat) : (x.closeBank t bank).rows = x.rows.set bank none := by
  unfold closeBank
  split
  · simp
  · next h =>
    refine List.ext_getElem? fun b => ?_
    rw [List.getElem?_set]
    split
    · next hb =>
      subst hb
      rw [List.getD_eq_getElem?_getD] at h
      split
      · next hlt => simpa [hlt] using h
      · next hge => exact List.getElem?_eq_none (Nat.le_of_not_lt hge)
    · rfl

/-- Row work leaves the table on a row hit; else it opens the row with no write in it (R107). -/
theorem openRow_rows (x : SdTrace) (t : Settings) (o : Nat) :
    (∃ r, x.rows.getD (t.bankOf o) none = some r ∧ r.row = t.rowOf o ∧ (x.openRow t o).rows = x.rows) ∨
      (∀ r, x.rows.getD (t.bankOf o) none = some r → r.row ≠ t.rowOf o) ∧
        ∃ m, (x.openRow t o).rows = x.rows.set (t.bankOf o) (some ⟨t.rowOf o, m, none⟩) := by
  unfold openRow
  dsimp only
  cases hrow : x.rows.getD (t.bankOf o) none with
  | none =>
    refine .inr ⟨fun r h => (by cases h), x.now, ?_⟩
    dsimp only
    rw [hrow]
    exact timed_rows _ _ _
  | some r =>
    by_cases hr : r.row = t.rowOf o
    · refine .inl ⟨r, rfl, hr, ?_⟩
      dsimp only
      rw [if_pos hr, hrow]
    · have hclosed : ((x.closeBank t (t.bankOf o)).rows.getD (t.bankOf o) none) = none := by
        rw [closeBank_rows, List.getD_eq_getElem?_getD, List.getElem?_set_self']
        cases x.rows[t.bankOf o]? <;> rfl
      refine .inr ⟨fun y h => Option.some.inj h ▸ hr, (x.closeBank t (t.bankOf o)).now, ?_⟩
      dsimp only
      rw [if_neg hr, hclosed]
      refine (timed_rows _ _ _).trans ?_
      dsimp only
      rw [closeBank_rows, List.set_set]

theorem readBeats_rows (x : SdTrace) (t : Settings) (o n : Nat) (xs : List Sample) :
    (x.readBeats t o n xs).rows = x.rows := (wait_rows _ _).trans (foldl_command _ _ _).1

/-- Write beats set the last-write mark of their bank and nothing else (R107). -/
theorem writeBeats_rows (x : SdTrace) (t : Settings) (o : Nat) (d : List Byte) :
    ∃ m, (x.writeBeats t o d).rows =
      x.rows.modify (t.bankOf o) (Option.map fun r => { r with lastWriteAt := some m }) := by
  unfold writeBeats
  dsimp only
  rw [(foldl_command _ _ _).1]
  exact ⟨_, rfl⟩

/-- The end of an entry tenure leaves the table under OPEN and closes the bank under CLOSED (R108). -/
theorem policyEnd_rows (x : SdTrace) (t : Settings) (o : Nat) :
    (t.policy = .opened → (x.policyEnd t o).rows = x.rows) ∧
      (t.policy = .closed → (x.policyEnd t o).rows = x.rows.set (t.bankOf o) none) := by
  unfold policyEnd
  constructor <;> intro h <;> rw [h]
  exact closeBank_rows x t _

/-! ### The cycles of a tenure's work -/

theorem wait_cycles (x : SdTrace) (n : Nat) : x.cycles <+: (x.wait n).cycles := by
  unfold wait
  split
  · exact List.prefix_refl _
  · exact List.prefix_append _ _

theorem timed_cycles (x : SdTrace) (c : SdCommand) (n : Nat) : x.cycles <+: (x.timed c n).cycles :=
  (List.prefix_append x.cycles [.sd c]).trans (wait_cycles (x.command c) _)

theorem closeBank_cycles (x : SdTrace) (t : Settings) (bank : Nat) : x.cycles <+: (x.closeBank t bank).cycles := by
  unfold closeBank
  split
  · exact (wait_cycles x _).trans (timed_cycles _ _ _)
  · exact List.prefix_refl _

theorem policyEnd_cycles (x : SdTrace) (t : Settings) (o : Nat) : x.cycles <+: (x.policyEnd t o).cycles := by
  unfold policyEnd
  split
  · exact List.prefix_refl _
  · exact closeBank_cycles x t _

theorem mem_readBeats (x : SdTrace) (t : Settings) (o : Nat) {n i : Nat} (hi : i < n) (xs : List Sample) :
    BusCycle.sd (.read (t.bankOf o) (t.columnOf ((o / t.beatBytes + i) * t.beatBytes)) (sampleAt xs i).md) ∈
      (x.readBeats t o n xs).cycles := by
  refine (wait_cycles _ _).subset ?_
  rw [(foldl_command _ _ _).2]
  exact List.mem_append_right _ (List.mem_map.2 ⟨i, List.mem_range.2 hi, rfl⟩)

theorem mem_writeBeats (x : SdTrace) (t : Settings) (o : Nat) (d : List Byte) {i : Nat}
    (hi : i < beatCount t.beatBytes o d.length) :
    BusCycle.sd (.write (t.bankOf o) (t.columnOf ((o / t.beatBytes + i) * t.beatBytes))
      (lanesOf t.beatBytes o d.length (o / t.beatBytes + i)) (writeLanes t.beatBytes o d (o / t.beatBytes + i))) ∈
      (x.writeBeats t o d).cycles := by
  unfold writeBeats
  dsimp only
  rw [(foldl_command _ _ _).2]
  exact List.mem_append_right _ (List.mem_map.2 ⟨i, List.mem_range.2 hi, rfl⟩)

end SdTrace

/-! ### The row table that a chunk leaves -/

/-- The row table after a chunk's tenure at slot offset `o` (R107, R108): the chunk's bank is closed under CLOSED and open
with its row under OPEN, with the marks of a row that stood open, and every other bank is as before. -/
structure RowsServed (t : Settings) (o : Nat) (write : Bool) (before after : List (Option OpenRow)) : Prop where
  others : ∀ b, b ≠ t.bankOf o → after[b]? = before[b]?
  closed : t.policy = .closed → after[t.bankOf o]? = some none
  opened : t.policy = .opened → ∃ x, after[t.bankOf o]? = some (some x) ∧ x.row = t.rowOf o ∧
    (write = true → x.lastWriteAt.isSome) ∧
    ∀ y, before[t.bankOf o]? = some (some y) → y.row = t.rowOf o →
      x.activatedAt = y.activatedAt ∧ (write = false → x = y)

/-- After row work the bank is open with the chunk's row, and a row that was hit is the one that stood open (R107). -/
theorem SdTrace.openRow_bank (x : SdTrace) {t : Settings} {o : Nat} (hb : t.bankOf o < x.rows.length) :
    ∃ r, (x.openRow t o).rows[t.bankOf o]? = some (some r) ∧ r.row = t.rowOf o ∧
      ∀ y, x.rows[t.bankOf o]? = some (some y) → y.row = t.rowOf o → r = y := by
  rcases x.openRow_rows t o with ⟨r, hr, hrow, hsame⟩ | ⟨hmiss, m, hnew⟩
  · have hget : x.rows[t.bankOf o]? = some (some r) := by
      simpa [List.getD_eq_getElem?_getD, hb] using hr
    refine ⟨r, hsame ▸ hget, hrow, fun y hy _ => ?_⟩
    simpa using hget.symm.trans hy
  · refine ⟨_, by rw [hnew, List.getElem?_set_self hb], rfl, fun y hy hrow => absurd hrow (hmiss y ?_)⟩
    rw [List.getD_eq_getElem?_getD, hy]
    rfl

theorem SdTrace.openRow_other (x : SdTrace) {t : Settings} {o b : Nat} (hb : b ≠ t.bankOf o) :
    (x.openRow t o).rows[b]? = x.rows[b]? := by
  rcases x.openRow_rows t o with ⟨-, -, -, hsame⟩ | ⟨-, m, hnew⟩
  · rw [hsame]
  · rw [hnew, List.getElem?_set_ne hb.symm]

/-- Row work, beats that change marks of the chunk's bank by `f` alone, and the policy's end. -/
theorem rowsServed_of_beats {x y : SdTrace} {t : Settings} {o : Nat} {write : Bool} {f : OpenRow → OpenRow}
    (hb : t.bankOf o < x.rows.length) (hy : y.rows = (x.openRow t o).rows.modify (t.bankOf o) (Option.map f))
    (hrow : ∀ r, (f r).row = r.row) (hactive : ∀ r, (f r).activatedAt = r.activatedAt)
    (hwrite : write = true → ∀ r, (f r).lastWriteAt.isSome) (hread : write = false → ∀ r, f r = r) :
    RowsServed t o write x.rows (y.policyEnd t o).rows := by
  obtain ⟨r, hget, hr, hhit⟩ := x.openRow_bank hb
  obtain ⟨hopened, hclosed⟩ := y.policyEnd_rows t o
  have hbank : y.rows[t.bankOf o]? = some (some (f r)) := by
    rw [hy, List.getElem?_modify_eq, hget]
    rfl
  refine ⟨fun b hne => ?_, fun h => ?_, fun h => ⟨f r, ?_, (hrow r).trans hr, fun hw => hwrite hw r, fun z hz hzr => ?_⟩⟩
  · have hyb : y.rows[b]? = x.rows[b]? := by
      rw [hy, List.getElem?_modify_ne _ _ hne.symm, x.openRow_other hne]
    cases hpolicy : t.policy with
    | opened => rw [hopened hpolicy, hyb]
    | closed => rw [hclosed hpolicy, List.getElem?_set_ne hne.symm, hyb]
  · rw [hclosed h, List.getElem?_set_self (List.getElem?_eq_some_iff.1 hbank).1]
  · rw [hopened h, hbank]
  · obtain rfl := hhit z hz hzr
    exact ⟨hactive r, fun hw => hread hw r⟩

theorem sdReadChunk_rows {x : SdTrace} {t : Settings} {o : Nat} (hb : t.bankOf o < x.rows.length) (m : Nat)
    (xs : List Sample) : RowsServed t o false x.rows (sdReadChunk x t o m xs).rows := by
  have hbeats := (x.openRow t o).readBeats_rows t o (beatCount t.beatBytes o m) xs
  refine rowsServed_of_beats (f := id) hb (hbeats.trans ?_) (fun _ => rfl) (fun _ => rfl) (fun h => absurd h (by decide))
    fun _ _ => rfl
  rw [Option.map_id, List.modify_id]

theorem sdWriteChunk_rows {x : SdTrace} {t : Settings} {o : Nat} (hb : t.bankOf o < x.rows.length) (d : List Byte) :
    RowsServed t o true x.rows (sdWriteChunk x t o d).rows := by
  obtain ⟨m, hbeats⟩ := (x.openRow t o).writeBeats_rows t o d
  exact rowsServed_of_beats hb hbeats (fun _ => rfl) (fun _ => rfl) (fun _ _ => rfl) fun h => absurd h (by decide)

/-! ### The beats of a chunk -/

theorem mem_sdReadChunk (x : SdTrace) (t : Settings) (o m : Nat) (xs : List Sample) {i : Nat}
    (hi : i < beatCount t.beatBytes o m) :
    BusCycle.sd (.read (t.bankOf o) (t.columnOf ((o / t.beatBytes + i) * t.beatBytes)) (sampleAt xs i).md) ∈
      (sdReadChunk x t o m xs).cycles :=
  (SdTrace.policyEnd_cycles _ t o).subset (SdTrace.mem_readBeats _ t o hi xs)

theorem mem_sdWriteChunk (x : SdTrace) (t : Settings) (o : Nat) (d : List Byte) {i : Nat}
    (hi : i < beatCount t.beatBytes o d.length) :
    BusCycle.sd (.write (t.bankOf o) (t.columnOf ((o / t.beatBytes + i) * t.beatBytes))
      (lanesOf t.beatBytes o d.length (o / t.beatBytes + i)) (writeLanes t.beatBytes o d (o / t.beatBytes + i))) ∈
      (sdWriteChunk x t o d).cycles :=
  (SdTrace.policyEnd_cycles _ t o).subset (SdTrace.mem_writeBeats _ t o d hi)

@[simp] theorem length_lanesOf (w o m beat : Nat) : (lanesOf w o m beat).length = w := by simp [lanesOf]

@[simp] theorem length_writeLanes (w o : Nat) (d : List Byte) (beat : Nat) : (writeLanes w o d beat).length = w := by
  simp [writeLanes]

/-- A lane is enabled exactly where its byte lies in the range (R77). -/
theorem lanesOf_get {w j : Nat} (hj : j < w) (o m beat : Nat) :
    (lanesOf w o m beat)[j]? = some (decide (o ≤ beat * w + j ∧ beat * w + j < o + m)) := by
  simp [lanesOf, hj]

/-- An enabled lane carries its byte (R77, R78). -/
theorem writeLanes_get {w j o beat : Nat} {d : List Byte} (hj : j < w) (hlow : o ≤ beat * w + j)
    (hhigh : beat * w + j < o + d.length) : (writeLanes w o d beat)[j]? = d[beat * w + j - o]? := by
  have hin : beat * w + j - o < d.length := by omega
  simp [writeLanes, hj, hlow, hhigh, hin]

/-! ### The chunk on SD -/

theorem Sdram.hit_eq_true {d : Sdram} {o : Nat} (h : d.hit o = true) :
    ∃ r, d.rows[d.settings.bankOf o]? = some (some r) ∧ r.row = d.settings.rowOf o := by
  unfold Sdram.hit at h
  split at h
  · next r hr =>
    refine ⟨r, ?_, by simpa using h⟩
    rw [List.getD_eq_getElem?_getD] at hr
    cases hget : d.rows[d.settings.bankOf o]? with
    | none => simp [hget] at hr
    | some y => simpa [hget] using hr
  · cases h

/-- A slot offset's bank is one of the device's (R92). -/
theorem Settings.bankOf_lt {t : Settings} (h : t.inRanges = true) (o : Nat) : t.bankOf o < t.banks := by
  have hbanks : t.banks = 2 ∨ t.banks = 4 := by
    simp only [Settings.inRanges, Bool.and_eq_true, Bool.or_eq_true, beq_iff_eq] at h
    tauto
  exact Nat.mod_lt _ (by omega)

@[simp] theorem State.sdStart_rows (s : State) : s.sdStart.rows = s.sdram.rows := SdTrace.waitUntil_rows _ _

/-- Settles O44: the row table by `RowsServed`, the beats by membership in the work's cycles, and the entry's progress and
completion by `exec_chunkEnd`. -/
theorem sdChunkMovesItsBytesAndKeepsTheRowTable : Obligations.SdChunkMovesItsBytesAndKeepsTheRowTable := by
  intro s xs t r e htable ht hx hsd hr he hranges hlen g w o n write data work rows moved u
  have hwork : s.sdChunk e xs = work := s.sdChunk_eq e xs
  have hdata : (s.chunkData e).length = n := length_stagingRange ..
  have hcases : (write = true ∧ work = sdWriteChunk s.sdStart g o (s.chunkData e)) ∨
      write = false ∧ work = sdReadChunk s.sdStart g o n xs := by
    change (write = true ∧ (if write then _ else _) = _) ∨ write = false ∧ (if write then _ else _) = _
    cases write with
    | true => exact .inl ⟨rfl, rfl⟩
    | false => exact .inr ⟨rfl, rfl⟩
  have hb : g.bankOf o < s.sdStart.rows.length := by
    rw [State.sdStart_rows, hlen]
    exact Settings.bankOf_lt hranges o
  have hserved : RowsServed g o write s.sdram.rows work.rows := by
    rw [← s.sdStart_rows]
    rcases hcases with ⟨hw, hchunk⟩ | ⟨hw, hchunk⟩ <;> rw [hw, hchunk]
    · exact sdWriteChunk_rows hb _
    · exact sdReadChunk_rows hb n xs
  have hmove : (s.moveChunk t e xs).setProgress r (e.moved + e.chunkLength) = u := by
    have hended : (s.stageChunk e g.beatBytes xs).endSd (e.kind == .write) work = moved := by
      have hsdram : (s.stageChunk e g.beatBytes xs).sdram = s.sdram := by
        unfold State.stageChunk
        split <;> rfl
      unfold State.endSd
      rw [hsdram, State.stageChunk_eq]
      rfl
    have htimer : moved.sdram.selfRefreshTimer = s.sdram.selfRefreshTimer := State.endTenure_selfRefreshTimer _ _ _
    rw [State.moveChunk_sd hsd, hwork, hended]
    unfold State.restartSelfRefresh
    rw [htimer]
    rfl
  have hend := exec_chunkEnd htable ht hx hr he xs
  rw [hmove] at hend
  refine ⟨hserved.others, hserved.closed, fun hpolicy => ?_, fun i hi => ?_, hend⟩
  · obtain ⟨x, hget, hrow, hmark, hkept⟩ := hserved.opened hpolicy
    refine ⟨x, hget, hrow, hmark, fun hhit => ?_⟩
    obtain ⟨y, hy, hyrow⟩ := Sdram.hit_eq_true hhit
    exact ⟨y, hy, hkept y hy hyrow⟩
  · rcases hcases with ⟨hw, hchunk⟩ | ⟨hw, hchunk⟩ <;> rw [hw, hchunk]
    · refine ⟨_, mem_sdWriteChunk _ g o _ (hdata.symm ▸ hi), _, rfl, ?_⟩
      rw [if_pos rfl]
      refine ⟨_, _, rfl, length_lanesOf .., length_writeLanes .., fun j hj => ⟨?_, fun hlow hhigh => ?_⟩⟩
      · rw [hdata]
        exact lanesOf_get hj o n _
      · exact writeLanes_get hj hlow (hdata.symm ▸ hhigh)
    · refine ⟨_, mem_sdReadChunk _ g o n xs hi, _, rfl, ?_⟩
      rw [if_neg Bool.false_ne_true]
      rfl

end Sys2Proof.Machine
end

section
/-! The next chunk of an entry, within one bank and row of SD (R65, R92). -/
namespace Sys2Proof.Machine

/-- A bank-and-row span is a number of whole 64-byte blocks (R91, R92). -/
theorem Settings.dvd_span {t : Settings} (h : t.inRanges = true) : 64 ∣ t.span := by
  obtain ⟨hwidth, hcolumns⟩ : (t.width = 16 ∨ t.width = 32) ∧ 8 ≤ t.columnBits := by
    simp only [Settings.inRanges, inRange, Bool.and_eq_true, Bool.or_eq_true, beq_iff_eq, decide_eq_true_eq] at h
    tauto
  have hpow : 2 ^ 6 ∣ 2 ^ t.columnBits := Nat.pow_dvd_pow 2 (by omega)
  exact Dvd.dvd.mul_right hpow _

/-- Two offsets in one 64-byte block lie in one bank and one row (R92). -/
theorem Settings.place_of_block {t : Settings} (h : t.inRanges = true) {o o' : Nat} (ho : o' / 64 = o / 64) :
    t.bankOf o' = t.bankOf o ∧ t.rowOf o' = t.rowOf o := by
  obtain ⟨k, hk⟩ := Settings.dvd_span h
  have hspan : o' / t.span = o / t.span := by
    rw [hk, ← Nat.div_div_eq_div_mul, ho, Nat.div_div_eq_div_mul]
  simp only [Settings.bankOf, Settings.rowOf, hspan, and_self]

/-- Settles O30: the chunk is cut at the 64-byte block or at the range's end, so it lies in one block and thereby in one bank
and row. -/
theorem chunkEndsAtSixtyFourOrAtTheRange : Obligations.ChunkEndsAtSixtyFourOrAtTheRange := by
  intro e hleft o n
  have hn : n = min (64 - o % 64) (e.length - e.moved) := rfl
  refine ⟨by omega, by omega, by omega, by omega, by omega, fun t ht i hi => ?_⟩
  exact Settings.place_of_block ht (by omega)

end Sys2Proof.Machine
end

section
/-! SLOT-SET at its owner (R71, R72, R139): what its checks ask, what the judging answers check by check, and the state that an
accepted profile leaves. -/
namespace Sys2Proof.Machine

/-! ### The checks -/

theorem State.windowOn_iff {s : State} {k : Slot} :
    s.windowOn k = true ↔ ∃ w ∈ s.windows, w.enabled = true ∧ w.target = some k := by
  simp only [State.windowOn, List.any_eq_true, Bool.and_eq_true, beq_iff_eq]

theorem State.entryOn_iff {s : State} {k : Slot} :
    s.entryOn k = true ↔ ∃ p, ∃ e ∈ s.entries p, e.slot = k ∧ e.state ≠ .replying := by
  simp only [State.entryOn, List.any_eq_true, List.mem_append, Bool.and_eq_true, beq_iff_eq, bne_iff_ne]
  constructor
  · rintro ⟨e, he | he, hon⟩
    · exact ⟨.a, e, he, hon⟩
    · exact ⟨.b, e, he, hon⟩
  · rintro ⟨p, e, he, hon⟩
    cases p with
    | a => exact ⟨e, .inl he, hon⟩
    | b => exact ⟨e, .inr he, hon⟩

theorem State.slotBusy_iff {s : State} {c : Chip} :
    s.slotBusy c = true ↔ (∃ p, ∃ e ∈ s.entries p, e.slot = .chip c ∧ e.state ≠ .replying) ∨
      ((s.profile c).type = .nand ∧ ((s.context c).state ≠ .idle ∨ s.health.get c = .clearing)) := by
  simp only [State.slotBusy, Bool.or_eq_true, State.entryOn_iff, Bool.and_eq_true, beq_iff_eq, bne_iff_ne]

theorem Profile.keepsList_iff {f g : Profile} :
    f.keepsList g = true ↔ f.type = .nand ∧ g.type = .nand ∧ f.pageSize = g.pageSize ∧
      f.pagesPerBlock = g.pagesPerBlock ∧ f.blockCount = g.blockCount := by
  simp only [Profile.keepsList, Bool.and_eq_true, beq_iff_eq, and_assoc]

/-- The judging of a SLOT-SET, check by check (R71). -/
theorem State.judgeSlot_of_chip (s : State) {code : Byte} {c : Chip} (d : List Byte) (hc : chipOfCode code = some c) :
    (s.windowOn (.chip c) = true → s.judgeSlot code d = .error .conflict) ∧
    (s.windowOn (.chip c) = false →
      (s.slotBusy c = true → s.judgeSlot code d = .error .busy) ∧
      (s.slotBusy c = false →
        (profileOfBlock d = none → s.judgeSlot code d = .error .badArg) ∧
        ∀ f, profileOfBlock d = some f → s.judgeSlot code d = .ok (c, f))) := by
  unfold State.judgeSlot
  rw [hc]
  dsimp only
  refine ⟨fun hw => if_pos hw, fun hw => ?_⟩
  rw [hw, if_neg Bool.false_ne_true]
  refine ⟨fun hb => if_pos hb, fun hb => ?_⟩
  rw [hb, if_neg Bool.false_ne_true]
  exact ⟨fun hf => by rw [hf], fun f hf => by rw [hf]⟩

/-! ### The command -/

/-- The judging of a SLOT-SET looks at no port unit and no notice. -/
theorem State.judgeSlot_takeFrame (s : State) (p : Port) (seq code : Byte) (d : List Byte) :
    (s.takeFrame p seq).judgeSlot code d = s.judgeSlot code d := by
  rw [State.takeFrame_only]
  rfl

/-- An accepted SLOT-SET on the state that taking its frame leaves, field by field (R72, R139). -/
theorem State.applySlot_takeFrame (s : State) (p : Port) (seq : Byte) (c : Chip) (f : Profile) :
    (s.takeFrame p seq).applySlot c f = { s.takeFrame p seq with
      arbiter := { s.arbiter with profiles := s.arbiter.profiles.set c f }
      nand := s.nand.set c Context.idle
      retired := s.retired.set c (if (s.profile c).keepsList f then s.retired.get c else []) } := by
  rw [State.takeFrame_only]
  rfl

section
variable {s : State} {p : Port} {seq token x : Byte} {block : List Byte}

theorem exec_slotSet (h : s.Reaches .slotSet p seq (token :: x :: block)) :
    exec (.slotSet p seq (token :: x :: block)) s =
      .next ((s.takeFrame p seq).slotSetAct p (token :: x :: block)).settle :=
  congrArg (fun v : State => Host.Outcome.next v.settle)
    (State.takeControl_of_reaches h fun u => u.slotSetAct p (token :: x :: block))

/-- A refused SLOT-SET changes nothing, and is answered with its status (R71). -/
theorem exec_slotSet_refused {st : Status} (h : s.Reaches .slotSet p seq (token :: x :: block))
    (hj : s.judgeSlot x block = .error st) :
    exec (.slotSet p seq (token :: x :: block)) s = .next ((s.takeFrame p seq).reply p token .slotSet st []).settle := by
  have hj : (s.takeFrame p seq).judgeSlot (at8 (token :: x :: block) 1) ((token :: x :: block).drop 2) = .error st :=
    (s.judgeSlot_takeFrame p seq x block).trans hj
  rw [exec_slotSet h, State.slotSetAct, hj]
  rfl

/-- An accepted SLOT-SET is applied and answered OK (R72). -/
theorem exec_slotSet_accepted {c : Chip} {f : Profile} (h : s.Reaches .slotSet p seq (token :: x :: block))
    (hj : s.judgeSlot x block = .ok (c, f)) :
    exec (.slotSet p seq (token :: x :: block)) s =
      .next (((s.takeFrame p seq).applySlot c f).reply p token .slotSet .ok []).settle := by
  have hj : (s.takeFrame p seq).judgeSlot (at8 (token :: x :: block) 1) ((token :: x :: block).drop 2) = .ok (c, f) :=
    (s.judgeSlot_takeFrame p seq x block).trans hj
  rw [exec_slotSet h, State.slotSetAct, hj]
  rfl

end

/-- Settles O36: the checks in their order by `judgeSlot_of_chip`, and the state that an accepted profile leaves by
`applySlot_takeFrame`. -/
theorem slotSetReplacesTheProfile : Obligations.SlotSetReplacesTheProfile := by
  intro s p seq token x block h u refused
  refine ⟨fun hc => exec_slotSet_refused h (by rw [State.judgeSlot, hc]), ?_⟩
  intro c hc targeted live working
  obtain ⟨hconflict, hfree⟩ := s.judgeSlot_of_chip block hc
  have htargeted : ¬targeted → s.windowOn (.chip c) = false := fun ht => Bool.not_eq_true _ ▸ mt State.windowOn_iff.1 ht
  refine ⟨fun ht => exec_slotSet_refused h (hconflict (State.windowOn_iff.2 ht)),
    fun ht hb => exec_slotSet_refused h ((hfree (htargeted ht)).1 (State.slotBusy_iff.2 hb)), fun ht hb => ?_⟩
  obtain ⟨hbad, hok⟩ := (hfree (htargeted ht)).2 (Bool.not_eq_true _ ▸ mt State.slotBusy_iff.1 hb)
  refine ⟨fun hf => exec_slotSet_refused h (hbad hf), ?_⟩
  intro f hf kept
  have hkept : (s.profile c).keepsList f = true ↔ kept := Profile.keepsList_iff
  rw [exec_slotSet_accepted h (hok f hf), State.applySlot_takeFrame]
  simp only [hkept]
  rfl

end Sys2Proof.Machine
end

section
/-! The grant of a tenure (R17, R60–R64): the candidates, the winner, and what each engine begins. -/
namespace Sys2Proof.Machine

/-! ### Candidates (R60) -/

/-- The setup load drives slot S1 in a phase (R186–R188). -/
def Startup.LoadsIn (u : Startup) (c : Chip) (x : LoadPhase) : Prop := c = .s1 ∧ ∃ l, u.load = some l ∧ l.phase = x

theorem Startup.norLoad_iff {u : Startup} : u.norLoad = true ↔ ∃ l, u.load = some l ∧ l.phase = .norChunks := by
  unfold Startup.norLoad
  split
  · next h => simp [h]
  · next hno =>
    refine ⟨fun h => absurd h Bool.false_ne_true, fun ⟨l, hl, hphase⟩ => ?_⟩
    obtain ⟨second, phase, chunk⟩ := l
    exact absurd (hphase ▸ hl) (hno second chunk)

theorem Startup.nandReadDue_iff {u : Startup} : u.nandReadDue = true ↔ ∃ l, u.load = some l ∧ l.phase = .reading := by
  unfold Startup.nandReadDue
  split
  · next h => simp [h]
  · next hno =>
    refine ⟨fun h => absurd h Bool.false_ne_true, fun ⟨l, hl, hphase⟩ => ?_⟩
    obtain ⟨second, phase, chunk⟩ := l
    exact absurd (hphase ▸ hl) (hno second chunk)

/-- A phase of the load that is under way makes S1 the slot that the load drives. -/
theorem Startup.loadsIn_iff {u : Startup} {c : Chip} {x : LoadPhase} :
    u.LoadsIn c x ↔ u.loads c = true ∧ ∃ l, u.load = some l ∧ l.phase = x := by
  unfold Startup.LoadsIn Startup.loads
  rw [Bool.and_eq_true, beq_iff_eq]
  constructor
  · rintro ⟨hc, l, hl, hx⟩
    exact ⟨⟨by rw [hl]; rfl, hc⟩, l, hl, hx⟩
  · rintro ⟨⟨-, hc⟩, hl⟩
    exact ⟨hc, hl⟩

theorem State.candidate_off {s : State} {c : Chip} (h : (s.profile c).type = .off) : s.candidate (.chip c) = false := by
  unfold State.candidate
  dsimp only
  rw [h]

theorem State.candidate_static {s : State} {c : Chip} (h : (s.profile c).type = .sram ∨ (s.profile c).type = .nor) :
    s.candidate (.chip c) = true ↔
      s.health.get c = .ok ∧ (s.queue (.chip c) ≠ [] ∨ s.startup.LoadsIn c .norChunks) := by
  have hcandidate : s.candidate (.chip c) =
      (s.health.get c == .ok && (!(s.queue (.chip c)).isEmpty || (s.startup.loads c && s.startup.norLoad))) := by
    unfold State.candidate
    rcases h with h | h <;> simp only [h]
  simp [hcandidate, Startup.loadsIn_iff, Startup.norLoad_iff]

theorem State.candidate_nand {s : State} {c : Chip} (h : (s.profile c).type = .nand) :
    s.candidate (.chip c) = s.nandCandidate c := by
  unfold State.candidate
  dsimp only
  rw [h]

theorem State.nandCandidate_idle {s : State} {c : Chip} (h : (s.context c).state = .idle) :
    s.nandCandidate c = true ↔
      s.health.get c = .ok ∧ (s.queue (.chip c) ≠ [] ∨ s.startup.LoadsIn c .reading) := by
  unfold State.nandCandidate
  simp [h, Startup.loadsIn_iff, Startup.nandReadDue_iff]

theorem Sdram.initDue_iff {d : Sdram} :
    d.initDue = true ↔ d.init = .precharge ∨ d.init = .refresh ∨ d.init = .mode := by
  simp only [Sdram.initDue, Bool.or_eq_true, beq_iff_eq, or_assoc]

theorem State.sdEntryReady_iff {s : State} : s.sdEntryReady = true ↔ s.sdram.state = .ready ∧ s.queue .sd ≠ [] := by
  simp [State.sdEntryReady]

theorem State.selfRefreshDue_iff {s : State} :
    s.selfRefreshDue = true ↔ (s.sdram.state = .ready ∨ s.sdram.state = .powerdown) ∧ s.queue .sd = [] ∧
      ((s.sdram.srReached = true ∧ s.sdram.settings.selfRefreshIdle ≠ 0) ∨ s.sdram.sleepPending = true) := by
  simp [State.selfRefreshDue, and_assoc]

theorem State.selfRefreshExitDue_iff {s : State} :
    s.selfRefreshExitDue = true ↔ s.sdram.state = .selfRefresh ∧ s.queue .sd ≠ [] := by
  simp [State.selfRefreshExitDue]

/-- SD is a candidate for an initialisation step, and in READY for its debt, an entry or a self-refresh entry, and in
SELFREFRESH for the exit (R60, R101, R103). -/
theorem State.candidate_sd {s : State} :
    s.candidate .sd = true ↔ s.sdram.initDue = true ∨
      (s.sdram.state = .ready ∧ (1 ≤ s.sdram.debt ∨ s.queue .sd ≠ [] ∨ s.queue .sd = [] ∧
        ((s.sdram.srReached = true ∧ s.sdram.settings.selfRefreshIdle ≠ 0) ∨ s.sdram.sleepPending = true))) ∨
      (s.sdram.state = .selfRefresh ∧ s.queue .sd ≠ []) := by
  unfold State.candidate
  simp only [Bool.or_eq_true, Bool.and_eq_true, decide_eq_true_eq, beq_iff_eq, State.sdEntryReady_iff,
    State.selfRefreshDue_iff, State.selfRefreshExitDue_iff]
  tauto

/-! ### The winner (R61) -/

theorem ringAfter_eq : ∀ {before after : List Slot} {k : Slot},
    [Slot.sd, .chip .s1, .chip .s2, .chip .s3, .chip .s4] = before ++ k :: after → ringAfter k = after ++ before ++ [k]
  | [], _, _, h => by cases h; rfl
  | [_], _, _, h => by cases h; rfl
  | [_, _], _, _, h => by cases h; rfl
  | [_, _, _], _, _, h => by cases h; rfl
  | [_, _, _, _], _, _, h => by cases h; rfl
  | _ :: _ :: _ :: _ :: _ :: _, _, _, h => by simpa using congrArg List.length h

theorem mem_ringAfter (j k : Slot) : k ∈ ringAfter j := by
  rcases j with (_ | _ | _ | _) | _ <;> rcases k with (_ | _ | _ | _) | _ <;> decide

theorem State.winner_iff {s : State} {k : Slot} :
    s.winner = some k ↔ s.candidate k = true ∧
      if (s.sdram.initDue ∨ 6 ≤ s.sdram.debt) ∧ s.candidate .sd = true then k = .sd
      else ∃ passed rest, ringAfter s.arbiter.lastGranted = passed ++ k :: rest ∧ ∀ x ∈ passed, s.candidate x = false := by
  have hurgent : (s.sdram.urgent && s.candidate .sd) = true ↔
      (s.sdram.initDue ∨ 6 ≤ s.sdram.debt) ∧ s.candidate .sd = true := by simp [Sdram.urgent]
  unfold State.winner
  by_cases hu : (s.sdram.initDue ∨ 6 ≤ s.sdram.debt) ∧ s.candidate .sd = true
  · rw [if_pos (hurgent.2 hu), if_pos hu]
    constructor
    · rintro ⟨⟩
      exact ⟨hu.2, rfl⟩
    · rintro ⟨-, rfl⟩
      rfl
  · rw [if_neg (mt hurgent.1 hu), if_neg hu, List.find?_eq_some_iff_append]
    simp

theorem State.winner_of_candidate {s : State} {k : Slot} (h : s.candidate k = true) : ∃ j, s.winner = some j := by
  unfold State.winner
  split
  · exact ⟨_, rfl⟩
  · exact Option.isSome_iff_exists.1 (List.find?_isSome.2 ⟨k, mem_ringAfter _ k, h⟩)

/-! ### The granted state -/

/-- The state that a grant to `k` leaves, where the engine has left `u` and begins `b` (R61, R69). -/
def State.withTenure (u : State) (k : Slot) (b : Begin) : State :=
  { u with arbiter := { u.arbiter with
      lastGranted := k
      tenure := some { slot := k, purpose := b.purpose, entry := b.entry, gap := u.gapLeft k b
                       start := u.now + u.gapLeft k b } } }

theorem State.grant_of_tenure {s : State} (h : s.arbiter.tenure ≠ none) : s.grant = s := by
  obtain ⟨t, ht⟩ := Option.ne_none_iff_exists'.1 h
  rw [State.grant, ht]

theorem State.grant_of_winner {s : State} {k : Slot} (ht : s.arbiter.tenure = none) (hk : s.winner = some k) :
    s.grant = (s.beginOn k).1.withTenure k (s.beginOn k).2 := by
  rw [State.grant, ht]
  dsimp only
  rw [hk]
  rfl

theorem State.grant_of_no_candidate {s : State} (ht : s.arbiter.tenure = none) (h : ∀ k, s.candidate k = false) :
    s.grant = s := by
  have hnone : s.winner = none := by
    by_contra hsome
    obtain ⟨k, hk⟩ := Option.ne_none_iff_exists'.1 hsome
    exact Bool.false_ne_true ((h k).symm.trans (State.winner_candidate hk))
  rw [State.grant, ht]
  dsimp only
  rw [hnone]

/-! ### What a static slot begins (R64, R187) -/

theorem State.beginOn_static {s : State} {c : Chip} (h : (s.profile c).type ≠ .nand) :
    s.beginOn (.chip c) = s.beginStatic c := if_neg h

theorem State.beginOn_nand {s : State} {c : Chip} (h : (s.profile c).type = .nand) :
    s.beginOn (.chip c) = s.beginNand c := if_pos h

theorem State.beginStatic_load {s : State} {c : Chip} (h : s.startup.loads c = true) :
    s.beginStatic c = (s, ⟨.loadChunk, none⟩) := if_pos h

theorem State.beginStatic_head {s : State} {c : Chip} {r : Ref} {rest : List Ref} {e : Entry}
    (h : s.startup.loads c = false) (hq : s.queue (.chip c) = r :: rest) (he : s.find r = some e) :
    s.beginStatic c = (s.updateEntry r Entry.activate, ⟨transferPurpose e.kind, some r⟩) := by
  unfold State.beginStatic
  rw [h, if_neg Bool.false_ne_true, hq]
  dsimp only
  rw [he]

/-! ### What a NAND slot begins (R64, R122, R188) -/

section
variable {s : State} {c : Chip}

theorem State.beginNand_load (hx : (s.context c).state = .idle) (h : s.startup.loads c = true) :
    s.beginNand c = (s.setContext c { s.context c with state := .busy, op := some .read, left := 1, readySeen := false },
      ⟨.nandCommand, none⟩) := by
  unfold State.beginNand
  dsimp only
  rw [hx]
  exact if_pos h

theorem State.beginNand_head {r : Ref} {rest : List Ref} {e : Entry} (hx : (s.context c).state = .idle)
    (h : s.startup.loads c = false) (hq : s.queue (.chip c) = r :: rest) (he : s.find r = some e) :
    s.beginNand c = s.beginNandHead c r e := by
  unfold State.beginNand
  dsimp only
  rw [hx]
  dsimp only
  rw [h, if_neg Bool.false_ne_true, hq]
  dsimp only
  rw [he]

theorem State.beginNand_loading {r : Ref} {e : Entry} (hx : (s.context c).state = .loading)
    (hr : (s.context c).entry = some r) (he : s.find r = some e) :
    s.beginNand c =
      ({ s with ecc := eccEncode c (s.profile c).ecc e.raw (s.stagedSector e e.moved) }, ⟨.nandLoad, some r⟩) := by
  have hentry : s.contextEntry c = some e := by rw [State.contextEntry, hr, Option.bind_some, he]
  unfold State.beginNand
  dsimp only
  rw [hx]
  dsimp only
  rw [hentry, hr]

theorem State.beginNand_read (hx : (s.context c).state = .busy) (hop : (s.context c).op = some .read) :
    s.beginNand c = s.beginUnload c { s.context c with state := .unloading } := by
  unfold State.beginNand
  dsimp only
  rw [hx]
  exact if_pos hop

theorem State.beginNand_unloading (hx : (s.context c).state = .unloading) :
    s.beginNand c = s.beginUnload c (s.context c) := by
  unfold State.beginNand
  dsimp only
  rw [hx]

theorem State.beginNand_status (hx : (s.context c).state = .busy) (hop : (s.context c).op ≠ some .read) :
    s.beginNand c =
      (s.setContext c { s.context c with state := .checking }, ⟨.nandStatus, (s.context c).entry⟩) := by
  unfold State.beginNand
  dsimp only
  rw [hx]
  exact if_neg hop

theorem State.beginNand_checking (hx : (s.context c).state = .checking) :
    s.beginNand c = (s, ⟨.nandStatus, (s.context c).entry⟩) := by
  unfold State.beginNand
  dsimp only
  rw [hx]

theorem State.beginNand_reset (hx : (s.context c).state = .recovering ∨ (s.context c).state = .clearing) :
    s.beginNand c = (s, ⟨.nandReset, none⟩) := by
  unfold State.beginNand
  rcases hx with hx | hx <;> simp only [hx]

/-- The head of a queue as the first tenure of its operation finds it: out of the queue and ACTIVE (R17, R123). -/
def State.withHead (s : State) (c : Chip) (r : Ref) : State := (s.dequeue (.chip c) r).updateEntry r Entry.activate

theorem State.beginNandHead_eq (s : State) (c : Chip) (r : Ref) (e : Entry) :
    let y := { s.context c with entry := some r, readySeen := false };
    (e.kind = .pgProg → s.beginNandHead c r e =
      ({ (s.withHead c r).setContext c
          { y with state := .loading, op := some .program, left := (s.profile c).pageSize / 512 } with
        ecc := eccEncode c (s.profile c).ecc e.raw (s.stagedSector e 0) }, ⟨.nandLoad, some r⟩)) ∧
    (e.kind = .pgRead → s.beginNandHead c r e =
      ((s.withHead c r).setContext c { y with state := .busy, op := some .read, left := e.sectorCount },
        ⟨.nandCommand, some r⟩)) ∧
    (e.kind = .blkErase → s.beginNandHead c r e =
      ((s.withHead c r).setContext c { y with state := .busy, op := some .erase, left := 0 }, ⟨.nandCommand, some r⟩)) ∧
    (e.kind = .nandId → s.beginNandHead c r e =
      ((s.withHead c r).setContext c { y with state := .busy, op := some .id, left := 0, readySeen := true },
        ⟨.nandId, some r⟩)) := by
  intro y
  unfold State.beginNandHead
  refine ⟨fun h => ?_, fun h => ?_, fun h => ?_, fun h => ?_⟩ <;> rw [h] <;> rfl

/-- An unloading tenure takes the code of the entry that the context serves, or H1 for the setup load (R148, R155). -/
theorem State.beginUnload_of_entry (s : State) (c : Chip) (x : Context) :
    (∀ e, x.entry.bind (fun r => s.find r) = some e → s.beginUnload c x =
      ({ s.setContext c x with ecc := eccDecode c (s.profile c).ecc e.raw }, ⟨.nandUnload, x.entry⟩)) ∧
    (x.entry.bind (fun r => s.find r) = none → s.beginUnload c x =
      ({ s.setContext c x with ecc := eccDecode c .h1 false }, ⟨.nandUnload, none⟩)) := by
  have hentry : (s.setContext c x).contextEntry c = x.entry.bind (fun r => s.find r) := by
    rw [State.contextEntry, State.context_setContext, if_pos rfl]
    rfl
  unfold State.beginUnload
  dsimp only
  rw [hentry]
  exact ⟨fun e he => by rw [he]; rfl, fun he => by rw [he]⟩

end

/-! ### What SD begins (R63, R102, R103, R114) -/

section
variable {s : State}

/-- The grant's choice once no initialisation step is due. -/
theorem State.beginSd_of_initialised (h : s.sdram.initDue = false) :
    s.beginSd = if 6 ≤ s.sdram.debt then s.beginRefresh else if s.sdEntryReady then s.beginSdEntry
      else if s.selfRefreshDue then
        (s.setSdram { s.sdram with debt := 0, refreshTimer := none }, ⟨.selfRefreshEntry s.sdram.debt, none⟩)
      else if s.selfRefreshExitDue then (s, ⟨.selfRefreshExit, none⟩) else s.beginRefresh := by
  obtain ⟨hprecharge, hrefresh, hmode⟩ :
      s.sdram.init ≠ .precharge ∧ s.sdram.init ≠ .refresh ∧ s.sdram.init ≠ .mode := by
    have hnot := mt Sdram.initDue_iff.2 (by simp [h] : ¬s.sdram.initDue = true)
    tauto
  unfold State.beginSd
  rw [if_neg hprecharge, if_neg hrefresh, if_neg hmode]

theorem State.beginSd_init :
    (s.sdram.init = .precharge → s.beginSd = (s, ⟨.initPrecharge, none⟩)) ∧
    (s.sdram.init = .refresh → s.beginSd = (s, ⟨.initRefresh, none⟩)) ∧
    (s.sdram.init = .mode → s.beginSd = (s, ⟨.initMode, none⟩)) := by
  unfold State.beginSd
  refine ⟨fun h => if_pos h, fun h => ?_, fun h => ?_⟩ <;> simp [h]

theorem State.beginSd_urgent (h : s.sdram.initDue = false) (hdebt : 6 ≤ s.sdram.debt) : s.beginSd = s.beginRefresh := by
  rw [State.beginSd_of_initialised h, if_pos hdebt]

/-- With no initialisation step, no urgent debt and no entry to serve SD enters or leaves self-refresh where that is due, and
refreshes otherwise. -/
theorem State.beginSd_no_work (h : s.sdram.initDue = false) (hdebt : s.sdram.debt < 6) (hready : s.sdEntryReady = false) :
    (s.selfRefreshDue = true → s.beginSd =
      (s.setSdram { s.sdram with debt := 0, refreshTimer := none }, ⟨.selfRefreshEntry s.sdram.debt, none⟩)) ∧
    (s.selfRefreshDue = false → s.selfRefreshExitDue = true → s.beginSd = (s, ⟨.selfRefreshExit, none⟩)) ∧
    (s.selfRefreshDue = false → s.selfRefreshExitDue = false → s.beginSd = s.beginRefresh) := by
  rw [State.beginSd_of_initialised h, if_neg (Nat.not_le.2 hdebt), hready, if_neg Bool.false_ne_true]
  exact ⟨fun hin => if_pos hin, fun hin hout => by simp [hin, hout], fun hin hout => by simp [hin, hout]⟩

end

/-! ### The whole statement -/

/-- Settles O6: the candidates slot by slot, the winner as the first in its ring, and what a grant begins by the equation of
the engine's part in each case. -/
theorem grantGoesRoundTheRing : Obligations.GrantGoesRoundTheRing := by
  refine ⟨?_, ?_, ?_⟩
  · intro s d loads sleeps
    refine ⟨fun c => ⟨State.candidate_off, State.candidate_static, fun h => ?_⟩, State.candidate_sd, Sdram.initDue_iff,
      State.selfRefreshDue_iff, State.selfRefreshExitDue_iff, fun k => State.winner_iff, fun _ _ _ => ringAfter_eq⟩
    rw [State.candidate_nand h]
    cases hx : (s.context c).state with
    | idle => exact State.nandCandidate_idle hx
    | _ => simp [State.nandCandidate, hx]
  · refine fun s => ⟨State.grant_of_tenure, State.grant_of_no_candidate, fun ht k hk => ?_⟩
    obtain ⟨j, hj⟩ := State.winner_of_candidate hk
    obtain ⟨hcandidate, hturn⟩ := State.winner_iff.1 hj
    rw [State.grant_of_winner ht hj]
    exact ⟨j, _, rfl, rfl, rfl, hcandidate, hturn⟩
  · intro s k ht hk begins activated
    have hbegins : ∀ {u : State} {b : Begin}, s.beginOn k = (u, b) → u.now = s.now → begins u b.purpose b.entry := by
      intro u b hu hnow
      change s.grant = _
      rw [State.grant_of_winner ht hk, hu, ← hnow]
      rfl
    refine ⟨fun c hc htype => ?_, fun c hc htype => ?_, fun hsd => ?_⟩
    · subst hc
      have hon := State.beginOn_static htype
      exact ⟨fun h => hbegins (hon.trans (State.beginStatic_load h)) rfl,
        fun h r rest e hq he => hbegins (hon.trans (State.beginStatic_head h hq he)) rfl⟩
    · subst hc
      intro f x encoding unloading
      have hon := State.beginOn_nand htype
      have hunloading : ∀ y : Context, y.entry = x.entry → s.beginNand c = s.beginUnload c y → unloading y := by
        intro y hy hbegin
        obtain ⟨hsome, hnone⟩ := s.beginUnload_of_entry c y
        change match x.entry.bind (fun r => s.find r) with | some e => _ | none => _
        cases he : x.entry.bind (fun r => s.find r) with
        | some e => exact hy ▸ hbegins (hon.trans (hbegin.trans (hsome e (hy ▸ he)))) rfl
        | none => exact hbegins (hon.trans (hbegin.trans (hnone (hy ▸ he)))) rfl
      refine ⟨fun hx h => hbegins (hon.trans (State.beginNand_load hx h)) rfl, fun hx h r rest e hq he => ?_,
        fun hx r e hr he => hbegins (hon.trans (State.beginNand_loading hx hr he)) rfl,
        fun hx hop => hunloading _ rfl (State.beginNand_read hx hop),
        fun hx => hunloading _ rfl (State.beginNand_unloading hx),
        fun hx hop => hbegins (hon.trans (State.beginNand_status hx hop)) rfl,
        fun hx => hbegins (hon.trans (State.beginNand_checking hx)) rfl,
        fun hx => hbegins (hon.trans (State.beginNand_reset hx)) rfl⟩
      have hhead := hon.trans (State.beginNand_head hx h hq he)
      obtain ⟨hprog, hread, herase, hid⟩ := s.beginNandHead_eq c r e
      exact ⟨fun h => hbegins (hhead.trans (hprog h)) rfl, fun h => hbegins (hhead.trans (hread h)) rfl,
        fun h => hbegins (hhead.trans (herase h)) rfl, fun h => hbegins (hhead.trans (hid h)) rfl⟩
    · subst hsd
      intro d work round
      obtain ⟨hprecharge, hrefresh, hmode⟩ := State.beginSd_init (s := s)
      refine ⟨fun h => hbegins (hprecharge h) rfl, fun h => hbegins (hrefresh h) rfl, fun h => hbegins (hmode h) rfl,
        fun hinit hdebt => hbegins (State.beginSd_urgent hinit hdebt) rfl, fun hinit hdebt hwork => ?_⟩
      have hready : s.sdEntryReady = false := Bool.not_eq_true _ ▸ mt State.sdEntryReady_iff.1 hwork
      obtain ⟨hentry, hexit, hround⟩ := State.beginSd_no_work hinit hdebt hready
      exact ⟨fun hdue => hbegins (hentry hdue) rfl, fun hdue => ⟨fun hout => hbegins (hexit hdue hout) rfl,
        fun hout => hbegins (hround hdue hout) rfl⟩⟩

end Sys2Proof.Machine
end

section
/-! The recovery gap of a granted tenure (R69), and the end of a tenure (R57, R98, R148). -/
namespace Sys2Proof.Machine

/-! ### What the engine's part of a grant leaves -/

theorem State.beginNandHead_arbiter (s : State) (c : Chip) (r : Ref) (e : Entry) :
    (s.beginNandHead c r e).1.arbiter = (s.dequeue (.chip c) r).arbiter := by
  unfold State.beginNandHead
  dsimp only
  split <;> rfl

theorem State.beginOn_now (s : State) (k : Slot) : (s.beginOn k).1.now = s.now := by
  rw [State.beginOn_only]

/-- The engine's part changes the queues alone of the arbiter (R17). -/
theorem State.beginOn_arbiter (s : State) (k : Slot) :
    ∃ q, (s.beginOn k).1.arbiter = { s.arbiter with queues := q } := by
  cases k with
  | sd =>
    change ∃ q, s.beginSd.1.arbiter = _
    rw [State.beginSd_only]
    exact ⟨_, rfl⟩
  | chip c =>
    unfold State.beginOn
    dsimp only
    split
    · unfold State.beginNand
      dsimp only
      split
      · split
        · exact ⟨_, rfl⟩
        · split
          · split
            · exact ⟨_, State.beginNandHead_arbiter s c _ _⟩
            · exact ⟨_, rfl⟩
          · exact ⟨_, rfl⟩
      · split <;> exact ⟨_, rfl⟩
      · split
        · rw [State.beginUnload_only]
          exact ⟨_, rfl⟩
        · exact ⟨_, rfl⟩
      · rw [State.beginUnload_only]
        exact ⟨_, rfl⟩
      · exact ⟨_, rfl⟩
      · exact ⟨_, rfl⟩
      · exact ⟨_, rfl⟩
    · rw [State.beginStatic_only]
      exact ⟨_, rfl⟩

/-- A grant keeps the kind of an entry. -/
theorem grantOps_kind (r : Ref) (x : ReqKind) : GrantOps fun s => (s.find r).map Entry.kind = some x where
  frame h ht _ := by simpa only [State.find_of_table ht] using h
  activate z h := by
    rw [State.find_updateEntry _ _ _ fun e => congrArg Ref.tag e.activate_keeps.1]
    split
    · next hz =>
      rw [← hz, Option.map_map]
      exact (congrArg (fun f => (State.find _ r).map f) (funext Entry.activate_kind)).trans h
    · exact h
  bypassed z h := by
    rw [State.find_updateEntry (f := Entry.bypassed) (hf := by intro; rfl)]
    split
    · next hz =>
      rw [← hz, Option.map_map]
      exact h
    · exact h

/-! ### The gap (R69) -/

section
variable {u : State} {k : Slot} {c : Chip} {b : Begin}

theorem State.gapLeft_unused (h : u.arbiter.endTime = none ∨ u.arbiter.lastUsed = none) : u.gapLeft k b = 0 := by
  unfold State.gapLeft
  rcases h with h | h
  · rw [h]
  · split
    · simp [State.gapFor, h]
    · rfl

theorem State.gapLeft_of_end {since : Nat} (h : u.arbiter.endTime = some since) :
    u.gapLeft k b = u.gapFor k b - (u.now - since) := by
  rw [State.gapLeft, h]

theorem State.gapFor_after_sd (h : u.arbiter.lastUsed = some .sd) : u.gapFor k b = if k = .sd then 0 else 1 := by
  unfold State.gapFor
  rw [h]
  cases k <;> rfl

theorem State.gapFor_other_slot (h : u.arbiter.lastUsed = some (.chip c)) (hk : k ≠ .chip c) :
    u.gapFor k b = (u.profile c).recovery := by
  unfold State.gapFor
  rw [h]
  cases k with
  | sd => rfl
  | chip d => exact if_neg fun hcd => hk (congrArg Slot.chip hcd.symm)

/-- On the slot used last only a turn from reading to writing needs the gap. -/
theorem State.gapFor_same_slot (h : u.arbiter.lastUsed = some (.chip c)) :
    u.gapFor (.chip c) b =
      if u.beginsWithWrite c b && !u.arbiter.lastWrite then (u.profile c).recovery else 0 := by
  unfold State.gapFor
  rw [h]
  exact if_pos rfl

theorem State.beginsWithWrite_read (h : b.purpose = .loadChunk ∨ b.purpose = .atomic) : u.beginsWithWrite c b = false := by
  unfold State.beginsWithWrite
  rcases h with h | h <;> rw [h]

theorem State.beginsWithWrite_chunk {r : Ref} {x : ReqKind} (h : b.purpose = .chunk) (hr : b.entry = some r)
    (hx : (u.find r).map Entry.kind = some x) : u.beginsWithWrite c b = (x == .write) := by
  obtain ⟨e, he, rfl⟩ := Option.map_eq_some_iff.1 hx
  unfold State.beginsWithWrite
  rw [h]
  dsimp only
  rw [hr, Option.bind_some, he]

theorem State.beginsWithWrite_unload (h : b.purpose = .nandUnload) :
    u.beginsWithWrite c b = ((u.profile c).pageSize != 512) := by
  unfold State.beginsWithWrite
  rw [h]

theorem State.beginsWithWrite_nand (h : b.purpose = .nandCommand ∨ b.purpose = .nandLoad ∨ b.purpose = .nandStatus ∨
    b.purpose = .nandId ∨ b.purpose = .nandReset) : u.beginsWithWrite c b = true := by
  unfold State.beginsWithWrite
  rcases h with h | h | h | h | h <;> rw [h]

end

/-! ### The whole statement -/

/-- Settles O42: the engine's part of a grant keeps what R69 looks at, the last tenure's record, the profiles and the entries'
kinds, so that the gap is read off the state before it. -/
theorem tenureEndIsRecordedAndGapsAreCounted : Obligations.TenureEndIsRecordedAndGapsAreCounted := by
  refine ⟨fun s t write cycles ht => by rw [State.endTenure, ht]; rfl, fun s k ht hk => ?_⟩
  rcases hb : s.beginOn k with ⟨u, b⟩
  have hgrant : s.grant = u.withTenure k b := by rw [State.grant_of_winner ht hk, hb]
  have hnow : u.now = s.now := by
    have hn := s.beginOn_now k
    rwa [hb] at hn
  obtain ⟨q, harbiter⟩ : ∃ q, u.arbiter = { s.arbiter with queues := q } := by
    have hq := s.beginOn_arbiter k
    rwa [hb] at hq
  have hend : u.arbiter.endTime = s.arbiter.endTime := by rw [harbiter]
  have hused : u.arbiter.lastUsed = s.arbiter.lastUsed := by rw [harbiter]
  have hwrite : u.arbiter.lastWrite = s.arbiter.lastWrite := by rw [harbiter]
  have hprofile : ∀ c, u.profile c = s.profile c := fun c => by rw [State.profile, harbiter]; rfl
  have hkind : ∀ r e, s.find r = some e → (u.find r).map Entry.kind = some e.kind := fun r e he => by
    have hg := (grantOps_kind r e.kind).grant (s := s) (by rw [he]; rfl)
    rwa [hgrant] at hg
  refine ⟨_, by rw [hgrant]; rfl, rfl, by rw [← hnow], fun h => State.gapLeft_unused (hend ▸ hused ▸ h), ?_⟩
  intro since hsince idle
  have hleft : u.gapLeft k b = u.gapFor k b - idle := by rw [State.gapLeft_of_end (hend.trans hsince), hnow]
  dsimp only
  rw [hleft]
  refine ⟨fun hsd => ?_, fun c hc => ?_⟩
  · rw [State.gapFor_after_sd (hused.trans hsd)]
    split
    · exact Nat.zero_sub _
    · rfl
  · refine ⟨fun hother => by rw [State.gapFor_other_slot (hused.trans hc) hother, hprofile], ?_⟩
    rintro rfl
    have hgap : u.gapFor (.chip c) b - idle =
        if u.beginsWithWrite c b && !s.arbiter.lastWrite then (s.profile c).recovery - idle else 0 := by
      rw [State.gapFor_same_slot (hused.trans hc), hwrite, hprofile]
      split
      · rfl
      · exact Nat.zero_sub _
    rw [hgap]
    refine ⟨fun hw => by simp [hw], fun hw => ⟨fun h => ?_, fun r e h hr he => ?_, fun h => ?_, fun h => ?_⟩⟩
    · rw [State.beginsWithWrite_read h]
      rfl
    · rw [State.beginsWithWrite_chunk h hr (hkind r e he), hw]
      simp
    · rw [State.beginsWithWrite_unload h, hw, hprofile]
      simp
    · rw [State.beginsWithWrite_nand h, hw]
      rfl

end Sys2Proof.Machine
end

section
/-! The beats of a range on a static slot (R77–R82, R85): the beat at each place of a range's work, its lanes and its group. -/
namespace Sys2Proof.Machine

/-! ### The beat at a place -/

/-- The sample that counts for beat `i` of a range whose first `k` beats complete: the one that reaches the WAIT limit stretches
by all of it (R80, R85). -/
def beatSample (f : Profile) (xs : List Sample) (base k i : Nat) : Sample :=
  if i < k then sampleAt xs (base + i) else ⟨0, f.waitLimit⟩

theorem Profile.stretch_beatSample (f : Profile) (xs : List Sample) (base k i : Nat) :
    f.stretch (beatSample f xs base k i) =
      if i < k then min (sampleAt xs (base + i)).stretch f.waitLimit else f.waitLimit := by
  unfold beatSample Profile.stretch
  split
  · rfl
  · exact Nat.min_self _

/-- A range's first `k` beats complete, and where the WAIT limit is reached the next one does not (R85): the beat at each place
is made of its sample, its place and whether it completes. -/
theorem beats_get {α : Type} (beat : Sample → Nat → Bool → α) (x : Nat → Sample) (z : Sample) {k i : Nat}
    {failed : Bool} (hi : i < k + if failed then 1 else 0) :
    ((List.range k).map (fun i => beat (x i) i true) ++ if failed then [beat z k false] else [])[i]? =
      some (beat (if i < k then x i else z) i (decide (i < k))) := by
  by_cases hk : i < k
  · simp [List.getElem?_append, hk]
  · cases failed with
    | false => exact absurd hi hk
    | true =>
      obtain rfl : i = k := Nat.le_antisymm (Nat.le_of_lt_succ hi) (Nat.le_of_not_lt hk)
      simp

theorem length_beats {α : Type} (g : Nat → α) (z : α) (k : Nat) (failed : Bool) :
    ((List.range k).map g ++ if failed then [z] else []).length = k + if failed then 1 else 0 := by
  cases failed <;> simp

theorem writeBeats_get (f : Profile) (w o : Nat) (d : List Byte) (xs : List Sample) (base : Nat) {k i : Nat}
    {failed : Bool} (hi : i < k + if failed then 1 else 0) :
    (writeBeats f w o d xs base k failed)[i]? =
      some (writeBeat f w o d (beatSample f xs base k i) (firstBeat w o + i) (decide (i < k))) :=
  beats_get (fun x i => writeBeat f w o d x (firstBeat w o + i)) (fun i => sampleAt xs (base + i)) _ hi

theorem readBeats_get (f : Profile) (w o m : Nat) (xs : List Sample) {k i : Nat} {failed : Bool}
    (hi : i < k + if failed then 1 else 0) :
    (readBeats f w o m xs k failed)[i]? =
      some (readBeat f w o m (beatSample f xs 0 k i) (firstBeat w o + i) (decide (i < k))) := by
  rw [beatSample, Nat.zero_add]
  exact beats_get (fun x i => readBeat f w o m x (firstBeat w o + i)) (sampleAt xs) _ hi

/-! ### The groups of read beats (R81) -/

/-- The beat address is aligned to the burst beats exactly when its slot offset is aligned to their bytes. -/
theorem mod_burst_eq_zero {w : Nat} (hw : 0 < w) (b n : Nat) : n * w % (b * w) = 0 ↔ b ∣ n := by
  rw [← Nat.dvd_iff_mod_eq_zero]
  exact Nat.mul_dvd_mul_iff_right hw

theorem Profile.groupStart_iff (f : Profile) {w : Nat} (hw : 0 < w) (o i : Nat) :
    f.groupStart w o (firstBeat w o + i) = true ↔ i = 0 ∨ f.type ≠ .nor ∨ f.burstBeats ∣ o / w + i := by
  unfold Profile.groupStart firstBeat
  simp only [Bool.or_eq_true, beq_iff_eq, bne_iff_ne, mod_burst_eq_zero hw, Nat.add_eq_left, or_assoc]

theorem Profile.groupEnd_iff (f : Profile) {w : Nat} (hw : 0 < w) (o m i : Nat) :
    f.groupEnd w o m (firstBeat w o + i) = true ↔
      i + 1 = beatCount w o m ∨ f.type ≠ .nor ∨ f.burstBeats ∣ o / w + i + 1 := by
  unfold Profile.groupEnd firstBeat
  simp only [Bool.or_eq_true, beq_iff_eq, bne_iff_ne, mod_burst_eq_zero hw, Nat.add_assoc, Nat.add_left_cancel_iff, or_assoc]

/-! ### The lanes of a beat (R77, R78) -/

/-- A disabled lane carries 0 (R78). -/
theorem writeLanes_get_outside {w j o beat : Nat} {d : List Byte} (hj : j < w)
    (hout : ¬(o ≤ beat * w + j ∧ beat * w + j < o + d.length)) : (writeLanes w o d beat)[j]? = some 0 := by
  simp [writeLanes, hj, hout]

@[simp] theorem length_sampledLanes (w : Nat) (x : Sample) : (sampledLanes w x).length = w := by simp [sampledLanes]

theorem sampledLanes_get {w j : Nat} (hj : j < w) (x : Sample) :
    (sampledLanes w x)[j]? = some ((x.md >>> (8 * j)).setWidth 8) := by
  simp [sampledLanes, lane, hj]

/-- In every MCLK of a beat MBE# is low on the enabled lanes alone, and high on every line above the slot's width (R77). -/
theorem laneEnables_lanesOf {j : Nat} (hj : j < 4) (w o m beat : Nat) :
    (laneEnables (lanesOf w o m beat))[j]? =
      some (some (decide (w ≤ j ∨ ¬(o ≤ beat * w + j ∧ beat * w + j < o + m)))) := by
  rw [laneEnables_get _ hj, List.getD_eq_getElem?_getD]
  by_cases hw : j < w
  · rw [lanesOf_get hw]
    simp [Nat.not_le.2 hw, -not_and, Bool.decide_and]
  · simp [lanesOf, Nat.le_of_not_lt hw]

/-! ### The whole statement -/

/-- Settles O31: the beat at each place by `readBeats_get` and `writeBeats_get`, its group by `groupStart_iff` and
`groupEnd_iff`, its lanes one by one. -/
theorem beatsCarryTheRange : Obligations.BeatsCarryTheRange := by
  intro f w o m base k d xs failed hw hm hd count reads writes n
  have hcount : beatCount w o m = count := if_neg hm.ne'
  refine ⟨hcount, length_beats _ _ k failed, length_beats _ _ k failed, fun _ i hi => ?_⟩
  intro beat inside stretch first last
  have hwrite := writeBeats_get f w o d xs base hi
  have hread := readBeats_get f w o m xs hi
  have hfirst : f.groupStart w o (firstBeat w o + i) = true ↔ first := f.groupStart_iff hw o i
  have hlast : (f.groupEnd w o m (firstBeat w o + i) || !decide (i < k)) = true ↔ last := by
    rw [Bool.or_eq_true, f.groupEnd_iff hw, hcount]
    simp [last, beat, or_assoc]
  have hsampled : (if decide (i < k) then sampledLanes w (beatSample f xs 0 k i) else []) =
      if i < k then sampledLanes w (sampleAt xs i) else [] := by
    by_cases hk : i < k <;> simp [beatSample, hk]
  refine ⟨lanesOf w o m beat, writeLanes w o d beat, if i < k then sampledLanes w (sampleAt xs i) else [], ?_, ?_,
    length_lanesOf _ _ _ _, length_writeLanes _ _ _ _, ?_, ?_, ?_, ?_⟩
  · rw [hwrite, writeBeat, f.stretch_beatSample, hd]
    rfl
  · rw [hread, readBeat, f.stretch_beatSample, hsampled]
    simp only [hfirst, hlast, Nat.zero_add]
    rfl
  · split <;> simp
  · intro j hj
    rw [lanesOf_get hj]
    refine ⟨fun hin => ⟨by rw [decide_eq_true hin], ?_⟩, fun hout => ⟨by rw [decide_eq_false hout], ?_⟩⟩
    · exact writeLanes_get hj hin.1 (hd ▸ hin.2)
    · exact writeLanes_get_outside hj (hd ▸ hout)
  · intro j hj
    by_cases hk : i < k
    · rw [if_pos hk] at hj ⊢
      exact sampledLanes_get (by rwa [length_sampledLanes] at hj) _
    · rw [if_neg hk] at hj
      exact absurd hj (Nat.not_lt_zero j)
  · intro x hx c t j hj
    have hmbe : (x.lines (.chip c) f t).mbe = laneEnables (lanesOf w o m beat) := by
      rcases hx with hx | hx
      · obtain rfl := Option.some.inj (hread.symm.trans hx)
        rfl
      · obtain rfl := Option.some.inj (hwrite.symm.trans hx)
        rw [← hd]
        rfl
    rw [hmbe, laneEnables_lanesOf hj]

end Sys2Proof.Machine
end

section
/-! What a full reset begins by the BOOT strap (R76, R118, R183, R184, R186, R188). -/
namespace Sys2Proof.Machine

/-! ### The full reset of a pending BRIDGE-RESET -/

/-- `t` is what a full reset for port `p` leaves, with the BOOT strap at its level in `s` (R181, R183, log entry 2). -/
def State.ResetsTo (s : State) (p : Port) (t : State) : Prop :=
  ∃ (v : State) (pins : Pins), t = v.fullReset (.message p) pins ∧ pins.boot = s.pins.boot

section
variable {s : State} {p : Port}

theorem State.portResetStep_resets (cause : PortStart) (h : s.bridgeReset = some p) :
    s.ResetsTo p (s.portResetStep p cause) := by
  let v := (s.cleared p cause).post p.other (.peerReset p cause)
  have hreset : s.portReset p cause = v.messageReset p := by rw [State.portReset_eq, if_pos h]
  have hboot : v.pins.boot = s.pins.boot := by rw [State.post_pins]; rfl
  refine ⟨v, v.messagePins, ?_, hboot⟩
  rw [State.portResetStep, hreset]
  exact State.examineHeads_of_empty (v.fullReset_fullyReset _ _).2.1

/-- The end of the frame of BRIDGE-RESET's OK (R181). -/
theorem State.frameSent_resets {token : Byte} {body : List Byte} {rest : List Item} (h : s.bridgeReset = some p)
    (htx : (s.port p).tx ≠ none) (hready : (s.port p).ready = .ctrl token .bridgeReset .ok body :: rest) :
    s.ResetsTo p (s.frameSent p) := by
  obtain ⟨x, hx⟩ := Option.ne_none_iff_exists'.1 htx
  let u := s.setPort p { s.port p with tx := none, ready := rest }
  refine ⟨u.setPort p { u.port p with held := (u.port p).held - 1 }, s.messagePins, ?_, rfl⟩
  unfold State.frameSent
  rw [hx, hready]
  exact if_pos ⟨rfl, rfl, h⟩

/-- A PORT-RESET that is acted on (R178, R181). -/
theorem State.takePortReset_resets {seq : Byte} {d : List Byte} (h : s.bridgeReset = some p)
    (ht : s.Takes p CtrlKind.portReset.code seq d) (hs : s.Serves p) (hd : d ≠ []) :
    s.ResetsTo p (s.takePortReset p seq d) := by
  obtain ⟨htop, hport⟩ := hs.takeFrame seq
  have htake : s.takePortReset p seq d = (s.takeFrame p seq).portResetStep p .message := by
    unfold State.takePortReset State.dealPortReset
    rw [State.takeMessage_in_turn ht]
    simp only [htop, hport, hd, if_false]
  obtain ⟨v, pins, hstep, hboot⟩ :=
    State.portResetStep_resets (s := s.takeFrame p seq) .message ((s.takeFrame_bridgeReset p seq).trans h)
  exact ⟨v, pins, htake.trans hstep, hboot.trans (by rw [State.takeFrame_pins])⟩

/-- A break of an UP port (R179, R181). -/
theorem State.breakTaken_resets (h : s.bridgeReset = some p) (hup : (s.port p).state = .up)
    (hbreak : (s.port p).receiver ≠ .inBreak) : s.ResetsTo p (s.breakTaken p) := by
  let u := (s.setRxd p false).setPort p { (s.setRxd p false).port p with receiver := .inBreak }
  have hstate : (u.port p).state = .up := by
    rw [State.port_setPort, if_pos rfl]
    exact hup
  have htake : s.breakTaken p = u.portResetStep p .brk := by
    unfold State.breakTaken
    rw [if_neg hbreak]
    dsimp only
    rw [hstate]
  obtain ⟨v, pins, hstep, hboot⟩ := State.portResetStep_resets (s := u) .brk h
  exact ⟨v, pins, htake.trans hstep, hboot⟩

theorem State.TakesFullReset.resetsTo {c : Instr} (h : s.TakesFullReset c (.message p)) :
    ∃ t, exec c s = .next (State.settle t) ∧ s.ResetsTo p t := by
  obtain ⟨hp, -⟩ | ⟨hp, -⟩ | ⟨q, hq, hpending, hway⟩ := h
  · cases hp
  · cases hp
  · obtain rfl := Cause.message.inj hq
    rcases hway with ⟨rfl, htx, token, body, rest, hready⟩ | ⟨seq, d, rfl, ht, hs, hd⟩ | ⟨rfl, hup, hbreak⟩
    · exact ⟨_, rfl, State.frameSent_resets hpending htx hready⟩
    · exact ⟨_, rfl, State.takePortReset_resets hpending ht hs hd⟩
    · exact ⟨_, rfl, State.breakTaken_resets hpending hup hbreak⟩

end

/-! ### The first grant after a full reset (R61, R62) -/

section
variable {s : State} {cause : Cause} {pins : Pins}

/-- No port has an item to send, so that a full reset settles by the grant alone. -/
theorem State.fullReset_settle : (s.fullReset cause pins).settle = (s.fullReset cause pins).grant := rfl

/-- The slots but S1 have nothing to run (R116, R118). -/
theorem State.fullReset_candidate {k : Slot} (hk : k ≠ .chip .s1) : (s.fullReset cause pins).candidate k = false := by
  cases k with
  | sd => rfl
  | chip c =>
    refine State.candidate_off ?_
    cases c with
    | s1 => exact absurd rfl hk
    | s2 | s3 | s4 => rfl

theorem State.fullReset_settle_idle (h : (s.fullReset cause pins).candidate (.chip .s1) = false) :
    (s.fullReset cause pins).settle = s.fullReset cause pins := by
  refine State.grant_of_no_candidate rfl fun k => ?_
  by_cases hk : k = .chip .s1
  · exact hk ▸ h
  · exact State.fullReset_candidate hk

/-- S1's work begins at MCLK 0, with no recovery gap (R69, log entry 17). -/
theorem State.fullReset_settle_grant {b : Begin} (h : (s.fullReset cause pins).candidate (.chip .s1) = true)
    (hb : (s.fullReset cause pins).beginOn (.chip .s1) = (s.fullReset cause pins, b)) :
    (s.fullReset cause pins).settle.profile = (s.fullReset cause pins).profile ∧
      (s.fullReset cause pins).settle.arbiter.tenure =
        some { slot := .chip .s1, purpose := b.purpose, entry := b.entry, gap := 0, start := 0 } := by
  have hwinner : (s.fullReset cause pins).winner = some (.chip .s1) := by
    have hsd : (s.fullReset cause pins).candidate .sd = false := State.fullReset_candidate nofun
    rw [State.winner_iff, if_neg (by simp [hsd])]
    exact ⟨h, [.sd], [.chip .s2, .chip .s3, .chip .s4], rfl, by simp [hsd]⟩
  rw [State.fullReset_settle, State.grant_of_winner rfl hwinner, hb]
  exact ⟨rfl, rfl⟩

end

/-! ### S1 by the strap (R76, R118, R184, R186, R188) -/

section
variable {s : State} {cause : Cause} {pins : Pins}

theorem State.fullReset_profile_s1 : (s.fullReset cause pins).profile .s1 = Profile.boot pins.boot := rfl

theorem State.fullReset_context_s1 : (s.fullReset cause pins).context .s1 = Context.boot pins.boot := rfl

theorem State.fullReset_startup : (s.fullReset cause pins).startup = Startup.afterReset pins.boot cause := rfl

/-- With BOOT 00 every slot is OFF, and nothing is granted. -/
theorem State.fullReset_settle_off (h : pins.boot = 0) :
    (∀ x, (s.fullReset cause pins).settle.profile x = Profile.off) ∧
      (s.fullReset cause pins).settle.startup.top = .running ∧
      (s.fullReset cause pins).settle.arbiter.tenure = none := by
  have hs1 : (s.fullReset cause pins).profile .s1 = Profile.off := by
    rw [State.fullReset_profile_s1, h]
    rfl
  have hsettle : (s.fullReset cause pins).settle = s.fullReset cause pins :=
    State.fullReset_settle_idle (State.candidate_off (by rw [hs1]; rfl))
  rw [State.settle_startup, State.fullReset_startup, h, hsettle]
  refine ⟨fun x => ?_, rfl, rfl⟩
  cases x with
  | s1 => exact hs1
  | s2 | s3 | s4 => rfl

/-- With BOOT 01 S1 is NOR and reads the first chunk of the load. -/
theorem State.fullReset_settle_nor (h : pins.boot = 1) :
    (s.fullReset cause pins).settle.profile .s1 = Profile.bootNor ∧
      (s.fullReset cause pins).settle.startup.top = .starting .load ∧
      (s.fullReset cause pins).settle.arbiter.tenure =
        some { slot := .chip .s1, purpose := .loadChunk, entry := none, gap := 0, start := 0 } := by
  have hprofile : (s.fullReset cause pins).profile .s1 = Profile.bootNor := by
    rw [State.fullReset_profile_s1, h]
    rfl
  have hload : (s.fullReset cause pins).startup.load = some ⟨false, .norChunks, 0⟩ := by
    rw [State.fullReset_startup, h]
    rfl
  have htype : ((s.fullReset cause pins).profile .s1).type = .nor := congrArg Profile.type hprofile
  have hcandidate : (s.fullReset cause pins).candidate (.chip .s1) = true :=
    (State.candidate_static (.inr htype)).2 ⟨rfl, .inr ⟨rfl, _, hload, rfl⟩⟩
  have hbegin : (s.fullReset cause pins).beginOn (.chip .s1) = (s.fullReset cause pins, ⟨.loadChunk, none⟩) := by
    rw [State.beginOn_static (by rw [htype]; nofun),
      State.beginStatic_load (Startup.loadsIn_iff.1 ⟨rfl, _, hload, rfl⟩).1]
  obtain ⟨hkept, htenure⟩ := State.fullReset_settle_grant hcandidate hbegin
  rw [hkept, hprofile, State.settle_startup, State.fullReset_startup, h, htenure]
  exact ⟨rfl, rfl, rfl⟩

/-- With BOOT 10 and 11 S1 is NAND and takes the reset that precedes the load. -/
theorem State.fullReset_settle_nand (h : pins.boot = 2 ∨ pins.boot = 3) :
    (s.fullReset cause pins).settle.profile .s1 = Profile.boot pins.boot ∧
      (s.fullReset cause pins).settle.startup.top = .starting .load ∧
      (s.fullReset cause pins).settle.arbiter.tenure =
        some { slot := .chip .s1, purpose := .nandReset, entry := none, gap := 0, start := 0 } := by
  have htype : ((s.fullReset cause pins).profile .s1).type = .nand := by
    rw [State.fullReset_profile_s1]
    rcases h with h | h <;> rw [h] <;> rfl
  have hcontext : (s.fullReset cause pins).context .s1 =
      { Context.idle with state := .recovering, op := some .reset } := by
    rw [State.fullReset_context_s1]
    rcases h with h | h <;> rw [h] <;> rfl
  have hcandidate : (s.fullReset cause pins).candidate (.chip .s1) = true := by
    rw [State.candidate_nand htype, State.nandCandidate, hcontext]
    rfl
  have hbegin : (s.fullReset cause pins).beginOn (.chip .s1) = (s.fullReset cause pins, ⟨.nandReset, none⟩) := by
    rw [State.beginOn_nand htype, State.beginNand_reset (.inl (by rw [hcontext]))]
  obtain ⟨hkept, htenure⟩ := State.fullReset_settle_grant hcandidate hbegin
  rw [hkept, State.fullReset_profile_s1, State.settle_startup, State.fullReset_startup, htenure]
  refine ⟨rfl, ?_, rfl⟩
  rcases h with h | h <;> rw [h] <;> rfl

end

/-- Settles O9: every command that takes a full reset comes to `fullReset`, and the strap decides what S1 is and what it is
granted as the reset settles. -/
theorem bootStrapChoosesTheSource : Obligations.BootStrapChoosesTheSource := by
  intro s c boot hcommand
  obtain ⟨v, cause, pins, hexec, hboot⟩ : ∃ (v : State) (cause : Cause) (pins : Pins),
      exec c s = .next (v.fullReset cause pins).settle ∧ pins.boot = boot := by
    rcases hcommand with ⟨pins, hboot, rfl | rfl⟩ | ⟨rfl, p, hmessage⟩
    · exact ⟨s, .power, pins, rfl, hboot⟩
    · exact ⟨s, .pin, pins, rfl, hboot⟩
    · obtain ⟨_, hexec, v, pins, rfl, hboot⟩ := State.TakesFullReset.resetsTo hmessage
      exact ⟨v, .message p, pins, hexec, hboot⟩
  refine ⟨_, hexec, fun h => State.fullReset_settle_off (hboot.trans h),
    fun h => State.fullReset_settle_nor (hboot.trans h), fun h => ?_⟩
  obtain ⟨hprofile, hgrant⟩ := State.fullReset_settle_nand (s := v) (cause := cause) (hboot.symm ▸ h)
  refine ⟨?_, hgrant⟩
  rw [hprofile, hboot]
  rcases h with rfl | rfl <;> rfl

end Sys2Proof.Machine
end

section
/-! SLOT-CLEAR at its owner (R88, R137). -/
namespace Sys2Proof.Machine

section
variable {s : State} {p : Port} {token x : Byte} {c : Chip}

theorem State.slotClearAct_unknown (hc : chipOfCode x = none) :
    s.slotClearAct p [token, x] = s.reply p token .slotClear .badArg [] := by
  unfold State.slotClearAct
  rw [show chipOfCode (at8 [token, x] 1) = none from hc]
  rfl

/-- A slot not typed NAND is OK at once (R88). -/
theorem State.slotClearAct_static (hc : chipOfCode x = some c) (h : (s.profile c).type ≠ .nand) :
    s.slotClearAct p [token, x] = (s.setHealth c .ok).reply p token .slotClear .ok (clearBody c .ok) := by
  unfold State.slotClearAct
  rw [show chipOfCode (at8 [token, x] 1) = some c from hc]
  exact if_neg h

/-- On a NAND slot the health decides: an answer that changes nothing, or the clear (R137). -/
theorem State.slotClearAct_nand (hc : chipOfCode x = some c) (h : (s.profile c).type = .nand) :
    (s.health.get c = .ok → s.slotClearAct p [token, x] = s.reply p token .slotClear .ok (clearBody c .ok)) ∧
    (s.health.get c = .clearing → s.slotClearAct p [token, x] = s.reply p token .slotClear .busy []) ∧
    (s.health.get c = .stalled → s.slotClearAct p [token, x] = s.beginClear p c token) := by
  unfold State.slotClearAct
  rw [show chipOfCode (at8 [token, x] 1) = some c from hc]
  dsimp only
  rw [if_pos h]
  exact ⟨fun hh => by rw [hh]; rfl, fun hh => by rw [hh]; rfl, fun hh => by rw [hh]; rfl⟩

end

@[simp] theorem State.takeFrame_profile (s : State) (p : Port) (seq : Byte) (c : Chip) :
    (s.takeFrame p seq).profile c = s.profile c := by
  rw [State.takeFrame_only]
  rfl

@[simp] theorem State.takeFrame_health (s : State) (p : Port) (seq : Byte) : (s.takeFrame p seq).health = s.health := by
  rw [State.takeFrame_only]

theorem State.setHealth_takeFrame (s : State) (p : Port) (seq : Byte) (c : Chip) (h : Health) :
    (s.takeFrame p seq).setHealth c h = { s.takeFrame p seq with health := s.health.set c h } := by
  rw [State.setHealth, State.takeFrame_health]

/-- The clear on the state that taking the message's frame leaves, field by field (R137, R175). -/
theorem State.beginClear_takeFrame (s : State) (p q : Port) (seq token : Byte) (c : Chip) :
    (s.takeFrame p seq).beginClear q c token =
      ({ s.takeFrame p seq with
          health := s.health.set c .clearing
          nand := s.nand.set c { Context.idle with
            state := .clearing, op := some .reset, clearReply := some ⟨q, token⟩ } } : State).holdSlot q := by
  rw [State.takeFrame_only]
  rfl

/-- Settles O38: the message reaches its owner on the state that taking its frame leaves, and the slot's type and health decide
there. -/
theorem slotClearReturnsTheHealth : Obligations.SlotClearReturnsTheHealth := by
  intro s p seq token x h u answered
  have hrow : exec (.slotClear p seq [token, x]) s = .next (u.slotClearAct p [token, x]).settle :=
    congrArg (fun v : State => Host.Outcome.next v.settle)
      (State.takeControl_of_reaches h fun v => v.slotClearAct p [token, x])
  have hanswer : ∀ {v : State} {st body}, u.slotClearAct p [token, x] = v.reply p token .slotClear st body →
      answered v st body := fun hv => hrow.trans (by rw [hv])
  refine ⟨fun hc => hanswer (State.slotClearAct_unknown hc), fun c hc => ?_⟩
  rw [← s.takeFrame_profile p seq c]
  refine ⟨fun htype => ?_, fun htype => ?_⟩
  · rw [← s.setHealth_takeFrame p seq c .ok]
    exact hanswer (State.slotClearAct_static hc htype)
  · obtain ⟨hok, hclearing, hstalled⟩ := State.slotClearAct_nand (s := u) (p := p) (token := token) hc htype
    rw [s.takeFrame_health p seq] at hok hclearing hstalled
    refine ⟨fun hh => hanswer (hok hh), fun hh => hanswer (hclearing hh), fun hh => ?_⟩
    rw [hrow, hstalled hh, s.beginClear_takeFrame p p seq token c]

end Sys2Proof.Machine
end

section
/-! The WAIT limit (R80, R83, R85, R86): which beat reaches it, what its tenure drove and moved by then, and the stall. -/
namespace Sys2Proof.Machine

section
variable {s : State} {t : Tenure} {c : Chip} {r : Ref} {e : Entry}

/-- The beats that can reach the limit are those of a chunk or an atomic on a static slot that has one (R80). -/
theorem State.waiting_of_tenure (ht : s.arbiter.tenure = some t) (hc : t.slot = .chip c) (hr : t.entry = some r)
    (he : s.find r = some e) :
    s.waiting =
      if (t.purpose = .chunk ∨ t.purpose = .atomic) ∧ (s.profile c).waitLimit ≠ 0 then some (c, e) else none := by
  have hentry : t.entry.bind (fun r => s.find r) = some e := by rw [hr, Option.bind_some, he]
  unfold State.waiting
  rw [ht]
  dsimp only
  rw [hc, hentry]

/-- A slot without a WAIT limit does not stall (R80). -/
theorem exec_waitLimitReached_without_limit (ht : s.arbiter.tenure = some t) (hc : t.slot = .chip c)
    (hr : t.entry = some r) (he : s.find r = some e) (hlimit : (s.profile c).waitLimit = 0) (k : Nat) (xs : List Sample) :
    exec (.waitLimitReached k xs) s = .next s.settle := by
  have hnone : s.waiting = none := by
    rw [State.waiting_of_tenure ht hc hr he]
    exact if_neg fun h => h.2 hlimit
  change Host.Outcome.next (s.waitLimit k xs).settle = _
  rw [State.waitLimit, hnone]

/-- The steps of R85, where `write` is the direction of the beat that failed. -/
def State.stallWith (s : State) (c : Chip) (r : Ref) (e : Entry) (xs : List Sample) (write staged : Bool) (bytes : Nat)
    (cycles : List BusCycle) : State :=
  let stalled := s.setHealth c .stalled
  let data := readBytes (s.profile c).beatBytes e.current bytes xs
  let u := ((if staged then stalled.stage e.segments e.moved data else stalled).endTenure write cycles).grant
  ((((u.setProgress r (e.moved + bytes)).dequeue e.slot r).complete r .busTimeout).flush (.chip c)).postBoth
    (.slotStall c .wait)

/-- The beat after `k` completed ones reaches the limit, and the tenure has that beat (R80, R85). -/
theorem exec_waitLimitReached_stalls (ht : s.arbiter.tenure = some t) (hc : t.slot = .chip c) (hr : t.entry = some r)
    (he : s.find r = some e) (href : e.ref = r) (hx : t.purpose = .chunk ∨ t.purpose = .atomic)
    (hlimit : (s.profile c).waitLimit ≠ 0) {k : Nat} {xs : List Sample} (hk : k < tenureBeats (s.profile c) e xs)
    {write : Bool} {cycles : List BusCycle} (hcycles : s.waitCycles (s.profile c) e k xs = (write, cycles)) :
    exec (.waitLimitReached k xs) s =
      .next (s.stallWith c r e xs write (!decide (e.kind = .write)) (waitBytes (s.profile c) e k) cycles).settle := by
  have hsome : s.waiting = some (c, e) := (State.waiting_of_tenure ht hc hr he).trans (if_pos ⟨hx, hlimit⟩)
  change Host.Outcome.next (s.waitLimit k xs).settle = _
  rw [State.waitLimit, hsome]
  dsimp only
  rw [if_pos hk, State.stall, hcycles, href]
  unfold State.endWork State.stageWaited State.stallWith
  rw [href]
  by_cases hwrite : e.kind = .write <;> simp [hwrite]

end

/-! ### The work up to the beat that failed -/

section
variable {s : State} {f : Profile} {e : Entry} {xs : List Sample}

/-- A beat of a chunk. -/
theorem State.waitCycles_of_chunk (h : e.kind.isAtomic = false) {k : Nat}
    (hk : k < beatCount f.beatBytes e.current e.chunkLength) :
    k < tenureBeats f e xs ∧ waitBytes f e k = bytesInBeats f.beatBytes e.current e.chunkLength k ∧
      s.waitCycles f e k xs =
        if e.kind = .write then (true, writeBeats f f.beatBytes e.current (s.chunkData e) xs 0 k true)
        else (false, readBeats f f.beatBytes e.current e.chunkLength xs k true) := by
  unfold tenureBeats waitBytes State.waitCycles
  rw [h]
  exact ⟨hk, rfl, rfl⟩

/-- A beat of an atomic's read phase: the write phase does not begin (R83). -/
theorem State.waitCycles_of_atomic_read (h : e.kind.isAtomic = true) {k : Nat}
    (hk : k < beatCount f.beatBytes e.offset e.length) :
    k < tenureBeats f e xs ∧ waitBytes f e k = bytesInBeats f.beatBytes e.offset e.length k ∧
      s.waitCycles f e k xs = (false, readBeats f f.beatBytes e.offset e.length xs k true) := by
  unfold tenureBeats waitBytes State.waitCycles
  simp only [h, if_true, hk, Nat.min_eq_left hk.le, and_true]
  split <;> omega

/-- A beat of an atomic's write phase: the read phase is complete, and its bytes alone count (R83, R86). -/
theorem State.waitCycles_of_atomic_write (h : e.kind.isAtomic = true) {k : Nat} {d : List Byte}
    (hn : beatCount f.beatBytes e.offset e.length ≤ k) (hk : k < 2 * beatCount f.beatBytes e.offset e.length)
    (hd : e.newBytes f.beatBytes xs = some d) :
    k < tenureBeats f e xs ∧
      waitBytes f e k = bytesInBeats f.beatBytes e.offset e.length (beatCount f.beatBytes e.offset e.length) ∧
      s.waitCycles f e k xs = (true,
        readBeats f f.beatBytes e.offset e.length xs (beatCount f.beatBytes e.offset e.length) false ++
          [BusCycle.idle f.recovery] ++
          writeBeats f f.beatBytes e.offset d xs (beatCount f.beatBytes e.offset e.length)
            (k - beatCount f.beatBytes e.offset e.length) true) := by
  unfold tenureBeats waitBytes State.waitCycles
  simp [h, hd, hk, Nat.not_lt.2 hn, Nat.min_eq_right hn]

end

/-- Settles O46: the tenure's beats, its bytes and its cycles up to the beat that failed, kind by kind, and the steps of R85 by
`exec_waitLimitReached_stalls`. -/
theorem waitLimitStallsTheSlot : Obligations.WaitLimitStallsTheSlot := by
  intro s xs k t c r e htable ht hc hr he f w o bytesIn stalls
  have hstalls : ∀ {write staged : Bool} {bytes : Nat} {cycles : List BusCycle},
      (t.purpose = .chunk ∨ t.purpose = .atomic) → f.waitLimit ≠ 0 → (!decide (e.kind = .write)) = staged →
      k < tenureBeats f e xs ∧ waitBytes f e k = bytes ∧ s.waitCycles f e k xs = (write, cycles) →
      stalls write staged bytes cycles := by
    rintro write staged bytes cycles hx hlimit rfl ⟨hk, rfl, hcycles⟩
    exact exec_waitLimitReached_stalls ht hc hr he (htable.ref_of_find he) hx hlimit hk hcycles
  refine ⟨fun _ hlimit => exec_waitLimitReached_without_limit ht hc hr he hlimit k xs, ?_, ?_⟩
  · intro hx hlimit n hk
    have hwait := State.waitCycles_of_chunk (s := s) (f := f) (e := e) (xs := xs) (k := k)
    refine ⟨fun hkind => hstalls (.inl hx) hlimit (by rw [hkind]; rfl) ?_,
      fun hkind => hstalls (.inl hx) hlimit (by rw [hkind]; rfl) ?_⟩
    · obtain ⟨hbeats, hbytes, hcycles⟩ := hwait (by rw [hkind]; rfl) hk
      exact ⟨hbeats, hbytes, hcycles.trans (if_pos hkind)⟩
    · obtain ⟨hbeats, hbytes, hcycles⟩ := hwait (by rw [hkind]; rfl) hk
      exact ⟨hbeats, hbytes, hcycles.trans (if_neg (by rw [hkind]; nofun))⟩
  · intro hx hlimit hatomic hmoved n new
    have ho : o = e.offset := by
      change e.offset + e.moved = _
      rw [hmoved, Nat.add_zero]
    have hstaged : (!decide (e.kind = .write)) = true := by
      rw [Bool.not_eq_true', decide_eq_false_iff_not]
      intro hwrite
      rw [hwrite] at hatomic
      exact Bool.false_ne_true hatomic
    refine ⟨fun hk => hstalls (.inr hx) hlimit hstaged ?_, fun hn hk d hd => hstalls (.inr hx) hlimit hstaged ?_⟩
    · have hwait := State.waitCycles_of_atomic_read (s := s) (f := f) (xs := xs) (k := k) hatomic
      rw [← ho] at hwait
      exact hwait hk
    · have hwait := State.waitCycles_of_atomic_write (s := s) (f := f) (xs := xs) (k := k) (d := d) hatomic
      rw [← ho] at hwait
      exact hwait hn hk hd

end Sys2Proof.Machine
end

section
/-! The refresh debt (R94, R112, R113, R115): what keeps its law command by command. -/
namespace Sys2Proof.Machine

theorem State.entryDebt_of_no_tenure {s : State} (h : s.arbiter.tenure = none) : s.entryDebt = none := by
  simp only [State.entryDebt, h]

/-- An entry's debt is that of the tenure on the bus alone (R102). -/
theorem State.entryDebt_of_tenure {s t : State} (h : t.arbiter.tenure = s.arbiter.tenure) : t.entryDebt = s.entryDebt := by
  simp only [State.entryDebt, h]

@[simp] theorem State.entryDebt_setSdram (s : State) (d : Sdram) : (s.setSdram d).entryDebt = s.entryDebt := rfl

@[simp] theorem Sdram.wake_debt (d : Sdram) (now : Nat) : (d.wake now).debt = d.debt := by
  unfold Sdram.wake
  split <;> rfl

@[simp] theorem Sdram.wake_refreshTimer (d : Sdram) (now : Nat) : (d.wake now).refreshTimer = d.refreshTimer := by
  unfold Sdram.wake
  split <;> rfl

/-- READY stays, and POWERDOWN is left for READY (R100). -/
theorem Sdram.wake_state {d : Sdram} (h : d.state = .ready ∨ d.state = .powerdown) (now : Nat) :
    (d.wake now).state = .ready := by
  unfold Sdram.wake
  split
  · rfl
  · next hne => exact h.resolve_right hne

/-- The end of a tenure leaves the SDRAM engine but for the power-down timer (R98). -/
theorem State.endTenure_sdram (s : State) (w : Bool) (cs : List BusCycle) :
    ∃ n, (s.endTenure w cs).sdram = { s.sdram with powerDownTimer := n } := by
  unfold State.endTenure
  split
  · exact ⟨_, rfl⟩
  · dsimp only
    split <;> exact ⟨_, rfl⟩

/-- The end of an SD tenure records its row table beside that (R106). -/
theorem State.endSd_sdram (s : State) (w : Bool) (x : SdTrace) :
    ∃ n, (s.endSd w x).sdram = { s.sdram with rows := x.rows, powerDownTimer := n } :=
  State.endTenure_sdram _ w _

theorem State.endSd_tenure (s : State) (w : Bool) (x : SdTrace) : (s.endSd w x).arbiter.tenure = none :=
  State.endTenure_tenure _ _ _

namespace State.DebtLaw

variable {s t : State}

/-- The law speaks of the debt, the SDRAM's state, the refresh timer and the tenure alone, and a bus that is free asks
nothing. -/
theorem alike (h : s.DebtLaw) (hdebt : t.sdram.debt = s.sdram.debt) (hstate : t.sdram.state = s.sdram.state)
    (htimer : t.sdram.refreshTimer = s.sdram.refreshTimer)
    (htenure : t.arbiter.tenure = s.arbiter.tenure ∨ t.arbiter.tenure = none) : t.DebtLaw := by
  obtain ⟨hle, hready, hstopped, hentry⟩ := h
  unfold State.DebtLaw
  rw [hdebt, hstate, htimer]
  refine ⟨hle, hready, hstopped, ?_⟩
  rcases htenure with hsame | hfree
  · rwa [State.entryDebt_of_tenure hsame]
  · rw [State.entryDebt_of_no_tenure hfree]
    nofun

/-- Neither the SDRAM engine nor the tenure has changed. -/
theorem same (h : s.DebtLaw) (hsdram : t.sdram = s.sdram) (htenure : t.arbiter.tenure = s.arbiter.tenure) : t.DebtLaw :=
  h.alike (by rw [hsdram]) (by rw [hsdram]) (by rw [hsdram]) (.inl htenure)

/-- In READY, with no self-refresh entry on the bus, any debt up to 8 may be owed (R94, R112). -/
theorem of_ready {d : Sdram} (hle : d.debt ≤ 8) (hstate : d.state = .ready) (hentry : s.entryDebt = none) :
    (s.setSdram d).DebtLaw := by
  refine ⟨hle, fun hne => absurd hstate hne, fun hd => ?_, fun he => ?_⟩
  · simp [hstate] at hd
  · rw [State.entryDebt_setSdram, hentry] at he
    cases he

/-- POWERDOWN is left with no debt owed (R94, R100). -/
theorem wake (h : s.DebtLaw) (now : Nat) : (s.setSdram (s.sdram.wake now)).DebtLaw := by
  unfold Sdram.wake
  split
  · next hdown =>
    obtain ⟨hle, -, -, hentry⟩ := h
    exact ⟨hle, fun hne => absurd rfl hne, nofun, hentry⟩
  · exact h

/-! ### Places in the state, ready lists and notices -/

theorem setPort (h : s.DebtLaw) (p : Port) (u : PortUnit) : (s.setPort p u).DebtLaw := h.same rfl rfl

theorem updateEntry (h : s.DebtLaw) (r : Ref) (f : Entry → Entry) : (s.updateEntry r f).DebtLaw := h.same rfl rfl

theorem setQueue (h : s.DebtLaw) (k : Slot) (q : List Ref) : (s.setQueue k q).DebtLaw := h.same rfl rfl

theorem dequeue (h : s.DebtLaw) (k : Slot) (r : Ref) : (s.dequeue k r).DebtLaw := h.setQueue k _

theorem stage (h : s.DebtLaw) (l : List Nat) (j : Nat) (d : List Byte) : (s.stage l j d).DebtLaw := h.same rfl rfl

theorem setContext (h : s.DebtLaw) (c : Chip) (x : Context) : (s.setContext c x).DebtLaw := h.same rfl rfl

theorem setHealth (h : s.DebtLaw) (c : Chip) (x : Health) : (s.setHealth c x).DebtLaw := h.same rfl rfl

theorem setEcc (h : s.DebtLaw) (n : Nat) (x : EccUnit) : ({ s with fresh := n, ecc := x } : State).DebtLaw :=
  h.same rfl rfl

theorem setStartup (h : s.DebtLaw) (x : Startup) : (s.setStartup x).DebtLaw := h.same rfl rfl

theorem setReady (h : s.DebtLaw) (c : Chip) (level : Bool) : (s.setReady c level).DebtLaw := h.same rfl rfl

theorem setRxd (h : s.DebtLaw) (p : Port) (level : Bool) : (s.setRxd p level).DebtLaw := h.same rfl rfl

theorem setWindow (h : s.DebtLaw) (index : Nat) (w : Window) : (s.setWindow index w).DebtLaw := h.same rfl rfl

theorem setRetired (h : s.DebtLaw) (c : Chip) (l : List Nat) : (s.setRetired c l).DebtLaw := h.same rfl rfl

theorem addRetired (h : s.DebtLaw) (c : Chip) (block : Nat) : (s.addRetired c block).DebtLaw := h.setRetired c _

theorem applySlot (h : s.DebtLaw) (c : Chip) (f : Profile) : (s.applySlot c f).DebtLaw := h.same rfl rfl

theorem post (h : s.DebtLaw) (p : Port) (x : Notice) : (s.post p x).DebtLaw := h.same (by simp) (by simp)

theorem postBoth (h : s.DebtLaw) (x : Notice) : (s.postBoth x).DebtLaw := (h.post .a x).post .b x

theorem moveNotice (h : s.DebtLaw) (p : Port) : (s.moveNotice p).DebtLaw := h.same (by simp) (by simp)

theorem reply (h : s.DebtLaw) (p : Port) (token : Byte) (k : CtrlKind) (st : Status) (d : List Byte) :
    (s.reply p token k st d).DebtLaw := h.same rfl rfl

theorem holdSlot (h : s.DebtLaw) (p : Port) : (s.holdSlot p).DebtLaw := h.setPort p _

theorem deferredReply (h : s.DebtLaw) (d : Option Deferred) (k : CtrlKind) (st : Status) (body : List Byte) :
    (s.deferredReply d k st body).DebtLaw := h.same (by simp) (by simp)

theorem overrun (h : s.DebtLaw) (p : Port) : (s.overrun p).DebtLaw := (h.setPort p _).post p _

theorem slotAnswer (h : s.DebtLaw) (p : Port) (i : Item) : (s.slotAnswer p i).DebtLaw := h.same (by simp) (by simp)

theorem takeFrame (h : s.DebtLaw) (p : Port) (seq : Byte) : (s.takeFrame p seq).DebtLaw :=
  h.same (by rw [State.takeFrame_only]) (by rw [State.takeFrame_only])

theorem pump (h : s.DebtLaw) (p : Port) : (s.pump p).DebtLaw := h.same (by simp) (by simp)

theorem freeEntry (h : s.DebtLaw) (r : Ref) : (s.freeEntry r).DebtLaw := h.same (by simp) (by simp)

theorem finish (h : s.DebtLaw) (r : Ref) (st : Status) : (s.finish r st).DebtLaw := h.same (by simp) (by simp)

theorem retireHead (h : s.DebtLaw) (c : Chip) (r : Ref) : (s.retireHead c r).DebtLaw := (h.dequeue _ r).finish r _

/-! ### The Request Table -/

theorem join (h : s.DebtLaw) (r : Ref) (k : Slot) : (s.join r k).DebtLaw := by
  unfold State.join
  dsimp only
  cases k with
  | sd =>
    have hw := ((h.setQueue .sd (s.queue .sd ++ [r])).updateEntry r
      (fun e => { e with state := .queued, bypass := some 0 })).wake s.now
    exact hw.alike rfl rfl rfl (.inl rfl)
  | chip c =>
    have hq := (h.setQueue (.chip c) (s.queue (.chip c) ++ [r])).updateEntry r (fun e => { e with state := .queued })
    dsimp only
    split
    · exact hq.retireHead c _
    · exact hq

theorem releaseHeld (h : s.DebtLaw) (p : Port) (e : Entry) : (s.releaseHeld p e).DebtLaw := by
  unfold State.releaseHeld
  split
  · exact h.join _ _
  · exact h.finish _ _

theorem evalFences (h : s.DebtLaw) (p : Port) : (s.evalFences p).DebtLaw := by
  have fuel : ∀ (n : Nat) {s : State}, s.DebtLaw → (State.evalFencesFuel n s p).DebtLaw := by
    intro n
    induction n with
    | zero => exact id
    | succ n ih =>
      intro s hs
      unfold State.evalFencesFuel
      split
      · exact ih (hs.releaseHeld p _)
      · exact hs
  exact fuel _ h

theorem complete (h : s.DebtLaw) (r : Ref) (st : Status) : (s.complete r st).DebtLaw := by
  have hf := h.finish r st
  unfold State.complete
  split
  · exact h
  · split
    · exact hf
    · exact hf.evalFences _

theorem examine (h : s.DebtLaw) (c : Chip) : (s.examine c).DebtLaw := by
  have fuel : ∀ (n : Nat) {s : State}, s.DebtLaw → (State.examineFuel n s c).DebtLaw := by
    intro n
    induction n with
    | zero => exact id
    | succ n ih =>
      intro s hs
      unfold State.examineFuel
      split
      · exact ih ((hs.retireHead c _).evalFences _)
      · exact hs
  exact fuel _ h

theorem examineHeads (h : s.DebtLaw) : s.examineHeads.DebtLaw :=
  (((h.examine .s1).examine .s2).examine .s3).examine .s4

theorem flushList (k : Slot) : ∀ (l : List Ref) {s : State}, s.DebtLaw → (s.flushList k l).DebtLaw
  | [], _, h => h
  | r :: l, s, h => by
    unfold State.flushList
    refine flushList k l ?_
    split
    · exact (h.dequeue k r).finish r _
    · exact h

theorem flush (h : s.DebtLaw) (k : Slot) : (s.flush k).DebtLaw := by
  have hfences : ∀ (b : Bool) (p : Port) {u : State}, u.DebtLaw → (if b then u.evalFences p else u).DebtLaw :=
    fun b p u hu => by
      cases b
      · exact hu
      · exact hu.evalFences p
  exact hfences _ .b (hfences _ .a (flushList k _ h))

theorem create (h : s.DebtLaw) (e : Entry) (data : List Byte) : (s.create e data).DebtLaw := by
  have happ : (s.appended e data).DebtLaw := h.same rfl rfl
  rw [State.create_eq]
  split
  · exact happ
  · exact happ.join _ _

theorem dealRequest (h : s.DebtLaw) (k : ReqKind) (p : Port) (d : List Byte) : (s.dealRequest k p d).DebtLaw := by
  unfold State.dealRequest State.admitRequest
  split
  · exact h.slotAnswer p _
  · exact h.slotAnswer p _
  · split
    · exact h.slotAnswer p _
    · split
      · exact h.create _ _
      · exact h.slotAnswer p _

theorem cancelEntry (h : s.DebtLaw) (e : Entry) : (s.cancelEntry e).DebtLaw := by
  have hcomplete : ((if e.state = .queued then s.dequeue e.slot e.ref else s).complete e.ref .cancelled).DebtLaw := by
    split
    · exact (h.dequeue _ _).complete _ _
    · exact h.complete _ _
  unfold State.cancelEntry
  dsimp only
  split
  · exact hcomplete.examine _
  · exact hcomplete

/-! ### Grants and tenure ends -/

/-- What an engine has begun keeps the law, on the bus too: a self-refresh entry has taken the debt and stopped the timer
(R102). -/
def Begun (x : State × Begin) : Prop :=
  x.1.DebtLaw ∧ ∀ n, x.2.purpose = .selfRefreshEntry n → x.1.sdram.debt = 0 ∧ x.1.sdram.refreshTimer = none

/-- Any other tenure asks nothing of the debt. -/
theorem Begun.of_purpose {x : State × Begin} (h : x.1.DebtLaw) (hp : ∀ n, x.2.purpose ≠ .selfRefreshEntry n) :
    Begun x :=
  ⟨h, fun n hn => absurd hn (hp n)⟩

theorem transferPurpose_ne (k : ReqKind) (n : Nat) : transferPurpose k ≠ .selfRefreshEntry n := by
  unfold transferPurpose
  split <;> nofun

theorem beginStatic (h : s.DebtLaw) (c : Chip) : Begun (s.beginStatic c) := by
  refine .of_purpose (h.same (by rw [State.beginStatic_only]) (by rw [State.beginStatic_only])) ?_
  unfold State.beginStatic
  split
  · nofun
  · split
    · split
      · exact transferPurpose_ne _
      · nofun
    · nofun

theorem beginNandHead (h : s.DebtLaw) (c : Chip) (r : Ref) (e : Entry) : Begun (s.beginNandHead c r e) := by
  have hu := (h.dequeue (.chip c) r).updateEntry r Entry.activate
  unfold State.beginNandHead
  dsimp only
  split <;> exact .of_purpose (hu.same rfl rfl) nofun

theorem beginNand (h : s.DebtLaw) (c : Chip) : Begun (s.beginNand c) := by
  have hunload : ∀ x, Begun (s.beginUnload c x) := fun x => by
    unfold State.beginUnload
    dsimp only
    split <;> exact .of_purpose (h.same rfl rfl) nofun
  unfold State.beginNand
  dsimp only
  split
  · split
    · exact .of_purpose (h.same rfl rfl) nofun
    · split
      · split
        · exact h.beginNandHead c _ _
        · exact .of_purpose h nofun
      · exact .of_purpose h nofun
  · split <;> exact .of_purpose (h.same rfl rfl) nofun
  · split
    · exact hunload _
    · exact .of_purpose (h.same rfl rfl) nofun
  · exact hunload _
  · exact .of_purpose h nofun
  · exact .of_purpose h nofun
  · exact .of_purpose h nofun

theorem beginSdEntry (h : s.DebtLaw) : Begun s.beginSdEntry := by
  refine .of_purpose (h.same (by rw [State.beginSdEntry_only]) (by rw [State.beginSdEntry_only])) ?_
  unfold State.beginSdEntry
  split
  · dsimp only
    split
    · exact transferPurpose_ne _
    · nofun
  · nofun

/-- The debt is taken by what pays it (R102, R114). -/
theorem paid (h : s.DebtLaw) {d : Sdram} (hdebt : d.debt = 0) (hstate : d.state = s.sdram.state)
    (htimer : d.refreshTimer = s.sdram.refreshTimer ∨ d.refreshTimer = none) : (s.setSdram d).DebtLaw := by
  obtain ⟨-, -, hstopped, hentry⟩ := h
  have hnone : s.sdram.refreshTimer = none → d.refreshTimer = none := fun hs => htimer.elim (fun he => he.trans hs) id
  exact ⟨hdebt ▸ Nat.zero_le _, fun _ => hdebt, fun hst => hnone (hstopped (hstate ▸ hst)),
    fun he => ⟨hdebt, hnone (hentry he).2⟩⟩

theorem beginSd (h : s.DebtLaw) : Begun s.beginSd := by
  have hround : Begun s.beginRefresh := .of_purpose (h.paid rfl rfl (.inl rfl)) nofun
  unfold State.beginSd
  split_ifs
  · exact .of_purpose h nofun
  · exact .of_purpose h nofun
  · exact .of_purpose h nofun
  · exact hround
  · exact h.beginSdEntry
  · exact ⟨h.paid rfl rfl (.inr rfl), fun _ _ => ⟨rfl, rfl⟩⟩
  · exact .of_purpose h nofun
  · exact hround

theorem beginOn (h : s.DebtLaw) (k : Slot) : Begun (s.beginOn k) := by
  cases k with
  | sd => exact h.beginSd
  | chip c =>
    unfold State.beginOn
    dsimp only
    split
    · exact h.beginNand c
    · exact h.beginStatic c

theorem grant (h : s.DebtLaw) : s.grant.DebtLaw := by
  unfold State.grant
  split
  · exact h
  · split
    · next k _ =>
      obtain ⟨⟨hle, hready, hstopped, -⟩, hentry⟩ := h.beginOn k
      refine ⟨hle, hready, hstopped, fun he => ?_⟩
      cases hp : (s.beginOn k).2.purpose with
      | selfRefreshEntry n => exact hentry n hp
      | _ => simp [State.entryDebt, State.grantTo, hp] at he
    · exact h

theorem settle (h : s.DebtLaw) : s.settle.DebtLaw :=
  ((h.pump .a).pump .b).grant

/-- The end of a tenure frees the bus and leaves debt, state and refresh timer (R57, R98). -/
theorem endTenure (h : s.DebtLaw) (w : Bool) (cs : List BusCycle) : (s.endTenure w cs).DebtLaw := by
  obtain ⟨x, hx⟩ := s.endTenure_sdram w cs
  exact h.alike (by rw [hx]) (by rw [hx]) (by rw [hx]) (.inr (State.endTenure_tenure s w cs))

theorem endSd (h : s.DebtLaw) (w : Bool) (x : SdTrace) : (s.endSd w x).DebtLaw :=
  (h.alike (t := s.setSdram { s.sdram with rows := x.rows }) rfl rfl rfl (.inl rfl)).endTenure w _

theorem restartSelfRefresh (h : s.DebtLaw) : s.restartSelfRefresh.DebtLaw := h.alike rfl rfl rfl (.inl rfl)

theorem endWork (h : s.DebtLaw) (e : Entry) (st : Status) : (s.endWork e st).DebtLaw :=
  (h.dequeue _ _).complete _ _

theorem chunkEnd (h : s.DebtLaw) (xs : List Sample) : (s.chunkEnd xs).DebtLaw := by
  unfold State.chunkEnd
  dsimp only
  split
  · next t e _ =>
    have hstage : ∀ w, (s.stageChunk e w xs).DebtLaw := fun w => by
      unfold State.stageChunk
      split
      · exact h
      · exact h.stage _ _ _
    have hmove : (s.moveChunk t e xs).DebtLaw := by
      unfold State.moveChunk
      dsimp only
      split
      · exact (hstage _).endTenure _ _
      · exact ((hstage _).endSd _ _).restartSelfRefresh
    have hu := hmove.updateEntry e.ref (fun x => { x with progress := some (e.moved + e.chunkLength) })
    split
    · exact hu.endWork _ _
    · exact hu
  · exact h

theorem atomicEnd (h : s.DebtLaw) (xs : List Sample) : (s.atomicEnd xs).DebtLaw := by
  unfold State.atomicEnd
  split
  · next t e _ =>
    have hstage := h.stage e.segments 0 (readBytes (s.beatBytes t.slot) e.offset e.length xs)
    have hmove : (s.moveAtomic t e xs).DebtLaw := by
      unfold State.moveAtomic
      dsimp only
      split
      · exact hstage.endTenure _ _
      · exact (hstage.endSd _ _).restartSelfRefresh
    exact (hmove.updateEntry e.ref _).endWork _ _
  · exact h

theorem waitLimit (h : s.DebtLaw) (k : Nat) (xs : List Sample) : (s.waitLimit k xs).DebtLaw := by
  have hstall : ∀ c e, (s.stall c e k xs).DebtLaw := fun c e => by
    have hstage : ((s.setHealth c .stalled).stageWaited (s.profile c) e k xs).DebtLaw := by
      unfold State.stageWaited
      split
      · exact h.setHealth c _
      · exact (h.setHealth c _).stage _ _ _
    have hgrant := (hstage.endTenure (s.waitCycles (s.profile c) e k xs).1 (s.waitCycles (s.profile c) e k xs).2).grant
    exact (((hgrant.updateEntry e.ref _).endWork e .busTimeout).flush (.chip c)).postBoth _
  unfold State.waitLimit
  split
  · split
    · exact hstall _ _
    · exact h
  · exact h

/-! ### The SDRAM engine -/

theorem wakeIfDue (h : s.DebtLaw) : s.wakeIfDue.DebtLaw := by
  unfold State.wakeIfDue
  split
  · exact h.wake _
  · exact h

/-- A running refresh timer means that no self-refresh entry has taken the debt, and that the SDRAM is READY or in POWERDOWN
(R94, R102, R115). -/
theorem of_running (h : s.DebtLaw) {n : Nat} (hn : s.sdram.refreshTimer = some n) :
    s.entryDebt = none ∧ (s.sdram.state = .ready ∨ s.sdram.state = .powerdown) := by
  obtain ⟨-, -, hstopped, hentry⟩ := h
  rw [hn] at hstopped hentry
  refine ⟨Option.not_isSome_iff_eq_none.1 fun he => Option.some_ne_none n (hentry he).2, ?_⟩
  cases hst : s.sdram.state with
  | ready => exact .inl rfl
  | powerdown => exact .inr rfl
  | uninit => exact absurd (hstopped (.inl hst)) nofun
  | initialising => exact absurd (hstopped (.inr (.inl hst))) nofun
  | selfRefresh => exact absurd (hstopped (.inr (.inr hst))) nofun

theorem refreshExpiry (h : s.DebtLaw) : s.refreshExpiry.DebtLaw := by
  unfold State.refreshExpiry
  dsimp only
  split
  · exact h
  · next n hn =>
    obtain ⟨hnone, hst⟩ := h.of_running hn
    obtain ⟨hle, hready, -, -⟩ := h
    split
    · next hlt =>
      refine of_ready ?_ (Sdram.wake_state ?_ _) hnone
      · rw [Sdram.wake_debt]
        exact hlt
      · exact hst
    · next hge =>
      have hstate : s.sdram.state = .ready := by
        by_contra hne
        exact hge (by rw [hready hne]; decide)
      exact (of_ready (d := { s.sdram with refreshTimer := some 0, overruns := countUp s.sdram.overruns }) hle hstate
        hnone).postBoth _

theorem refreshRoundEnd (h : s.DebtLaw) : s.refreshRoundEnd.DebtLaw := by
  unfold State.refreshRoundEnd
  split
  · exact h.endSd _ _
  · exact h

theorem enterPowerDown (h : s.DebtLaw) : s.enterPowerDown.DebtLaw := by
  unfold State.enterPowerDown
  split
  · next hdown =>
    obtain ⟨hle, -, -, hentry⟩ := h
    have hzero : s.sdram.debt = 0 := by
      simp only [State.canPowerDown, Bool.and_eq_true, beq_iff_eq] at hdown
      exact hdown.1.2
    exact ⟨hle, fun _ => hzero, nofun, hentry⟩
  · exact h

theorem selfRefreshReached (h : s.DebtLaw) : s.selfRefreshReached.DebtLaw := by
  unfold State.selfRefreshReached
  dsimp only
  split
  · exact (h.alike (t := s.setSdram { s.sdram with srReached := true }) rfl rfl rfl (.inl rfl)).wakeIfDue
  · exact h

theorem selfRefreshEntryEnd (h : s.DebtLaw) : s.selfRefreshEntryEnd.DebtLaw := by
  unfold State.selfRefreshEntryEnd
  dsimp only
  split
  · next n hn =>
    have hu := h.endSd true (sdSelfRefreshEntry s.sdStart s.sdram.settings n)
    split
    · have hpaid : (s.endSd true (sdSelfRefreshEntry s.sdStart s.sdram.settings n)).sdram.debt = 0 ∧
          (s.endSd true (sdSelfRefreshEntry s.sdStart s.sdram.settings n)).sdram.refreshTimer = none := by
        obtain ⟨x, hx⟩ := s.endSd_sdram true (sdSelfRefreshEntry s.sdStart s.sdram.settings n)
        obtain ⟨-, -, -, hentry⟩ := h
        rw [hx]
        exact hentry (by rw [hn]; rfl)
      refine deferredReply (s := State.setSdram _ _) ?_ _ _ _ _
      exact ⟨hu.1, fun _ => hpaid.1, fun _ => hpaid.2, fun _ => hpaid⟩
    · exact hu
  · exact h

theorem selfRefreshExitEnd (h : s.DebtLaw) : s.selfRefreshExitEnd.DebtLaw := by
  unfold State.selfRefreshExitEnd
  dsimp only
  split
  · split
    · exact of_ready (Nat.zero_le _) rfl (State.entryDebt_of_no_tenure (s.endSd_tenure _ _))
    · exact h.endSd _ _
  · exact h

theorem stabilised (h : s.DebtLaw) : s.stabilised.DebtLaw := by
  unfold State.stabilised
  split
  · exact h.alike rfl rfl rfl (.inl rfl)
  · exact h

theorem prechargeStepEnd (h : s.DebtLaw) : s.prechargeStepEnd.DebtLaw := by
  unfold State.prechargeStepEnd
  split
  · exact (h.endSd true (sdInitPrecharge s.sdStart s.sdram.settings)).alike rfl rfl rfl (.inl rfl)
  · exact h

theorem refreshStepEnd (h : s.DebtLaw) : s.refreshStepEnd.DebtLaw := by
  unfold State.refreshStepEnd
  split
  · exact (h.endSd true (sdInitRefresh s.sdStart s.sdram.settings)).alike rfl rfl rfl (.inl rfl)
  · exact h

/-- An accepted SDR-SET owes nothing and stops the timer (R95). -/
theorem applySdr (s : State) (g : Settings) (reply : Option Deferred) : (s.applySdr g reply).DebtLaw :=
  ⟨Nat.zero_le _, fun _ => rfl, fun _ => rfl, fun _ => ⟨rfl, rfl⟩⟩

/-! ### Start-up -/

theorem tryRun (h : s.DebtLaw) : s.tryRun.DebtLaw := by
  unfold State.tryRun
  dsimp only
  split
  · split <;> exact h.setStartup _
  · exact h

theorem copyEnded (h : s.DebtLaw) (l : Load) (x : CopyReason) : (s.copyEnded l x).DebtLaw := by
  have hu := fun y => h.setStartup y
  unfold State.copyEnded
  dsimp only
  split
  · exact (hu _).tryRun
  · split
    · exact (hu _).tryRun
    · exact hu _

theorem countApplied (h : s.DebtLaw) : s.countApplied.DebtLaw := h.setStartup _

theorem countSkipped (h : s.DebtLaw) (n index : Nat) : (s.countSkipped n index).DebtLaw := h.setStartup _

theorem advanceWalk (h : s.DebtLaw) (size : Nat) : (s.advanceWalk size).DebtLaw := by
  unfold State.advanceWalk
  split
  · exact h
  · exact h.setStartup _

theorem walkUnknown (h : s.DebtLaw) : s.walkUnknown.DebtLaw := by
  unfold State.walkUnknown
  split
  · exact h
  · next w _ =>
    have hu : ∀ n index, (s.countSkipped n index).DebtLaw := fun n index => h.countSkipped n index
    split
    · exact ((hu _ _).setStartup _).tryRun
    · split
      · exact ((hu _ _).advanceWalk _).tryRun
      · exact h

theorem walkStep (h : s.DebtLaw) (t : EntryType) {apply : State → NextEntry → State}
    (happly : ∀ e, (apply s e).DebtLaw) : (s.walkStep t apply).DebtLaw := by
  unfold State.walkStep
  dsimp only
  split
  · exact h
  · split
    · exact h
    · refine (advanceWalk ?_ _).tryRun
      split
      · exact happly _
      · exact h.countSkipped _ _

theorem applyPorts (h : s.DebtLaw) (e : NextEntry) : (s.applyPorts e).DebtLaw := by
  unfold State.applyPorts
  split
  · exact ((h.setPort .a _).setPort .b _).countApplied
  · exact h.countSkipped _ _

theorem applySlotEntry (h : s.DebtLaw) (e : NextEntry) : (s.applySlotEntry e).DebtLaw := by
  unfold State.applySlotEntry
  split
  · exact (h.applySlot _ _).countApplied
  · exact h.countSkipped _ _

theorem applySdramEntry (h : s.DebtLaw) (e : NextEntry) : (s.applySdramEntry e).DebtLaw := by
  unfold State.applySdramEntry
  split
  · exact (applySdr s _ none).countApplied
  · exact h.countSkipped _ _

theorem applyWindowBlock (h : s.DebtLaw) (entry index : Nat) (d : List Byte) :
    (s.applyWindowBlock entry index d).DebtLaw := by
  unfold State.applyWindowBlock
  split
  · exact (h.setWindow _ _).countApplied
  · exact h.countSkipped _ _

theorem applyWindowEntry (h : s.DebtLaw) (e : NextEntry) : (s.applyWindowEntry e).DebtLaw := by
  have hu : ∀ index, (s.supersede index).DebtLaw := fun index => by
    unfold State.supersede
    split
    · exact (h.countSkipped _ _).setStartup _
    · exact h
  unfold State.applyWindowEntry
  dsimp only
  split
  · exact (hu _).setStartup _
  · exact (hu _).applyWindowBlock _ _ _

theorem applyDeferred (h : s.DebtLaw) : s.applyDeferred.DebtLaw := by
  have all : ∀ (l : List DeferredWindow) {u : State}, u.DebtLaw →
      (l.foldl (fun u x => u.applyWindowBlock x.entry x.index x.block) u).DebtLaw := fun l => by
    induction l with
    | nil => exact id
    | cons x l ih => exact fun hu => ih (hu.applyWindowBlock _ _ _)
  exact (all _ h).setStartup _

theorem settleStartup (h : s.DebtLaw) : s.settleStartup.DebtLaw := by
  unfold State.settleStartup
  split
  · exact h.applyDeferred.tryRun
  · exact h

theorem modeStepEnd (h : s.DebtLaw) : s.modeStepEnd.DebtLaw := by
  unfold State.modeStepEnd
  dsimp only
  split
  · refine settleStartup (deferredReply ?_ _ _ _ _)
    exact of_ready (Nat.zero_le _) rfl (State.entryDebt_of_no_tenure (s.endSd_tenure _ _))
  · exact h

theorem applyRetireEntry (h : s.DebtLaw) (e : NextEntry) : (s.applyRetireEntry e).DebtLaw := by
  have all : ∀ (code : Byte) (l : List Nat) {u : State}, u.DebtLaw → (u.applyRetireBlocks code l).1.DebtLaw := by
    intro code l
    induction l with
    | nil => exact id
    | cons b l ih =>
      intro u hu
      unfold State.applyRetireBlocks
      split
      · refine ih ?_
        split
        · exact hu
        · exact hu.addRetired _ _
      · exact ih hu
  unfold State.applyRetireEntry State.counted
  split
  · have hu := all (at8 e.bytes 2) (retireBlocks e.bytes) h
    dsimp only
    split
    · exact hu.countApplied
    · exact hu.countSkipped _ _
  · exact h.countSkipped _ _

theorem loadChunkEnd (h : s.DebtLaw) (xs : List Sample) : (s.loadChunkEnd xs).DebtLaw := by
  unfold State.loadChunkEnd
  dsimp only
  split
  · have hu := fun cs x => (h.endTenure false cs).setStartup x
    split
    · exact hu _ _
    · exact (hu _ _).copyEnded _ _
  · exact h

/-! ### NAND slots -/

theorem idleContext (h : s.DebtLaw) (c : Chip) : (s.idleContext c).DebtLaw := (h.setContext c _).examine c

theorem endOperation (h : s.DebtLaw) (c : Chip) (r : Ref) (st : Status) : (s.endOperation c r st).DebtLaw :=
  (h.complete r st).idleContext c

theorem loadResetDone (h : s.DebtLaw) : s.loadResetDone.DebtLaw := by
  have hu := h.setContext .s1 Context.idle
  unfold State.loadResetDone
  dsimp only
  split
  · split
    · exact hu.copyEnded _ _
    · exact hu.setStartup _
  · exact hu

theorem endClear (h : s.DebtLaw) (c : Chip) (x : Health) (st : Status) : (s.endClear c x st).DebtLaw :=
  ((h.setHealth c x).setContext c _).deferredReply _ _ _ _

theorem takeRise (h : s.DebtLaw) (c : Chip) : (s.takeRise c).DebtLaw := by
  unfold State.takeRise
  split
  · split
    · exact h.loadResetDone
    · exact h.idleContext c
  · exact h.endClear c _ _
  · exact h.setContext c _

theorem arm (h : s.DebtLaw) (c : Chip) (limit : Nat) (ready : Bool) : (s.arm c limit ready).DebtLaw := by
  have hu := fun x => (h.setReady c ready).setContext c x
  unfold State.arm
  dsimp only
  split
  · exact (hu _).takeRise c
  · exact hu _

theorem readyRise (h : s.DebtLaw) (c : Chip) : (s.readyRise c).DebtLaw := by
  unfold State.readyRise
  dsimp only
  split
  · exact (h.setReady c true).takeRise c
  · exact h.setReady c true

theorem commandEnd (h : s.DebtLaw) (ready : Bool) : (s.commandEnd ready).DebtLaw := by
  unfold State.commandEnd
  dsimp only
  split
  · exact h
  · split <;> exact (h.endTenure _ _).arm _ _ _

theorem loadingEnd (h : s.DebtLaw) (ready : Bool) : (s.loadingEnd ready).DebtLaw := by
  unfold State.loadingEnd
  dsimp only
  split
  · exact h
  · split
    · exact h
    · have hu := fun cs r c x => ((h.endTenure true cs).updateEntry r Entry.sectorDone).setContext c x
      split
      · exact (hu _ _ _ _).arm _ _ _
      · exact hu _ _ _ _

theorem loadSectorEnd (h : s.DebtLaw) (l : Load) (raw : List Byte) : (s.loadSectorEnd l raw).DebtLaw :=
  ((((h.endTenure _ _).setContext .s1 _).setEcc _ _).setStartup _).copyEnded _ _

theorem unloadingEnd (h : s.DebtLaw) (bytes : List Byte) : (s.unloadingEnd bytes).DebtLaw := by
  unfold State.unloadingEnd
  dsimp only
  split
  · exact h
  · split
    · have hu := fun cs n x => (h.endTenure false cs).setEcc n x
      have hv := fun cs n x l j d r f c y => (((hu cs n x).stage l j d).updateEntry r f).setContext c y
      split
      · exact (hv _ _ _ _ _ _ _ _ _ _).endOperation _ _ _
      · exact hv _ _ _ _ _ _ _ _ _ _
    · split
      · exact h.loadSectorEnd _ _
      · exact h
    · exact h

theorem statusEnd (h : s.DebtLaw) (b : Byte) : (s.statusEnd b).DebtLaw := by
  have hu := h.endTenure false (statusCycles b)
  have hretire : ∀ c block, ((s.endTenure false (statusCycles b)).autoRetire c block).1.DebtLaw := fun c block => by
    rw [State.autoRetire_only]
    exact hu.same rfl rfl
  have hpost : ∀ (x : Option Notice) {v : State}, v.DebtLaw → (v.postSome x).DebtLaw := fun x v hv => by
    cases x with
    | none => exact hv
    | some n => exact hv.postBoth n
  unfold State.statusEnd
  dsimp only
  split
  · exact h
  · split
    · exact h
    · split
      · exact hpost _ ((hretire _ _).endOperation _ _ _)
      · exact hu.endOperation _ _ _

theorem idEnd (h : s.DebtLaw) (bytes : List Byte) : (s.idEnd bytes).DebtLaw := by
  unfold State.idEnd
  dsimp only
  split
  · exact h
  · split
    · exact h
    · exact ((h.stage _ _ _).endTenure _ _).endOperation _ _ _

theorem resetEnd (h : s.DebtLaw) (ready : Bool) : (s.resetEnd ready).DebtLaw := by
  unfold State.resetEnd
  dsimp only
  split
  · exact h
  · exact ((h.endTenure _ _).setContext _ _).arm _ _ _

theorem busyTimeout (h : s.DebtLaw) (c : Chip) : (s.busyTimeout c).DebtLaw := by
  unfold State.busyTimeout
  dsimp only
  split
  · exact ((h.complete _ _).setContext c _).post _ _
  · exact h

theorem recoveryExpiry (h : s.DebtLaw) (c : Chip) : (s.recoveryExpiry c).DebtLaw := by
  unfold State.recoveryExpiry
  dsimp only
  split
  · exact (((h.setHealth c _).setContext c _).flush _).postBoth _
  · exact h

theorem clearExpiry (h : s.DebtLaw) (c : Chip) : (s.clearExpiry c).DebtLaw := by
  unfold State.clearExpiry
  split
  · exact h.endClear c _ _
  · exact h

theorem loadTimeout (h : s.DebtLaw) : s.loadTimeout.DebtLaw := by
  unfold State.loadTimeout
  dsimp only
  split
  · split
    · exact h.loadResetDone
    · exact ((h.setContext .s1 _).setStartup _).postBoth _
    · exact h
  · exact h

/-! ### Lines and resets -/

theorem receive (h : s.DebtLaw) (p : Port) (c : Byte) : (s.receive p c).DebtLaw := by
  have hdrop : ∀ x, (s.dropFrame p x).DebtLaw := fun x => (h.setPort p _).post p _
  unfold State.receive State.judgeFrame
  dsimp only
  split
  · exact h
  · exact h.setPort p _
  · split_ifs
    · exact hdrop _
    · exact hdrop _
    · exact h.setPort p _
    · exact hdrop _
    · exact h.setPort p _

theorem character (h : s.DebtLaw) (p : Port) (c : Byte) (stop : Bool) : (s.character p c stop).DebtLaw := by
  unfold State.character
  split
  · exact h
  · exact (h.setRxd p stop).receive p c

theorem gapTimeout (h : s.DebtLaw) (p : Port) : (s.gapTimeout p).DebtLaw := by
  unfold State.gapTimeout
  split
  · exact (h.setPort p _).post p _
  · exact h

theorem rxdHigh (h : s.DebtLaw) (p : Port) : (s.rxdHigh p).DebtLaw := by
  unfold State.rxdHigh
  dsimp only
  split
  · exact (h.setRxd p true).setPort p _
  · exact h.setRxd p true

/-- A full reset leaves no debt and no running timer (R116). -/
theorem fullReset (s : State) (cause : Cause) (pins : Pins) : (s.fullReset cause pins).DebtLaw :=
  ⟨Nat.zero_le _, fun _ => rfl, fun _ => rfl, fun _ => ⟨rfl, rfl⟩⟩

theorem portResetStep (h : s.DebtLaw) (p : Port) (cause : PortStart) : (s.portResetStep p cause).DebtLaw := by
  refine examineHeads ?_
  rw [State.portReset_eq]
  split
  · exact fullReset _ _ _
  · exact (h.alike (t := s.cleared p cause) rfl rfl rfl (.inl rfl)).post _ _

theorem breakTaken (h : s.DebtLaw) (p : Port) : (s.breakTaken p).DebtLaw := by
  unfold State.breakTaken
  dsimp only
  split
  · exact h
  · have hlow := (h.setRxd p false).setPort p { (s.setRxd p false).port p with receiver := .inBreak }
    split
    · exact hlow.portResetStep p _
    · exact hlow

theorem frameSent (h : s.DebtLaw) (p : Port) : (s.frameSent p).DebtLaw := by
  unfold State.frameSent
  split
  · next i rest _ _ =>
    have hrest := h.setPort p { s.port p with tx := none, ready := rest }
    cases i with
    | entryReply tag => exact hrest.freeEntry _
    | refusal tag st => exact hrest.setPort p _
    | ctrl token k st body =>
      unfold State.itemSent
      dsimp only
      split
      · exact fullReset _ _ _
      · exact hrest.setPort p _
    | notice n x =>
      refine moveNotice (s := { s.setPort p _ with notices := _ }) ?_ p
      exact hrest.same rfl rfl
  · exact h

/-! ### Control messages -/

theorem takeMessage (h : s.DebtLaw) {p : Port} {kind seq : Byte} {d : List Byte} {deal : State → State}
    (hdeal : ∀ {u : State}, u.DebtLaw → (deal u).DebtLaw) : (s.takeMessage p kind seq d deal).settle.DebtLaw := by
  refine settle ?_
  unfold State.takeMessage
  split
  · exact h
  · exact hdeal (h.takeFrame p seq)

theorem dealControl (h : s.DebtLaw) (k : CtrlKind) (p : Port) (d : List Byte) {owner : State → State}
    (howner : (owner s).DebtLaw) : (s.dealControl k p d owner).DebtLaw := by
  unfold State.dealControl State.stopped
  split
  · exact h.slotAnswer p _
  · exact h.slotAnswer p _
  · split
    · next hstop =>
      split_ifs at hstop <;> obtain rfl := Option.some.inj hstop
      · exact h.overrun p
      · exact h.reply p _ _ _ _
      · exact h.reply p _ _ _ _
    · exact howner

theorem takeControl (h : s.DebtLaw) (k : CtrlKind) (p : Port) (seq : Byte) (d : List Byte) {owner : State → State}
    (howner : ∀ {u : State}, u.DebtLaw → (owner u).DebtLaw) : (s.takeControl k p seq d owner).settle.DebtLaw :=
  h.takeMessage fun hu => hu.dealControl k p d (howner hu)

theorem dealHello (h : s.DebtLaw) (p : Port) (seq : Byte) (d : List Byte) : (s.dealHello p seq d).DebtLaw := by
  unfold State.dealHello
  split
  · split
    · exact h.slotAnswer p _
    · split
      · exact (h.setPort p _).reply p _ _ _ _
      · exact h.overrun p
  · exact h.dealControl _ p d (h.reply p _ _ _ _)

theorem dealPortReset (h : s.DebtLaw) (p : Port) (d : List Byte) : (s.dealPortReset p d).DebtLaw := by
  unfold State.dealPortReset
  split
  · exact h.slotAnswer p _
  · exact h.slotAnswer p _
  · split
    · exact h.slotAnswer p _
    · exact h.portResetStep p _

theorem winSetAct (h : s.DebtLaw) (p : Port) (d : List Byte) : (s.winSetAct p d).DebtLaw := by
  unfold State.winSetAct
  dsimp only
  split
  · exact (h.setWindow _ _).reply p _ _ _ _
  · exact h.reply p _ _ _ _

theorem winGetAct (h : s.DebtLaw) (p : Port) (d : List Byte) : (s.winGetAct p d).DebtLaw := by
  unfold State.winGetAct
  split <;> exact h.reply p _ _ _ _

theorem slotSetAct (h : s.DebtLaw) (p : Port) (d : List Byte) : (s.slotSetAct p d).DebtLaw := by
  unfold State.slotSetAct
  split
  · exact (h.applySlot _ _).reply p _ _ _ _
  · exact h.reply p _ _ _ _

theorem slotGetAct (h : s.DebtLaw) (p : Port) (d : List Byte) : (s.slotGetAct p d).DebtLaw := by
  unfold State.slotGetAct
  split <;> exact h.reply p _ _ _ _

theorem slotClearAct (h : s.DebtLaw) (p : Port) (d : List Byte) : (s.slotClearAct p d).DebtLaw := by
  unfold State.slotClearAct State.beginClear
  dsimp only
  split
  · exact h.reply p _ _ _ _
  · split
    · split
      · exact h.reply p _ _ _ _
      · exact h.reply p _ _ _ _
      · exact ((h.setHealth _ _).setContext _ _).holdSlot p
    · exact (h.setHealth _ _).reply p _ _ _ _

theorem sdrSetAct (h : s.DebtLaw) (p : Port) (d : List Byte) : (s.sdrSetAct p d).DebtLaw := by
  unfold State.sdrSetAct
  split
  · exact (applySdr s _ _).holdSlot p
  · exact h.reply p _ _ _ _

theorem sdrSleepAct (h : s.DebtLaw) (p : Port) (d : List Byte) : (s.sdrSleepAct p d).DebtLaw := by
  have hpending : ((s.setSdram { s.sdram with sleepPending := true, sleepReply := some ⟨p, answerToken d⟩ }).holdSlot
      p).DebtLaw := h.alike rfl rfl rfl (.inl rfl)
  have hawake : (if s.sdram.sleepPending || !(s.queue .sd).isEmpty then s.reply p (answerToken d) .sdrSleep .busy []
      else ((s.setSdram { s.sdram with sleepPending := true, sleepReply := some ⟨p, answerToken d⟩ }).holdSlot
        p).wakeIfDue).DebtLaw := by
    split
    · exact h.reply p _ _ _ _
    · exact hpending.wakeIfDue
  unfold State.sdrSleepAct
  dsimp only
  split
  · exact h.reply p _ _ _ _
  · exact h.reply p _ _ _ _
  · exact h.reply p _ _ _ _
  · exact hawake
  · exact hawake

theorem retireAddAct (h : s.DebtLaw) (p : Port) (d : List Byte) : (s.retireAddAct p d).DebtLaw := by
  unfold State.retireAddAct
  dsimp only
  split
  · refine reply ?_ p _ _ _ _
    split
    · exact h
    · exact (h.addRetired _ _).examine _
  · exact h.reply p _ _ _ _

theorem retireDropAct (h : s.DebtLaw) (p : Port) (d : List Byte) : (s.retireDropAct p d).DebtLaw := by
  unfold State.retireDropAct
  dsimp only
  split
  · exact h.reply p _ _ _ _
  · split
    · exact (h.setRetired _ _).reply p _ _ _ _
    · exact h.reply p _ _ _ _

theorem retireListAct (h : s.DebtLaw) (p : Port) (d : List Byte) : (s.retireListAct p d).DebtLaw := by
  unfold State.retireListAct
  split <;> exact h.reply p _ _ _ _

theorem cancelAct (h : s.DebtLaw) (p : Port) (d : List Byte) : (s.cancelAct p d).DebtLaw := by
  unfold State.cancelAct
  dsimp only
  split
  · exact h.reply p _ _ _ _
  · split
    · exact (h.cancelEntry _).reply p _ _ _ _
    · exact (h.cancelEntry _).reply p _ _ _ _
    · exact h.reply p _ _ _ _
    · exact h.reply p _ _ _ _
    · exact h.reply p _ _ _ _

theorem bridgeResetAct (h : s.DebtLaw) (p : Port) (d : List Byte) : (s.bridgeResetAct p d).DebtLaw := by
  unfold State.bridgeResetAct
  split
  · exact reply (s := { s with bridgeReset := some p }) (h.same rfl rfl) p _ _ _ _
  · exact h.reply p _ _ _ _

/-! ### Every command, every step -/

theorem exec (h : s.DebtLaw) (i : Instr) : ∃ t, Machine.exec i s = .next t ∧ t.DebtLaw := by
  cases i with
  | powerOn pins => exact ⟨_, rfl, (fullReset s _ _).settle⟩
  | resetPin pins => exact ⟨_, rfl, (fullReset s _ _).settle⟩
  | characterReceived p c stop => exact ⟨_, rfl, (h.character p c stop).settle⟩
  | frameGapTimeout p => exact ⟨_, rfl, (h.gapTimeout p).settle⟩
  | linkBreak p => exact ⟨_, rfl, (h.breakTaken p).settle⟩
  | rxdRise p => exact ⟨_, rfl, (h.rxdHigh p).settle⟩
  | holdChange p level => exact ⟨_, rfl, (h.same (t := s.setHold p level) rfl rfl).settle⟩
  | frameSent p => exact ⟨_, rfl, (h.frameSent p).settle⟩
  | read p seq d => exact ⟨_, rfl, h.takeMessage fun hu => hu.dealRequest .read p d⟩
  | write p seq d => exact ⟨_, rfl, h.takeMessage fun hu => hu.dealRequest .write p d⟩
  | cset p seq d => exact ⟨_, rfl, h.takeMessage fun hu => hu.dealRequest .cset p d⟩
  | swap p seq d => exact ⟨_, rfl, h.takeMessage fun hu => hu.dealRequest .swap p d⟩
  | fadd p seq d => exact ⟨_, rfl, h.takeMessage fun hu => hu.dealRequest .fadd p d⟩
  | pgRead p seq d => exact ⟨_, rfl, h.takeMessage fun hu => hu.dealRequest .pgRead p d⟩
  | pgProg p seq d => exact ⟨_, rfl, h.takeMessage fun hu => hu.dealRequest .pgProg p d⟩
  | blkErase p seq d => exact ⟨_, rfl, h.takeMessage fun hu => hu.dealRequest .blkErase p d⟩
  | nandId p seq d => exact ⟨_, rfl, h.takeMessage fun hu => hu.dealRequest .nandId p d⟩
  | hello p seq d => exact ⟨_, rfl, h.takeMessage fun hu => hu.dealHello p seq d⟩
  | info p seq d => exact ⟨_, rfl, h.takeControl .info p seq d fun hu => hu.reply p _ _ _ _⟩
  | status p seq d => exact ⟨_, rfl, h.takeControl .status p seq d fun hu => hu.reply p _ _ _ _⟩
  | winSet p seq d => exact ⟨_, rfl, h.takeControl .winSet p seq d fun hu => hu.winSetAct p d⟩
  | winGet p seq d => exact ⟨_, rfl, h.takeControl .winGet p seq d fun hu => hu.winGetAct p d⟩
  | slotSet p seq d => exact ⟨_, rfl, h.takeControl .slotSet p seq d fun hu => hu.slotSetAct p d⟩
  | slotGet p seq d => exact ⟨_, rfl, h.takeControl .slotGet p seq d fun hu => hu.slotGetAct p d⟩
  | slotClear p seq d => exact ⟨_, rfl, h.takeControl .slotClear p seq d fun hu => hu.slotClearAct p d⟩
  | sdrSet p seq d => exact ⟨_, rfl, h.takeControl .sdrSet p seq d fun hu => hu.sdrSetAct p d⟩
  | sdrGet p seq d => exact ⟨_, rfl, h.takeControl .sdrGet p seq d fun hu => hu.reply p _ _ _ _⟩
  | sdrSleep p seq d => exact ⟨_, rfl, h.takeControl .sdrSleep p seq d fun hu => hu.sdrSleepAct p d⟩
  | retireAdd p seq d => exact ⟨_, rfl, h.takeControl .retireAdd p seq d fun hu => hu.retireAddAct p d⟩
  | retireDrop p seq d => exact ⟨_, rfl, h.takeControl .retireDrop p seq d fun hu => hu.retireDropAct p d⟩
  | retireList p seq d => exact ⟨_, rfl, h.takeControl .retireList p seq d fun hu => hu.retireListAct p d⟩
  | cancel p seq d => exact ⟨_, rfl, h.takeControl .cancel p seq d fun hu => hu.cancelAct p d⟩
  | portReset p seq d => exact ⟨_, rfl, h.takeMessage fun hu => hu.dealPortReset p d⟩
  | bridgeReset p seq d => exact ⟨_, rfl, h.takeControl .bridgeReset p seq d fun hu => hu.bridgeResetAct p d⟩
  | chunkEnd xs =>
    refine ⟨_, rfl, settle ?_⟩
    split
    · exact h.loadChunkEnd xs
    · exact h.chunkEnd xs
  | atomicEnd xs => exact ⟨_, rfl, (h.atomicEnd xs).settle⟩
  | waitLimitReached k xs => exact ⟨_, rfl, (h.waitLimit k xs).settle⟩
  | nandCommandEnd ready => exact ⟨_, rfl, (h.commandEnd ready).settle⟩
  | loadingTenureEnd ready => exact ⟨_, rfl, (h.loadingEnd ready).settle⟩
  | unloadingTenureEnd bytes => exact ⟨_, rfl, (h.unloadingEnd bytes).settle⟩
  | statusTenureEnd b => exact ⟨_, rfl, (h.statusEnd b).settle⟩
  | idTenureEnd bytes => exact ⟨_, rfl, (h.idEnd bytes).settle⟩
  | resetTenureEnd ready => exact ⟨_, rfl, (h.resetEnd ready).settle⟩
  | nandReadyRise c => exact ⟨_, rfl, (h.readyRise c).settle⟩
  | nandTimeout c => exact ⟨_, rfl, (h.busyTimeout c).settle⟩
  | recoveryResetExpiry c => exact ⟨_, rfl, (h.recoveryExpiry c).settle⟩
  | clearResetExpiry c => exact ⟨_, rfl, (h.clearExpiry c).settle⟩
  | loadBusyTimeout => exact ⟨_, rfl, h.loadTimeout.settle⟩
  | refreshExpiry => exact ⟨_, rfl, h.refreshExpiry.settle⟩
  | refreshRoundEnd => exact ⟨_, rfl, h.refreshRoundEnd.settle⟩
  | powerdownEntry => exact ⟨_, rfl, h.enterPowerDown.settle⟩
  | selfRefreshTimer => exact ⟨_, rfl, h.selfRefreshReached.settle⟩
  | selfRefreshEntryEnd => exact ⟨_, rfl, h.selfRefreshEntryEnd.settle⟩
  | selfRefreshExitEnd => exact ⟨_, rfl, h.selfRefreshExitEnd.settle⟩
  | stabilisationWaitEnd => exact ⟨_, rfl, h.stabilised.settle⟩
  | prechargeStepEnd => exact ⟨_, rfl, h.prechargeStepEnd.settle⟩
  | refreshStepEnd => exact ⟨_, rfl, h.refreshStepEnd.settle⟩
  | modeStepEnd => exact ⟨_, rfl, h.modeStepEnd.settle⟩
  | setupPortsEntry => exact ⟨_, rfl, (h.walkStep .ports fun e => h.applyPorts e).settle⟩
  | setupSlotEntry => exact ⟨_, rfl, (h.walkStep .slot fun e => h.applySlotEntry e).settle⟩
  | setupSdramEntry => exact ⟨_, rfl, (h.walkStep .sdram fun e => h.applySdramEntry e).settle⟩
  | setupWindowEntry => exact ⟨_, rfl, (h.walkStep .window fun e => h.applyWindowEntry e).settle⟩
  | setupRetireEntry => exact ⟨_, rfl, (h.walkStep .retire fun e => h.applyRetireEntry e).settle⟩
  | setupUnknownEntry => exact ⟨_, rfl, h.walkUnknown.settle⟩

/-- A stopped refresh timer does not count (R115). -/
theorem tick (h : s.DebtLaw) : s.tick.DebtLaw := by
  have hcounts : ({ s with now := s.now + 1, ports := ⟨s.ports.a.tick, s.ports.b.tick⟩, sdram := s.sdram.tick } :
      State).DebtLaw := by
    obtain ⟨hle, hready, hstopped, hentry⟩ := h
    have hmap : s.sdram.refreshTimer = none → s.sdram.tick.refreshTimer = none := fun hn => by simp [Sdram.tick, hn]
    exact ⟨hle, hready, fun hd => hmap (hstopped hd), fun he => ⟨(hentry he).1, hmap (hentry he).2⟩⟩
  unfold State.tick
  dsimp only
  split
  · exact hcounts.alike rfl rfl rfl (.inl rfl)
  · exact hcounts

end State.DebtLaw

/-- Settles O59: every command keeps the law of the debt, and so does an MCLK in which none is taken. -/
theorem everyStepKeepsTheRefreshDebt : Obligations.EveryStepKeepsTheRefreshDebt := by
  intro s t hstep hs
  unfold Machine.step at hstep
  split at hstep
  · obtain rfl := Host.Outcome.next.inj hstep
    exact hs.tick
  · next i rest _ =>
    obtain ⟨u, hu, hlaw⟩ := (hs.same (t := { s with pending := rest }) rfl rfl).exec i
    rw [hu] at hstep
    exact Host.Outcome.next.inj hstep ▸ hlaw

end Sys2Proof.Machine
end

section
/-! The SDRAM engine's own events (R94, R96–R103, R112–R115): the commands and the row table of its tenures, and the state
after each of its rows. -/
namespace Sys2Proof.Machine

/-! ### The commands of a tenure's work -/

namespace SdTrace

theorem count_wait (x : SdTrace) (n : Nat) (c : SdCommand) : (x.wait n).cycles.count (.sd c) = x.cycles.count (.sd c) := by
  unfold wait
  split
  · rfl
  · simp

theorem count_command (x : SdTrace) (c y : SdCommand) :
    (x.command y).cycles.count (.sd c) = x.cycles.count (.sd c) + if y = c then 1 else 0 := by
  simp [command, List.count_singleton]

theorem count_timed (x : SdTrace) (c y : SdCommand) (n : Nat) :
    (x.timed y n).cycles.count (.sd c) = x.cycles.count (.sd c) + if y = c then 1 else 0 :=
  (count_wait _ _ c).trans (count_command x c y)

/-- Closing the banks issues nothing but PRECHARGE ALL (R102, R114). -/
theorem count_closeAll (x : SdTrace) (t : Settings) {c : SdCommand} (h : c ≠ .prechargeAll) :
    (x.closeAll t).cycles.count (.sd c) = x.cycles.count (.sd c) := by
  unfold closeAll
  split
  · rfl
  · refine (count_timed _ c _ _).trans ?_
    rw [if_neg h.symm]
    exact count_wait x _ c

theorem refreshes_succ (x : SdTrace) (t : Settings) (n : Nat) :
    x.refreshes t (n + 1) = (x.refreshes t n).timed .autoRefresh t.tRFC := by
  simp [refreshes, List.range_succ]

theorem count_refreshes (x : SdTrace) (t : Settings) (n : Nat) (c : SdCommand) :
    (x.refreshes t n).cycles.count (.sd c) = x.cycles.count (.sd c) + if .autoRefresh = c then n else 0 := by
  induction n with
  | zero => simp [refreshes]
  | succ n ih =>
    rw [refreshes_succ, count_timed, ih]
    split <;> rfl

theorem refreshes_rows (x : SdTrace) (t : Settings) (n : Nat) : (x.refreshes t n).rows = x.rows := by
  induction n with
  | zero => rfl
  | succ n ih => rw [refreshes_succ, timed_rows, ih]

/-- Every bank is closed behind it, whether or not one was open (R102, R114). -/
theorem closeAll_rows (x : SdTrace) (t : Settings) : (x.closeAll t).rows = x.rows.map (fun _ => none) := by
  unfold closeAll
  split
  · next h =>
    rw [List.all_eq_true] at h
    refine (List.map_id _).symm.trans (List.map_congr_left fun r hr => ?_)
    simpa using h r hr
  · simp

end SdTrace

/-- No command stands before a tenure's work begins (R69, R100). -/
theorem State.count_sdStart (s : State) (c : SdCommand) : s.sdStart.cycles.count (.sd c) = 0 :=
  SdTrace.count_wait _ _ c

/-- The work begins after the gap, and no earlier than 1 MCLK after MCKE rose (R69, R100). -/
theorem State.sdStart_now {s : State} {t : Tenure} (h : s.arbiter.tenure = some t) :
    s.sdStart.now = max t.start (s.sdram.mckeRoseAt + 1) := by
  simp only [State.sdStart, h, SdTrace.waitUntil, SdTrace.wait]
  split <;> dsimp only <;> omega

theorem sdRefreshRound_rows (x : SdTrace) (t : Settings) (n : Nat) :
    (sdRefreshRound x t n).rows = x.rows.map (fun _ => none) :=
  (SdTrace.refreshes_rows _ t n).trans (SdTrace.closeAll_rows x t)

/-- A round of `n` issues `n` AUTO REFRESH (R114). -/
theorem State.count_refreshRound (s : State) (t : Settings) (n : Nat) :
    (sdRefreshRound s.sdStart t n).cycles.count (.sd .autoRefresh) = n := by
  rw [sdRefreshRound, SdTrace.count_refreshes, SdTrace.count_closeAll _ t (by decide), State.count_sdStart]
  simp

theorem sdSelfRefreshEntry_rows (x : SdTrace) (t : Settings) (n : Nat) :
    (sdSelfRefreshEntry x t n).rows = x.rows.map (fun _ => none) :=
  (SdTrace.wait_rows _ 1).trans (sdRefreshRound_rows x t n)

/-- An entry that pays `n` issues `n` AUTO REFRESH and one SELF REFRESH (R102). -/
theorem State.count_selfRefreshEntry (s : State) (t : Settings) (n : Nat) :
    (sdSelfRefreshEntry s.sdStart t n).cycles.count (.sd .autoRefresh) = n ∧
      (sdSelfRefreshEntry s.sdStart t n).cycles.count (.sd .enterSelfRefresh) = 1 := by
  unfold sdSelfRefreshEntry
  simp only [SdTrace.count_wait, SdTrace.count_command, SdTrace.count_refreshes,
    SdTrace.count_closeAll _ t (by decide : SdCommand.autoRefresh ≠ .prechargeAll),
    SdTrace.count_closeAll _ t (by decide : SdCommand.enterSelfRefresh ≠ .prechargeAll), State.count_sdStart]
  simp

/-! ### The end of an SD tenure -/

/-- A tenure that leaves the row table as it found it ends as any other (R57). -/
theorem State.endSd_of_rows {s : State} {x : SdTrace} (h : x.rows = s.sdram.rows) (w : Bool) :
    s.endSd w x = s.endTenure w x.cycles := by
  rw [State.endSd, h]
  rfl

/-- What the engine holds at the end of a tenure does not bear on what is set there afterwards. -/
theorem State.setSdram_endTenure (s : State) (d x : Sdram) (w : Bool) (cs : List BusCycle) :
    ((s.setSdram d).endTenure w cs).setSdram x = (s.endTenure w cs).setSdram x := by
  unfold State.endTenure
  cases h : s.arbiter.tenure <;> simp [State.setSdram, h]

/-- The row table with every bank closed at the end of an SD tenure (R102, R114). -/
def State.endClosed (s : State) (cs : List BusCycle) : State :=
  ({ s with sdram := { s.sdram with rows := s.sdram.rows.map (fun _ => none) } } : State).endTenure true cs

theorem State.endSd_closed {s : State} {x : SdTrace} (h : x.rows = s.sdram.rows.map (fun _ => none)) :
    s.endSd true x = s.endClosed x.cycles := by
  rw [State.endSd, h]
  rfl

/-! ### Refresh (R112–R115) -/

/-- What leaving POWERDOWN does, field by field (R100). -/
theorem Sdram.wake_eq (d : Sdram) (now : Nat) : d.wake now = { d with
    state := if d.state = .powerdown then .ready else d.state
    powerDownTimer := if d.state = .powerdown then some 0 else d.powerDownTimer
    mckeRoseAt := if d.state = .powerdown then now else d.mckeRoseAt } := by
  unfold Sdram.wake
  split <;> rfl

theorem State.roundDebt_of_tenure {s : State} {t : Tenure} {n : Nat} (h : s.arbiter.tenure = some t)
    (hp : t.purpose = .refreshRound n) : s.roundDebt = some n := by
  simp only [State.roundDebt, h, hp]

/-- Settles O51: the expiry by the timer and the debt, and the round by the commands and the row table of its work. -/
theorem refreshDebtRisesAndIsPaid : Obligations.RefreshDebtRisesAndIsPaid := by
  intro s d
  have hrow : exec .refreshExpiry s = .next s.refreshExpiry.settle := rfl
  refine ⟨fun hstopped => ?_, fun hrunning => ?_, fun t n ht hp => ?_⟩
  · rw [hrow, State.refreshExpiry, hstopped]
  · obtain ⟨m, hm⟩ := Option.ne_none_iff_exists'.1 hrunning
    refine ⟨fun hlt => ?_, fun hge => ?_⟩
    · rw [hrow, State.refreshExpiry, hm]
      dsimp only
      rw [if_pos hlt, Sdram.wake_eq]
      rfl
    · rw [hrow, State.refreshExpiry, hm]
      dsimp only
      rw [if_neg (Nat.not_lt.2 hge)]
      rfl
  · refine ⟨s.count_refreshRound _ n, ?_⟩
    have hround : exec .refreshRoundEnd s = .next s.refreshRoundEnd.settle := rfl
    rw [hround, State.refreshRoundEnd, State.roundDebt_of_tenure ht hp]
    dsimp only
    rw [State.endSd_closed ((sdRefreshRound_rows _ _ n).trans (by rw [State.sdStart_rows]))]
    rfl

/-! ### Initialisation (R96, R97) -/

theorem State.inTenure_of_tenure {s : State} {t : Tenure} (h : s.arbiter.tenure = some t) {x : Purpose}
    (hp : t.purpose = x) : s.inTenure x = true := by
  simp only [State.inTenure, h, hp, beq_self_eq_true]

theorem State.endTenure_rows (s : State) (w : Bool) (cs : List BusCycle) :
    (s.endTenure w cs).sdram.rows = s.sdram.rows := by
  obtain ⟨n, hn⟩ := s.endTenure_sdram w cs
  rw [hn]

theorem State.settleStartup_running {s : State} (h : s.startup.top = .running) : s.settleStartup = s := by
  simp only [State.settleStartup, h]

theorem State.settleStartup_starting {s : State} (h : s.startup.top ≠ .running) :
    s.settleStartup = s.applyDeferred.tryRun := by
  cases htop : s.startup.top with
  | running => exact absurd htop h
  | starting x => simp only [State.settleStartup, htop]

theorem exec_prechargeStepEnd {s : State} {t : Tenure} (h : s.arbiter.tenure = some t) (hp : t.purpose = .initPrecharge) :
    let u := s.endTenure true (sdInitPrecharge s.sdStart s.sdram.settings).cycles
    exec .prechargeStepEnd s = .next (u.setSdram { u.sdram with init := .refresh }).settle := by
  have hrow : exec .prechargeStepEnd s = .next s.prechargeStepEnd.settle := rfl
  have hrows : (sdInitPrecharge s.sdStart s.sdram.settings).rows = s.sdram.rows :=
    (SdTrace.timed_rows _ _ _).trans s.sdStart_rows
  rw [hrow, State.prechargeStepEnd, if_pos (State.inTenure_of_tenure h hp), State.endSd_of_rows hrows]

theorem exec_refreshStepEnd {s : State} {t : Tenure} (h : s.arbiter.tenure = some t) (hp : t.purpose = .initRefresh) :
    let u := s.endTenure true (sdInitRefresh s.sdStart s.sdram.settings).cycles
    exec .refreshStepEnd s = .next (u.setSdram { u.sdram with init := .mode }).settle := by
  have hrow : exec .refreshStepEnd s = .next s.refreshStepEnd.settle := rfl
  have hrows : (sdInitRefresh s.sdStart s.sdram.settings).rows = s.sdram.rows :=
    (SdTrace.refreshes_rows _ _ 8).trans s.sdStart_rows
  rw [hrow, State.refreshStepEnd, if_pos (State.inTenure_of_tenure h hp), State.endSd_of_rows hrows]

/-- READY as the mode step leaves it, before the top state is looked at (R97). -/
theorem exec_modeStepEnd {s : State} {t : Tenure} (h : s.arbiter.tenure = some t) (hp : t.purpose = .initMode) :
    let u := s.endTenure true (sdInitMode s.sdStart s.sdram.settings).cycles
    exec .modeStepEnd s = .next ((u.setSdram { u.sdram with
      state := .ready, init := .none, debt := 0, rows := s.sdram.rows.map (fun _ => none), refreshTimer := some 0
      powerDownTimer := some 0, selfRefreshTimer := some 0, srReached := false, setReply := none }).deferredReply
        s.sdram.setReply .sdrSet .ok []).settleStartup.settle := by
  have hrow : exec .modeStepEnd s = .next s.modeStepEnd.settle := rfl
  have hrows : (sdInitMode s.sdStart s.sdram.settings).rows = s.sdram.rows :=
    (SdTrace.wait_rows _ 2).trans s.sdStart_rows
  intro u
  have hu : u.sdram.rows = s.sdram.rows := s.endTenure_rows _ _
  rw [hrow, State.modeStepEnd, if_pos (State.inTenure_of_tenure h hp), State.endSd_of_rows hrows, ← hu]
  rfl

/-- Settles O53: each step by the state that its row leaves and the commands of its work, and the end of the last by the top
state. -/
theorem initialisationStepsEndInReady : Obligations.InitialisationStepsEndInReady := by
  intro s t d at'
  have hwait : exec .stabilisationWaitEnd s = .next s.stabilised.settle := rfl
  refine ⟨fun h => ?_, fun h => ?_, fun ht => ⟨fun hp => ⟨?_, exec_prechargeStepEnd ht hp⟩,
    fun hp => ⟨?_, exec_refreshStepEnd ht hp⟩, fun hp => ⟨?_, ?_⟩⟩⟩
  · rw [hwait, State.stabilised, if_pos h]
  · rw [hwait, State.stabilised, if_neg h]
  · rw [SdTrace.count_timed, State.count_sdStart]
    rfl
  · rw [SdTrace.count_refreshes, State.count_sdStart]
    rfl
  · rw [SdTrace.count_wait, SdTrace.count_command, State.count_sdStart, if_pos rfl]
  · intro u v
    have htop : v.startup.top = s.startup.top := by simp [v, u, State.setSdram]
    have hexec : exec .modeStepEnd s = .next v.settleStartup.settle := exec_modeStepEnd ht hp
    rw [hexec]
    exact ⟨fun h => by rw [State.settleStartup_running (htop.trans h)],
      fun h => by rw [State.settleStartup_starting (htop ▸ h)]⟩

/-! ### POWERDOWN and SELFREFRESH (R98–R103) -/

theorem idleReached_iff {idle : Nat} {timer : Option Nat} :
    idleReached idle timer = true ↔ idle ≠ 0 ∧ ∃ n, timer = some n ∧ idle ≤ n := by
  cases timer <;> simp [idleReached]

theorem Sdram.allClosed_iff {d : Sdram} : d.allClosed = true ↔ ∀ r ∈ d.rows, r = none := by
  simp [Sdram.allClosed]

theorem State.sdIdle_iff {s : State} : s.sdIdle = true ↔ ∀ t, s.arbiter.tenure = some t → t.slot ≠ .sd := by
  unfold State.sdIdle
  cases h : s.arbiter.tenure <;> simp

/-- The conditions of R99: in READY with the SD queue empty a self-refresh entry is due by a pending SDR-SLEEP, by its row, or
by its timer's count (R101). -/
theorem State.canPowerDown_iff {s : State} :
    s.canPowerDown = true ↔ s.sdram.state = .ready ∧ s.sdram.settings.powerDownIdle ≠ 0 ∧
      (∃ n, s.sdram.powerDownTimer = some n ∧ s.sdram.settings.powerDownIdle ≤ n) ∧ s.queue .sd = [] ∧
      (∀ t, s.arbiter.tenure = some t → t.slot ≠ .sd) ∧ (∀ r ∈ s.sdram.rows, r = none) ∧ s.sdram.debt = 0 ∧
      s.sdram.sleepPending = false ∧ ¬(s.sdram.settings.selfRefreshIdle ≠ 0 ∧
        (s.sdram.srReached = true ∨ ∃ n, s.sdram.selfRefreshTimer = some n ∧ s.sdram.settings.selfRefreshIdle ≤ n)) := by
  simp only [State.canPowerDown, Bool.and_eq_true, Bool.not_eq_true', ← Bool.not_eq_true, Bool.or_eq_true, and_assoc,
    beq_iff_eq, List.isEmpty_iff, State.selfRefreshDue_iff, Sdram.powerDownTimerReached, Sdram.selfRefreshTimerReached,
    idleReached_iff, Sdram.allClosed_iff, State.sdIdle_iff]
  constructor
  · rintro ⟨hst, hidle, htimer, hq, hfree, hclosed, hdebt, hnot⟩
    refine ⟨hst, hidle, htimer, hq, hfree, hclosed, hdebt, fun hp => hnot (.inl ⟨.inl hst, hq, .inr hp⟩), ?_⟩
    rintro ⟨hi, hr | hn⟩
    · exact hnot (.inl ⟨.inl hst, hq, .inl ⟨hr, hi⟩⟩)
    · exact hnot (.inr ⟨hi, hn⟩)
  · rintro ⟨hst, hidle, htimer, hq, hfree, hclosed, hdebt, hpending, hdue⟩
    refine ⟨hst, hidle, htimer, hq, hfree, hclosed, hdebt, ?_⟩
    rintro (⟨-, -, ⟨hr, hi⟩ | hp⟩ | ⟨hi, hn⟩)
    · exact hdue ⟨hi, .inl hr⟩
    · exact hpending hp
    · exact hdue ⟨hi, .inr hn⟩

/-- A self-refresh entry that is due leaves POWERDOWN, and nothing else changes (R100, R101). -/
theorem State.wakeIfDue_eq (s : State) : s.wakeIfDue =
    let wakes := s.sdram.state = .powerdown ∧ s.selfRefreshDue = true;
    s.setSdram { s.sdram with
      state := if wakes then .ready else s.sdram.state
      powerDownTimer := if wakes then some 0 else s.sdram.powerDownTimer
      mckeRoseAt := if wakes then s.now else s.sdram.mckeRoseAt } := by
  unfold State.wakeIfDue
  cases hdue : s.selfRefreshDue with
  | true =>
    rw [if_pos rfl, Sdram.wake_eq]
    simp only [and_true]
  | false =>
    rw [if_neg Bool.false_ne_true]
    simp only [Bool.false_eq_true, and_false, if_false]
    rfl

/-- Once its row is taken the entry is due where the SD queue is empty (R101). -/
theorem exec_selfRefreshTimer_reached {s : State} (hawake : s.sdram.state = .ready ∨ s.sdram.state = .powerdown)
    (hreached : s.sdram.selfRefreshTimerReached = true) :
    let wakes := s.sdram.state = .powerdown ∧ s.queue .sd = []
    exec .selfRefreshTimer s = .next (s.setSdram { s.sdram with
      srReached := true
      state := if wakes then .ready else s.sdram.state
      powerDownTimer := if wakes then some 0 else s.sdram.powerDownTimer
      mckeRoseAt := if wakes then s.now else s.sdram.mckeRoseAt }).settle := by
  intro wakes
  have hrow : exec .selfRefreshTimer s = .next s.selfRefreshReached.settle := rfl
  have hdue : (s.setSdram { s.sdram with srReached := true }).selfRefreshDue = true ↔ s.queue .sd = [] := by
    rw [State.selfRefreshDue_iff]
    exact ⟨fun h => h.2.1, fun h => ⟨hawake, h, .inl ⟨rfl, (idleReached_iff.1 hreached).1⟩⟩⟩
  rw [hrow, State.selfRefreshReached, if_pos ⟨hawake, hreached⟩, State.wakeIfDue_eq]
  simp only [hdue]
  rfl

theorem exec_selfRefreshTimer_not_reached {s : State}
    (h : ¬((s.sdram.state = .ready ∨ s.sdram.state = .powerdown) ∧ s.sdram.selfRefreshTimerReached = true)) :
    exec .selfRefreshTimer s = .next s.settle := by
  have hrow : exec .selfRefreshTimer s = .next s.selfRefreshReached.settle := rfl
  rw [hrow, State.selfRefreshReached, if_neg h]

theorem State.entryDebt_of_purpose {s : State} {t : Tenure} {n : Nat} (h : s.arbiter.tenure = some t)
    (hp : t.purpose = .selfRefreshEntry n) : s.entryDebt = some n := by
  simp only [State.entryDebt, h, hp]

/-- The engine after the end of a tenure that closed every bank. -/
theorem State.endClosed_sdram (s : State) (cs : List BusCycle) : ∃ n, (s.endClosed cs).sdram =
    { s.sdram with rows := s.sdram.rows.map (fun _ => none), powerDownTimer := n } :=
  State.endTenure_sdram _ true cs

/-- The entry ends in SELFREFRESH and answers a pending SDR-SLEEP (R102, R104). -/
theorem exec_selfRefreshEntryEnd {s : State} {t : Tenure} {n : Nat} (h : s.arbiter.tenure = some t)
    (hp : t.purpose = .selfRefreshEntry n) (hstate : s.sdram.state = .ready) :
    let u := s.endClosed (sdSelfRefreshEntry s.sdStart s.sdram.settings n).cycles
    exec .selfRefreshEntryEnd s = .next ((u.setSdram u.sdram.asleep).deferredReply s.sdram.sleepReply .sdrSleep .ok
      []).settle := by
  intro u
  have hrow : exec .selfRefreshEntryEnd s = .next s.selfRefreshEntryEnd.settle := rfl
  have hrows : (sdSelfRefreshEntry s.sdStart s.sdram.settings n).rows = s.sdram.rows.map (fun _ => none) := by
    rw [sdSelfRefreshEntry_rows, State.sdStart_rows]
  have hready : u.sdram.state = .ready := by
    obtain ⟨m, hm⟩ := s.endClosed_sdram (sdSelfRefreshEntry s.sdStart s.sdram.settings n).cycles
    rw [hm]
    exact hstate
  rw [hrow, State.selfRefreshEntryEnd, State.entryDebt_of_purpose h hp]
  dsimp only
  rw [State.endSd_closed hrows, if_pos hready]

/-- The exit ends in READY with every bank closed and the three timers started, MCKE having risen when its work began
(R103). -/
theorem exec_selfRefreshExitEnd {s : State} {t : Tenure} (h : s.arbiter.tenure = some t)
    (hp : t.purpose = .selfRefreshExit) (hstate : s.sdram.state = .selfRefresh) :
    let u := s.endClosed (sdSelfRefreshExit s.sdStart s.sdram.settings).cycles
    exec .selfRefreshExitEnd s = .next (u.setSdram { u.sdram with
      state := .ready, debt := 0, refreshTimer := some 0, powerDownTimer := some 0, selfRefreshTimer := some 0
      srReached := false, mckeRoseAt := s.sdStart.now }).settle := by
  intro u
  have hrow : exec .selfRefreshExitEnd s = .next s.selfRefreshExitEnd.settle := rfl
  have hrows : (sdSelfRefreshExit s.sdStart s.sdram.settings).rows = s.sdram.rows :=
    (SdTrace.wait_rows _ _).trans s.sdStart_rows
  obtain ⟨m, hm⟩ := s.endTenure_sdram true (sdSelfRefreshExit s.sdStart s.sdram.settings).cycles
  obtain ⟨n, hn⟩ := s.endClosed_sdram (sdSelfRefreshExit s.sdStart s.sdram.settings).cycles
  have hasleep : (s.endTenure true (sdSelfRefreshExit s.sdStart s.sdram.settings).cycles).sdram.state = .selfRefresh := by
    rw [hm]
    exact hstate
  rw [hrow, State.selfRefreshExitEnd, if_pos (State.inTenure_of_tenure h hp)]
  dsimp only
  rw [State.endSd_of_rows hrows, if_pos hasleep, hm, hn]
  exact congrArg (fun v : State => Host.Outcome.next v.settle) (State.setSdram_endTenure s _ _ _ _).symm

/-- The exit's work is idle time alone (R103). -/
theorem getLast_sdSelfRefreshExit (x : SdTrace) (t : Settings) :
    (sdSelfRefreshExit x t).cycles.getLast? = some (.idle (t.tRFC + 2)) := by
  rw [sdSelfRefreshExit, SdTrace.wait, if_neg (Nat.succ_ne_zero _)]
  exact List.getLast?_concat ..

theorem State.mcke_exit {s : State} {t : Tenure} (h : s.arbiter.tenure = some t) (hp : t.purpose = .selfRefreshExit)
    (hstate : s.sdram.state = .selfRefresh) : s.mcke = true ↔ s.sdStart.now ≤ s.now := by
  simp [State.mcke, h, hp, hstate, SdState.mcke]

/-- Settles O52: POWERDOWN by the conditions of R99, the timer's row by what it makes due, and the two tenures by the states
that their ends leave. -/
theorem idleSdramPowersDownAndSleeps : Obligations.IdleSdramPowersDownAndSleeps := by
  intro s d awake closed quiet
  have hdown : exec .powerdownEntry s = .next s.enterPowerDown.settle := rfl
  refine ⟨fun hquiet => ?_, fun hquiet => ?_, fun x => ?_, fun n hn hawake hidle hle => ?_, fun hnot => ?_,
    fun t n ht hp hstate => ?_, fun t ht hp hstate => ?_⟩
  · rw [hdown, State.enterPowerDown, if_pos (State.canPowerDown_iff.2 hquiet)]
    rfl
  · rw [hdown, State.enterPowerDown, if_neg (mt State.canPowerDown_iff.1 hquiet)]
  · cases x <;> simp [SdState.mcke]
  · exact exec_selfRefreshTimer_reached hawake (idleReached_iff.2 ⟨hidle, n, hn, hle⟩)
  · refine exec_selfRefreshTimer_not_reached fun ⟨hawake, hreached⟩ => ?_
    obtain ⟨hidle, n, hn, hle⟩ := idleReached_iff.1 hreached
    rcases hnot with hstopped | hasleep | hzero | ⟨m, hm, hlt⟩
    · exact Option.some_ne_none n (hn.symm.trans hstopped)
    · exact hasleep hawake
    · exact hidle hzero
    · obtain rfl := Option.some.inj (hn.symm.trans hm)
      exact absurd hlt (Nat.not_lt.2 hle)
  · obtain ⟨hpaid, hentered⟩ := s.count_selfRefreshEntry d.settings n
    exact ⟨hpaid, hentered, exec_selfRefreshEntryEnd ht hp hstate⟩
  · have hnow := State.sdStart_now ht
    refine ⟨getLast_sdSelfRefreshExit _ _, State.mseldHigh_exit ht hp, ?_, ?_⟩
    · rw [State.mcke_exit ht hp hstate, hnow]
    · rw [← hnow]
      exact exec_selfRefreshExitEnd ht hp hstate

/-! ### SDR-SET and SDR-SLEEP (R95, R104) -/

/-- The judging of an SDR-SET, check by check (R95). -/
theorem State.judgeSdr_cases (s : State) (d : List Byte) :
    (s.windowOn .sd = true → s.judgeSdr d = .error .conflict) ∧
    (s.windowOn .sd = false →
      let busy := s.sdram.state = .initialising ∨ s.entryOn .sd = true ∨ s.sdram.sleepPending = true;
      (busy → s.judgeSdr d = .error .busy) ∧
      (¬busy →
        (settingsOfBlock d = none → s.judgeSdr d = .error .badArg) ∧
        ∀ t, settingsOfBlock d = some t → s.judgeSdr d = .ok t)) := by
  unfold State.judgeSdr
  refine ⟨fun hw => if_pos hw, fun hw => ?_⟩
  rw [hw, if_neg Bool.false_ne_true]
  refine ⟨fun hb => if_pos hb, fun hb => ?_⟩
  rw [if_neg hb]
  exact ⟨fun ht => by rw [ht], fun t ht => by rw [ht]⟩

/-- The judging of an SDR-SET looks at no port unit and no notice. -/
theorem State.judgeSdr_takeFrame (s : State) (p : Port) (seq : Byte) (d : List Byte) :
    (s.takeFrame p seq).judgeSdr d = s.judgeSdr d := by
  rw [State.takeFrame_only]
  rfl

theorem State.takeFrame_now (s : State) (p : Port) (seq : Byte) : (s.takeFrame p seq).now = s.now := by
  rw [State.takeFrame_only]

theorem State.queue_takeFrame (s : State) (p : Port) (seq : Byte) (k : Slot) :
    (s.takeFrame p seq).queue k = s.queue k := by
  rw [State.takeFrame_only]
  rfl

/-- An accepted SDR-SET on the state that taking its frame leaves, field by field (R95). -/
theorem State.applySdr_takeFrame (s : State) (p : Port) (seq : Byte) (t : Settings) (reply : Option Deferred) :
    (s.takeFrame p seq).applySdr t reply = { s.takeFrame p seq with sdram := { s.sdram with
      settings := t, state := .initialising, init := .waiting, initWait := 0, rows := List.replicate t.banks none, debt := 0
      refreshTimer := none, powerDownTimer := none, selfRefreshTimer := none, srReached := false, setReply := reply
      mckeRoseAt := if s.sdram.state.mcke then s.sdram.mckeRoseAt else s.now } } := by
  rw [State.takeFrame_only]
  rfl

/-- Outside INITIALISING MCKE is high in READY alone (R94). -/
theorem SdState.mcke_of_not_initialising {x : SdState} (h : x ≠ .initialising) : x.mcke = true ↔ x = .ready := by
  cases x <;> simp_all [SdState.mcke]

section
variable {s : State} {p : Port} {seq token : Byte} {block : List Byte}

theorem exec_sdrSet (h : s.Reaches .sdrSet p seq (token :: block)) :
    exec (.sdrSet p seq (token :: block)) s = .next ((s.takeFrame p seq).sdrSetAct p (token :: block)).settle :=
  congrArg (fun v : State => Host.Outcome.next v.settle)
    (State.takeControl_of_reaches h fun u => u.sdrSetAct p (token :: block))

/-- A refused SDR-SET changes nothing, and is answered with its status (R95). -/
theorem exec_sdrSet_refused {st : Status} (h : s.Reaches .sdrSet p seq (token :: block))
    (hj : s.judgeSdr block = .error st) :
    exec (.sdrSet p seq (token :: block)) s = .next ((s.takeFrame p seq).reply p token .sdrSet st []).settle := by
  have hj : (s.takeFrame p seq).judgeSdr ((token :: block).drop 1) = .error st :=
    (s.judgeSdr_takeFrame p seq block).trans hj
  rw [exec_sdrSet h, State.sdrSetAct, hj]
  rfl

/-- An accepted SDR-SET is applied and holds its slot for the deferred reply (R95). -/
theorem exec_sdrSet_accepted {t : Settings} (h : s.Reaches .sdrSet p seq (token :: block))
    (hj : s.judgeSdr block = .ok t) :
    exec (.sdrSet p seq (token :: block)) s =
      .next (((s.takeFrame p seq).applySdr t (some ⟨p, token⟩)).holdSlot p).settle := by
  have hj : (s.takeFrame p seq).judgeSdr ((token :: block).drop 1) = .ok t := (s.judgeSdr_takeFrame p seq block).trans hj
  rw [exec_sdrSet h, State.sdrSetAct, hj]
  rfl

theorem exec_sdrSleep (h : s.Reaches .sdrSleep p seq [token]) :
    exec (.sdrSleep p seq [token]) s = .next ((s.takeFrame p seq).sdrSleepAct p [token]).settle :=
  congrArg (fun v : State => Host.Outcome.next v.settle)
    (State.takeControl_of_reaches h fun u => u.sdrSleepAct p [token])

/-- In READY and POWERDOWN an SDR-SLEEP is BUSY beside another or beside entries, and otherwise becomes pending (R104). -/
theorem State.sdrSleepAct_awake (h : s.sdram.state = .ready ∨ s.sdram.state = .powerdown) :
    s.sdrSleepAct p [token] =
      if s.sdram.sleepPending || !(s.queue .sd).isEmpty then s.reply p token .sdrSleep .busy []
      else ((s.setSdram { s.sdram with sleepPending := true, sleepReply := some ⟨p, token⟩ }).holdSlot p).wakeIfDue := by
  unfold State.sdrSleepAct
  rcases h with h | h <;> rw [h] <;> rfl

/-- A pending SDR-SLEEP is due at once beside an empty queue, and so leaves POWERDOWN (R100, R104). -/
theorem State.sdrSleepAct_pending (h : s.sdram.state = .ready ∨ s.sdram.state = .powerdown)
    (hpending : s.sdram.sleepPending = false) (hq : s.queue .sd = []) :
    s.sdrSleepAct p [token] = (s.setSdram { s.sdram with
      sleepPending := true, sleepReply := some ⟨p, token⟩, state := .ready
      powerDownTimer := if s.sdram.state = .powerdown then some 0 else s.sdram.powerDownTimer
      mckeRoseAt := if s.sdram.state = .powerdown then s.now else s.sdram.mckeRoseAt }).holdSlot p := by
  have hdue : ((s.setSdram { s.sdram with sleepPending := true, sleepReply := some ⟨p, token⟩ }).holdSlot
      p).selfRefreshDue = true := State.selfRefreshDue_iff.2 ⟨h, hq, .inr rfl⟩
  rw [State.sdrSleepAct_awake h, hpending, hq, if_neg (by decide), State.wakeIfDue, if_pos hdue, Sdram.wake_eq]
  rcases h with h | h <;> simp [State.holdSlot, State.setPort, State.setSdram, State.port, h]

end

/-- Settles O39: SDR-SET by its checks in their order and what an accepted one sets, SDR-SLEEP by the SDRAM's state. -/
theorem sdrSetAndSdrSleepActByState : Obligations.SdrSetAndSdrSleepActByState := by
  intro s p seq token block
  refine ⟨fun h => ?_, fun h => ?_⟩
  · intro u refused targeted live busy
    obtain ⟨hconflict, hfree⟩ := s.judgeSdr_cases block
    have htargeted : ¬targeted → s.windowOn .sd = false := fun ht => Bool.not_eq_true _ ▸ mt State.windowOn_iff.1 ht
    have hbusy : (s.sdram.state = .initialising ∨ s.entryOn .sd = true ∨ s.sdram.sleepPending = true) ↔ busy := by
      rw [State.entryOn_iff]
    refine ⟨fun ht => exec_sdrSet_refused h (hconflict (State.windowOn_iff.2 ht)),
      fun ht hb => exec_sdrSet_refused h ((hfree (htargeted ht)).1 (hbusy.2 hb)),
      fun ht hb hblock => exec_sdrSet_refused h (((hfree (htargeted ht)).2 (mt hbusy.1 hb)).1 hblock),
      fun t ht hb hblock => ?_⟩
    have hmcke : s.sdram.state.mcke = true ↔ s.sdram.state = .ready :=
      SdState.mcke_of_not_initialising fun hinit => hb (.inl hinit)
    rw [exec_sdrSet_accepted h (((hfree (htargeted ht)).2 (mt hbusy.1 hb)).2 t hblock), State.applySdr_takeFrame]
    simp only [hmcke]
    rfl
  · intro u answered d awake
    have hu : u.sdram = d := State.takeFrame_sdram s p seq
    have hq : u.queue .sd = s.queue .sd := State.queue_takeFrame s p seq .sd
    have hnow : u.now = s.now := State.takeFrame_now s p seq
    have hanswer : ∀ st, u.sdrSleepAct p [token] = u.reply p token .sdrSleep st [] → answered st := fun st hact =>
      (exec_sdrSleep h).trans (by rw [hact])
    refine ⟨fun hst => hanswer _ ?_, fun hst => hanswer _ ?_, fun hawake hbusy => hanswer _ ?_,
      fun hawake hpending hempty => ?_⟩
    · unfold State.sdrSleepAct
      rcases hst with hst | hst <;> rw [hu, hst] <;> rfl
    · unfold State.sdrSleepAct
      rw [hu, hst]
      rfl
    · rw [State.sdrSleepAct_awake (hu ▸ hawake), hu, hq, if_pos (by simpa using hbusy)]
    · rw [exec_sdrSleep h, State.sdrSleepAct_pending (hu ▸ hawake) (hu ▸ hpending) (hq.trans hempty), hu, ← hnow]
      rfl

end Sys2Proof.Machine
end

section
/-! The selection on SD (R110), and what a grant for entry work does to the entries of its queue (R17, R63, R111). -/
namespace Sys2Proof.Machine

/-! ### The entry that may pass -/

/-- A younger entry may pass `older`: its first chunk is a row hit, it shares bytes with none of them where one of the two
changes memory, and each of them stands below 4 (R110). -/
def Sdram.MayPass (d : Sdram) (older : List Entry) (y : Entry) : Prop :=
  d.hit y.current = true ∧ ∀ o ∈ older, o.bypass.getD 0 < 4 ∧
    ¬((o.kind.changes = true ∨ y.kind.changes = true) ∧ o.offset < y.offset + y.length ∧
      y.offset < o.offset + o.length)

theorem Sdram.mayPass_iff {d : Sdram} {older : List Entry} {y : Entry} :
    (d.hit y.current && older.all (fun o => !o.conflicts y && decide (o.bypass.getD 0 < 4))) = true ↔
      d.MayPass older y := by
  simp only [Sdram.MayPass, Bool.and_eq_true, List.all_eq_true, Bool.not_eq_true', ← Bool.not_eq_true,
    Entry.conflicts, Entry.shares, Bool.or_eq_true, decide_eq_true_eq]
  refine and_congr_right fun _ => forall₂_congr fun o _ => ?_
  rw [and_comm, and_comm (a := _ ∨ _)]

/-- The candidate is the first younger entry that may pass all older ones (R110). -/
theorem mayPass_of_bypassCandidate {d : Sdram} {y : Entry} : ∀ {l older : List Entry},
    bypassCandidate d older l = some y → ∃ a b, l = a ++ y :: b ∧ d.MayPass (older ++ a) y ∧
      ∀ a' z b', a = a' ++ z :: b' → ¬d.MayPass (older ++ a') z
  | [], _, h => by simp [bypassCandidate] at h
  | x :: l, older, h => by
    unfold bypassCandidate at h
    split at h
    · next hx =>
      obtain rfl := Option.some.inj h
      exact ⟨[], l, rfl, by simpa using Sdram.mayPass_iff.1 hx, by simp⟩
    · next hx =>
      obtain ⟨a, b, rfl, hy, hfirst⟩ := mayPass_of_bypassCandidate h
      refine ⟨x :: a, b, rfl, by simpa using hy, fun a' z b' ha => ?_⟩
      cases a' with
      | nil =>
        obtain ⟨rfl, -⟩ := List.cons.inj ha
        simpa using mt Sdram.mayPass_iff.2 hx
      | cons w a' =>
        obtain ⟨rfl, htail⟩ := List.cons.inj ha
        simpa using hfirst a' z b' htail

theorem not_mayPass_of_bypassCandidate {d : Sdram} : ∀ {l older : List Entry}, bypassCandidate d older l = none →
    ∀ a z b, l = a ++ z :: b → ¬d.MayPass (older ++ a) z
  | [], _, _, a, z, b, hl => by simp at hl
  | x :: l, older, h, a, z, b, hl => by
    unfold bypassCandidate at h
    split at h
    · cases h
    · next hx =>
      cases a with
      | nil =>
        obtain ⟨rfl, -⟩ := List.cons.inj hl
        simpa using mt Sdram.mayPass_iff.2 hx
      | cons w a =>
        obtain ⟨rfl, htail⟩ := List.cons.inj hl
        simpa using not_mayPass_of_bypassCandidate h a z b htail

/-- The head is passed where the policy is OPEN and it is no row hit (R110). -/
def Sdram.Passable (d : Sdram) (h : Entry) : Prop := d.settings.policy = .opened ∧ d.hit h.current = false

theorem sdSelect_of_not_passable {d : Sdram} {h : Entry} (hp : ¬d.Passable h) (rest : List Entry) :
    sdSelect d (h :: rest) = some h := if_neg hp

/-- A passable head waits behind the candidate, where there is one (R110). -/
theorem sdSelect_of_passable {d : Sdram} {h : Entry} (hp : d.Passable h) (rest : List Entry) :
    sdSelect d (h :: rest) = some ((bypassCandidate d [h] rest).getD h) := by
  refine (if_pos hp).trans ?_
  cases bypassCandidate d [h] rest <;> rfl

/-! ### The entries of the SD queue -/

/-- Names that find entries are the names of what they find. -/
theorem State.TableLaw.map_ref_filterMap {s : State} (ht : s.TableLaw) : ∀ {l : List Ref},
    (∀ r ∈ l, ∃ e, s.find r = some e) → (l.filterMap (fun r => s.find r)).map Entry.ref = l
  | [], _ => rfl
  | r :: l, h => by
    obtain ⟨e, he⟩ := h r (List.mem_cons_self ..)
    rw [List.filterMap_cons_some he, List.map_cons, ht.ref_of_find he,
      ht.map_ref_filterMap fun x hx => h x (List.mem_cons_of_mem r hx)]

theorem State.QueueLaw.map_ref_sdEntries {s : State} (ht : s.TableLaw) (hq : s.QueueLaw) :
    s.sdEntries.map Entry.ref = s.queue .sd := by
  obtain ⟨hnamed, -, -⟩ := hq
  exact ht.map_ref_filterMap fun r hr => let ⟨e, he, _⟩ := (hnamed .sd).2 r hr; ⟨e, he⟩

/-- An entry of the SD queue is found by its own name, and waits or works (R58). -/
theorem State.QueueLaw.of_mem_sdEntries {s : State} (ht : s.TableLaw) (hq : s.QueueLaw) {e : Entry}
    (he : e ∈ s.sdEntries) : s.find e.ref = some e ∧ e.state.waitsOrWorks := by
  obtain ⟨r, hr, hfind⟩ := List.mem_filterMap.1 he
  obtain ⟨hnamed, -, -⟩ := hq
  obtain ⟨x, hx, -, hw⟩ := (hnamed .sd).2 r hr
  obtain rfl := Option.some.inj (hfind.symm.trans hx)
  exact ⟨ht.ref_of_find hfind ▸ hfind, hw⟩

/-- A change in place, entry by entry. -/
theorem State.entries_updateEntry_ref (s : State) (r : Ref) (f : Entry → Entry) (p : Port) :
    (s.updateEntry r f).entries p = (s.entries p).map (fun x => if (⟨p, x.tag⟩ : Ref) = r then f x else x) := by
  obtain ⟨q, tag⟩ := r
  rw [State.entries_updateEntry]
  by_cases hp : p = q
  · simp [hp]
  · simp [hp]

/-- Every entry named has its count raised once (R111). -/
theorem State.entries_bypassAll (p : Port) : ∀ {l : List Ref} (s : State), l.Nodup →
    (l.foldl (fun s x => s.updateEntry x Entry.bypassed) s).entries p =
      (s.entries p).map (fun x => if (⟨p, x.tag⟩ : Ref) ∈ l then x.bypassed else x)
  | [], s, _ => by simp
  | r :: l, s, hl => by
    obtain ⟨hr, hl⟩ := List.nodup_cons.1 hl
    rw [List.foldl_cons, State.entries_bypassAll p _ hl, State.entries_updateEntry_ref, List.map_map]
    refine List.map_congr_left fun x _ => ?_
    by_cases hx : (⟨p, x.tag⟩ : Ref) = r
    · have hnot : (⟨p, x.bypassed.tag⟩ : Ref) ∉ l := fun hm => hr (hx ▸ hm)
      simp [hx, hnot]
    · simp [hx]

/-! ### What the grant begins (R17, R63, R111) -/

section
variable {s : State}

theorem State.sdInProgress_eq (s : State) :
    s.sdInProgress = (s.sdEntries.find? (fun e => e.state == .active || e.state == .orphaned)).map Entry.ref := rfl

theorem EntryState.works_iff {x : EntryState} : (x == .active || x == .orphaned) = true ↔ x.works := by
  simp [EntryState.works]

/-- The first entry at work is the one in progress (R110). -/
theorem State.sdInProgress_of_split {older younger : List Entry} {e : Entry} (h : s.sdEntries = older ++ e :: younger)
    (he : e.state.works) (ho : ∀ x ∈ older, ¬x.state.works) : s.sdInProgress = some e.ref := by
  have hhead : (e :: younger).find? (fun x => x.state == .active || x.state == .orphaned) = some e :=
    List.find?_cons_of_pos (EntryState.works_iff.2 he)
  rw [State.sdInProgress_eq, h, List.find?_append,
    List.find?_eq_none.2 fun x hx => mt EntryState.works_iff.1 (ho x hx), hhead]
  rfl

theorem State.sdInProgress_eq_none (h : ∀ e ∈ s.sdEntries, ¬e.state.works) : s.sdInProgress = none := by
  rw [State.sdInProgress_eq, List.find?_eq_none.2 fun x hx => mt EntryState.works_iff.1 (h x hx)]
  rfl

/-- An entry in progress goes on: no count rises (R110). -/
theorem State.beginSdEntry_in_progress {e : Entry} (hp : s.sdInProgress = some e.ref) (he : s.find e.ref = some e) :
    s.beginSdEntry = (s.updateEntry e.ref Entry.activate, ⟨transferPurpose e.kind, some e.ref⟩) := by
  have hchoice : s.sdChoice = some e.ref := by rw [State.sdChoice, hp]
  simp only [State.beginSdEntry, hchoice, he, hp, Option.isSome_some, if_true]

/-- A selected entry passes all older ones of the queue (R111). -/
theorem State.beginSdEntry_selected {y : Entry} (hp : s.sdInProgress = none) (hy : sdSelect s.sdram s.sdEntries = some y)
    (hfind : s.find y.ref = some y) :
    s.beginSdEntry =
      (((s.sdOlder y.ref).foldl (fun s x => s.updateEntry x Entry.bypassed) s).updateEntry y.ref Entry.activate,
        ⟨transferPurpose y.kind, some y.ref⟩) := by
  have hchoice : s.sdChoice = some y.ref := by rw [State.sdChoice, hp, hy, Option.map_some]
  simp only [State.beginSdEntry, hchoice, hfind, hp, Option.isSome_none, Bool.false_eq_true, if_false]

/-- The grant for entry work (R63, R114). -/
theorem State.grant_sdEntry (ht : s.arbiter.tenure = none) (hw : s.winner = some .sd) (hinit : s.sdram.initDue = false)
    (hdebt : s.sdram.debt < 6) (hready : s.sdram.state = .ready) (hq : s.queue .sd ≠ []) :
    s.grant = s.beginSdEntry.1.withTenure .sd s.beginSdEntry.2 := by
  have hbegin : s.beginOn .sd = s.beginSdEntry := by
    refine (State.beginSd_of_initialised hinit).trans ?_
    rw [if_neg (Nat.not_le.2 hdebt), if_pos (State.sdEntryReady_iff.2 ⟨hready, hq⟩)]
  rw [State.grant_of_winner ht hw, hbegin]

/-- A working entry is not made ACTIVE again (R17). -/
theorem Entry.activate_of_works {e : Entry} (h : e.state.works) : e.activate = e := by
  unfold Entry.activate
  rw [if_neg]
  rcases h with h | h <;> rw [h] <;> nofun

/-- A waiting entry becomes ACTIVE with progress 0 (R17). -/
theorem Entry.activate_of_waits {e : Entry} (h : e.state.waitsOrWorks) (hn : ¬e.state.works) :
    e.activate = { e with state := .active, progress := some 0 } := if_pos (h.resolve_right hn)

/-- A change that leaves the entry found as it is leaves the table as it is. -/
theorem State.TableLaw.updateEntry_of_fixed (ht : s.TableLaw) {r : Ref} {e : Entry} {f : Entry → Entry}
    (he : s.find r = some e) (hf : f e = e) : (s.updateEntry r f).table = s.table := by
  obtain ⟨older, younger, hs, ho, hy⟩ := ht.split_of_find he
  rw [State.updateEntry_of_split hs (State.find_tag he) ho hy, hf, ← hs]
  exact ByPort.set_get s.table r.port

/-- In the queue's order the entries older than `y` are those before it (R58, R111). -/
theorem State.sdOlder_of_split {a b : List Entry} {y : Entry} (h : s.queue .sd = a.map Entry.ref ++ y.ref :: b.map Entry.ref)
    (hn : (s.queue .sd).Nodup) : s.sdOlder y.ref = a.map Entry.ref := by
  have hnot : ∀ r ∈ a.map Entry.ref, (r != y.ref) = true := by
    rw [h] at hn
    intro r hr
    exact bne_iff_ne.2 fun hy => (List.nodup_append.1 hn).2.2 r hr y.ref (List.mem_cons_self ..) hy
  rw [State.sdOlder, h, List.takeWhile_append_of_pos hnot, List.takeWhile_cons_of_neg (by simp), List.append_nil]

/-- The entries after a selection: the older ones' counts have risen by 1, the selected one is ACTIVE, and no other has
changed (R17, R111). -/
theorem State.entries_selected (ht : s.TableLaw) (hq : s.QueueLaw) {a b : List Entry} {y : Entry}
    (h : s.sdEntries = a ++ y :: b) (hy : ¬y.state.works) (p : Port) :
    (((s.sdOlder y.ref).foldl (fun s x => s.updateEntry x Entry.bypassed) s).updateEntry y.ref Entry.activate).entries p =
      (s.entries p).map (fun x =>
        if x ∈ a then x.bypassed else if x = y then { x with state := .active, progress := some 0 } else x) := by
  have hnodup : (s.queue .sd).Nodup := (hq.1 .sd).1
  have hqueue : s.queue .sd = a.map Entry.ref ++ y.ref :: b.map Entry.ref := by
    rw [← hq.map_ref_sdEntries ht, h, List.map_append, List.map_cons]
  have holder := State.sdOlder_of_split hqueue hnodup
  rw [hqueue, List.nodup_append] at hnodup
  obtain ⟨hna, -, hdisjoint⟩ := hnodup
  have hmem : ∀ x ∈ s.sdEntries, s.find x.ref = some x := fun x hx => (hq.of_mem_sdEntries ht hx).1
  rw [State.entries_updateEntry_ref, holder, State.entries_bypassAll p s hna, List.map_map]
  refine List.map_congr_left fun x hx => ?_
  have hfind : s.find x.ref = some x := by
    rw [Entry.ref, (ht p).2.2 x hx]
    exact ht.find_of_mem hx
  have hname : (⟨p, x.tag⟩ : Ref) = x.ref := by rw [Entry.ref, (ht p).2.2 x hx]
  have hsame : ∀ z ∈ s.sdEntries, x.ref = z.ref → x = z := fun z hz hr =>
    Option.some.inj (hfind.symm.trans (hr ▸ hmem z hz))
  have hpassed : x.ref ∈ a.map Entry.ref ↔ x ∈ a := by
    refine ⟨fun hr => ?_, List.mem_map_of_mem⟩
    obtain ⟨z, hz, hzr⟩ := List.mem_map.1 hr
    exact hsame z (by simp [h, hz]) hzr.symm ▸ hz
  have hselected : x.ref = y.ref ↔ x = y := ⟨hsame y (by simp [h]), congrArg Entry.ref⟩
  have htag : x.bypassed.tag = x.tag := rfl
  simp only [Function.comp_apply, hname, hpassed]
  by_cases hxa : x ∈ a
  · have hne : x.ref ≠ y.ref := hdisjoint _ (List.mem_map_of_mem hxa) _ (List.mem_cons_self ..)
    rw [if_pos hxa, if_pos hxa, htag, hname, if_neg hne]
  · rw [if_neg hxa, if_neg hxa, hname]
    by_cases hxy : x = y
    · have hwaits := (hq.of_mem_sdEntries ht (by simp [h] : y ∈ s.sdEntries)).2
      rw [if_pos (hselected.2 hxy), if_pos hxy, hxy, Entry.activate_of_waits hwaits hy]
    · rw [if_neg (mt hselected.1 hxy), if_neg hxy]

end

/-! ### The statement -/

/-- What SD selects from a queue that has a head (R110). -/
theorem sdSelect_cons_cases (d : Sdram) (h : Entry) (rest : List Entry) :
    (sdSelect d (h :: rest) = some h ∧
        ∀ a z b, rest = a ++ z :: b → ¬(d.Passable h ∧ d.MayPass (h :: a) z)) ∨
      ∃ a y b, sdSelect d (h :: rest) = some y ∧ rest = a ++ y :: b ∧ (d.Passable h ∧ d.MayPass (h :: a) y) ∧
        ∀ a' z b', a = a' ++ z :: b' → ¬(d.Passable h ∧ d.MayPass (h :: a') z) := by
  by_cases hp : d.Passable h
  · rw [sdSelect_of_passable hp]
    cases hc : bypassCandidate d [h] rest with
    | none => exact .inl ⟨rfl, fun a z b hab hz => not_mayPass_of_bypassCandidate hc a z b hab hz.2⟩
    | some y =>
      obtain ⟨a, b, hab, hy, hfirst⟩ := mayPass_of_bypassCandidate hc
      exact .inr ⟨a, y, b, rfl, hab, ⟨hp, hy⟩, fun a' z b' ha hz => hfirst a' z b' ha hz.2⟩
  · exact .inl ⟨sdSelect_of_not_passable hp rest, fun a z b _ hz => hp hz.1⟩

/-- Settles O7: the candidate's search along the queue says what is selected, and the grant's fold over the older entries,
read entry by entry, what changes. -/
theorem sdSelectionPassesOnlyWithinItsLimits : Obligations.SdSelectionPassesOnlyWithinItsLimits := by
  unfold Obligations.SdSelectionPassesOnlyWithinItsLimits
  refine ⟨fun d h rest => ?_, fun s ht hq htenure hw hinit hdebt hready hne => ?_⟩
  · have hiff : ∀ older y, (d.settings.policy = .opened ∧ d.hit h.current = false ∧ d.MayPass older y) ↔
        (d.Passable h ∧ d.MayPass older y) := fun _ _ => and_assoc.symm
    rcases sdSelect_cons_cases d h rest with ⟨hs, hnone⟩ | ⟨a, y, b, hs, hab, hy, hfirst⟩
    · refine ⟨fun z hz => .inl ⟨Option.some.inj (hz.symm.trans hs), fun a w b hab hw => ?_⟩, by rw [hs]; rfl⟩
      exact hnone a w b hab ((hiff _ _).1 hw)
    · refine ⟨fun z hz => .inr ?_, by rw [hs]; rfl⟩
      obtain rfl := Option.some.inj (hz.symm.trans hs)
      exact ⟨a, b, hab, (hiff _ _).2 hy, fun a' w b' ha hw => hfirst a' w b' ha ((hiff _ _).1 hw)⟩
  · have hgrant := State.grant_sdEntry htenure hw hinit hdebt hready hne
    refine ⟨fun older e younger hes he hol => ?_, fun hidle => ?_⟩
    · have hes : s.sdEntries = older ++ e :: younger := hes
      have hfind : s.find e.ref = some e := (hq.of_mem_sdEntries ht (by simp [hes])).1
      rw [hgrant, State.beginSdEntry_in_progress (State.sdInProgress_of_split hes he hol) hfind]
      exact ⟨⟨_, rfl, rfl, rfl, rfl⟩, ht.updateEntry_of_fixed hfind (Entry.activate_of_works he)⟩
    · have hidle : ∀ e ∈ s.sdEntries, ¬e.state.works := hidle
      obtain ⟨y, hy⟩ : ∃ y, sdSelect s.sdram s.sdEntries = some y := by
        cases hes : s.sdEntries with
        | nil => exact absurd (by rw [← hq.map_ref_sdEntries ht, hes, List.map_nil]) hne
        | cons h rest =>
          rcases sdSelect_cons_cases s.sdram h rest with ⟨hs, -⟩ | ⟨_, y, _, hs, -⟩
          · exact ⟨h, hs⟩
          · exact ⟨y, hs⟩
      obtain ⟨a, b, hes, -⟩ := sdSelect_eq_some hy
      have hmem : y ∈ s.sdEntries := by simp [hes]
      refine ⟨a, y, b, hes, hy, ?_⟩
      rw [hgrant, State.beginSdEntry_selected (State.sdInProgress_eq_none hidle) hy (hq.of_mem_sdEntries ht hmem).1]
      exact ⟨⟨_, rfl, rfl, rfl, rfl⟩, State.entries_selected ht hq hes (hidle y hmem)⟩

end Sys2Proof.Machine
end

section
/-! The examination of a NAND queue's head goes on until a head stays (R123): its fuel covers every entry that can become one. -/
namespace Sys2Proof.Machine

/-! ### Which entries an examination can retire -/

/-- What an examination retires: the found head of a NAND slot's queue, a PG-PROG or BLK-ERASE of a listed block (R123). -/
theorem State.retiredHead_eq_some_iff {s : State} {c : Chip} {r : Ref} :
    s.retiredHead c = some r ↔ ((s.profile c).type = .nand ∧ (s.context c).state = .idle ∧ s.health.get c = .ok) ∧
      ∃ rest e, s.queue (.chip c) = r :: rest ∧ s.find r = some e ∧
        (e.kind = .pgProg ∨ e.kind = .blkErase) ∧ e.block ∈ s.retired.get c := by
  constructor
  · intro h
    obtain ⟨rest, e, hq, he, -⟩ := State.retiredHead_eq_some h
    rw [State.retiredHead_of_head hq he] at h
    obtain ⟨hslot, hentry⟩ : _ ∧ _ := by
      by_contra hnot
      rw [if_neg hnot] at h
      cases h
    exact ⟨hslot, rest, e, hq, he, hentry⟩
  · rintro ⟨hslot, rest, e, hq, he, hentry⟩
    rw [State.retiredHead_of_head hq he, if_pos ⟨hslot, hentry⟩]

/-- The entries that stand in a slot's queue, or that a fence may still release into it, are among `l`. -/
def State.WaitWithin (s : State) (c : Chip) (l : List Ref) : Prop :=
  ∀ x y, s.find x = some y → x ∈ s.queue (.chip c) ∨ y.state = .held → x ∈ l

/-- A join adds no other name to any queue (R58). -/
theorem State.mem_queue_join {s : State} {r x : Ref} {k j : Slot} (h : x ∈ (s.join r k).queue j) :
    x ∈ s.queue j ∨ x = r := by
  have hjoined : ∀ f : Entry → Entry, x ∈ ((s.setQueue k (s.queue k ++ [r])).updateEntry r f).queue j →
      x ∈ s.queue j ∨ x = r := fun f hx => by
    rw [State.queue_updateEntry, State.queue_setQueue] at hx
    split at hx
    · next hj => simpa [hj] using hx
    · exact .inl hx
  cases k with
  | sd => exact hjoined (fun e => { e with state := .queued, bypass := some 0 }) h
  | chip c =>
    rcases s.join_chip_or r c with hj | hj
    · exact hjoined _ (hj ▸ h)
    · rw [hj, State.retireHead, State.queue_finish, State.queue_dequeue] at h
      refine hjoined (fun e => { e with state := .queued }) ?_
      split at h
      · next hk => exact hk ▸ (List.mem_filter.1 h).1
      · exact h

/-- A released entry was HELD, and no other entry comes to wait (R16). -/
theorem State.WaitWithin.releaseHeld {s : State} {c : Chip} {l : List Ref} (h : s.WaitWithin c l) (ht : s.TableLaw)
    {p : Port} {e : Entry} (he : e ∈ s.entries p) (hst : e.state = .held) : (s.releaseHeld p e).WaitWithin c l := by
  have hfind := ht.find_of_mem he
  intro x y hx hwait
  by_cases hxe : x = ⟨p, e.tag⟩
  · exact h x e (hxe ▸ hfind) (.inr hst)
  unfold State.releaseHeld at hx hwait
  split at hx
  · next hok =>
    rw [if_pos hok] at hwait
    rw [(State.join_beside e.slot hfind).1 x hxe] at hx
    exact h x y hx (hwait.imp_left fun hq => (State.mem_queue_join hq).resolve_right hxe)
  · next hok =>
    rw [if_neg hok, State.queue_finish] at hwait
    rw [(State.finish_beside .slotStall hfind).1 x hxe] at hx
    exact h x y hx hwait

/-- The fences bring no other entry to wait (R16). -/
theorem State.WaitWithin.evalFences {s : State} {c : Chip} {l : List Ref} (h : s.WaitWithin c l) (ht : s.TableLaw)
    (p : Port) : (s.evalFences p).WaitWithin c l :=
  (State.evalFences_keeps (P := fun u => u.TableLaw ∧ u.WaitWithin c l) p
    (fun _ e he hst hu => ⟨tableOps_tableLaw.releaseHeld p e hu.1, hu.2.releaseHeld hu.1 he hst⟩) ⟨ht, h⟩).2

/-- A retired head waits no more (R18, R123). -/
theorem State.WaitWithin.retireHead {s : State} {c : Chip} {l : List Ref} (h : s.WaitWithin c l) {r : Ref} {e : Entry}
    (he : s.find r = some e) : (s.retireHead c r).WaitWithin c (l.erase r) := by
  intro x y hx hwait
  rw [State.retireHead, State.find_finish (s := s.dequeue (.chip c) r) .retired he] at hx
  rw [State.retireHead, State.queue_finish, State.queue_dequeue, if_pos rfl, List.mem_filter] at hwait
  by_cases hxr : x = r
  · rw [if_pos hxr] at hx
    split at hx
    · cases hx
    · obtain rfl := Option.some.inj hx
      simp [hxr] at hwait
  · rw [if_neg hxr] at hx
    exact (List.mem_erase_of_ne hxr).2 (h x y hx (hwait.imp_left And.left))

/-! ### The fuel -/

theorem State.examineFuel_of_none {s : State} {c : Chip} (h : s.retiredHead c = none) (n : Nat) :
    State.examineFuel n s c = s := by
  cases n with
  | zero => rfl
  | succ n => rw [State.examineFuel, h]

/-- At most `n` entries wait, so that an examination retires no more than these. -/
def State.FewWait (s : State) (c : Chip) (n : Nat) : Prop := s.TableLaw ∧ ∃ l : List Ref, l.length ≤ n ∧ s.WaitWithin c l

/-- No more entries wait than the table holds. -/
theorem State.TableLaw.fewWait {s : State} (ht : s.TableLaw) (c : Chip) :
    s.FewWait c ((s.entries .a).length + (s.entries .b).length) := by
  refine ⟨ht, (s.entries .a).map (fun e => ⟨.a, e.tag⟩) ++ (s.entries .b).map (fun e => ⟨.b, e.tag⟩), by simp, ?_⟩
  rintro ⟨p, tag⟩ y hx -
  have hmem := State.find_mem hx
  obtain rfl : y.tag = tag := State.find_tag hx
  cases p with
  | a => exact List.mem_append_left _ (List.mem_map.2 ⟨y, hmem, rfl⟩)
  | b => exact List.mem_append_right _ (List.mem_map.2 ⟨y, hmem, rfl⟩)

theorem State.FewWait.succ {s : State} {c : Chip} {n : Nat} (h : s.FewWait c n) : s.FewWait c (n + 1) := by
  obtain ⟨ht, l, hlen, hl⟩ := h
  exact ⟨ht, l, Nat.le_succ_of_le hlen, hl⟩

/-- A retired head was one of those that waited, and one fewer waits after it and the fences. -/
theorem State.FewWait.next {s : State} {c : Chip} {n : Nat} (h : s.FewWait c n) {r : Ref} (hr : s.retiredHead c = some r) :
    ∃ m, n = m + 1 ∧ ((s.retireHead c r).evalFences r.port).FewWait c m := by
  obtain ⟨ht, l, hlen, hl⟩ := h
  obtain ⟨-, rest, e, hq, he, -⟩ := State.retiredHead_eq_some_iff.1 hr
  have hmem : r ∈ l := hl r e he (.inl (by simp [hq]))
  have hpos := List.length_pos_of_mem hmem
  have herase := List.length_erase_of_mem hmem
  have ht' := tableOps_tableLaw.retireHead c r ht
  exact ⟨n - 1, by omega, tableOps_tableLaw.evalFences r.port ht', l.erase r, by omega,
    (hl.retireHead he).evalFences ht' r.port⟩

/-- Fuel beyond the entries that wait changes nothing. -/
theorem State.examineFuel_congr {c : Chip} {n m : Nat} {s : State} (hn : s.FewWait c n) (hm : s.FewWait c m) :
    State.examineFuel n s c = State.examineFuel m s c := by
  induction n generalizing m s with
  | zero =>
    cases hr : s.retiredHead c with
    | none => rw [State.examineFuel_of_none hr, State.examineFuel_of_none hr]
    | some r =>
      obtain ⟨k, hk, -⟩ := hn.next hr
      cases hk
  | succ n ih =>
    cases hr : s.retiredHead c with
    | none => rw [State.examineFuel_of_none hr, State.examineFuel_of_none hr]
    | some r =>
      obtain ⟨_, hk, hn'⟩ := hn.next hr
      obtain rfl := Nat.succ.inj hk
      obtain ⟨m, rfl, hm'⟩ := hm.next hr
      rw [State.examineFuel, State.examineFuel, hr]
      exact ih hn' hm'

/-- A head that stays ends the examination at once (R123). -/
theorem State.examine_of_none {s : State} {c : Chip} (h : s.retiredHead c = none) : s.examine c = s :=
  State.examineFuel_of_none h _

/-- A head is retired, the fences of its port are evaluated, and the new head is examined in turn (R123). -/
theorem State.examine_of_some {s : State} (ht : s.TableLaw) {c : Chip} {r : Ref} (h : s.retiredHead c = some r) :
    s.examine c = ((s.retireHead c r).evalFences r.port).examine c := by
  obtain ⟨_, hk, hnext⟩ := (ht.fewWait c).succ.next h
  obtain rfl := Nat.succ.inj hk
  rw [State.examine, State.examineFuel, h]
  exact State.examineFuel_congr hnext (hnext.1.fewWait c).succ

end Sys2Proof.Machine
end

section
/-! RETIRE-ADD and RETIRE-DROP at their owner (R139–R141). -/
namespace Sys2Proof.Machine

@[simp] theorem State.takeFrame_retired (s : State) (p : Port) (seq : Byte) : (s.takeFrame p seq).retired = s.retired := by
  rw [State.takeFrame_only]

/-- The block of a retired-list message, least significant byte first (R197, R201). -/
theorem field_block (token x lo hi : Byte) : field [token, x, lo, hi] 2 2 = lo.toNat + 256 * hi.toNat := rfl

section
variable {s : State} {p : Port} {token x lo hi : Byte} {c : Chip} {b : Nat}

/-! ### The judging -/

theorem State.judgeRetire_unknown (hc : chipOfCode x = none) : s.judgeRetire x b = .error .badArg := by
  rw [State.judgeRetire, hc]

/-- A slot's list takes a block of the slot where it is listed or has room (R140). -/
theorem State.judgeRetire_of_chip (hc : chipOfCode x = some c) :
    let usable := (s.profile c).type = .nand ∧ b < (s.profile c).blockCount;
    (¬usable → s.judgeRetire x b = .error .badArg) ∧
    (usable → b ∈ s.retired.get c → s.judgeRetire x b = .ok c) ∧
    (usable → b ∉ s.retired.get c → 32 ≤ (s.retired.get c).length → s.judgeRetire x b = .error .full) ∧
    (usable → b ∉ s.retired.get c → (s.retired.get c).length < 32 → s.judgeRetire x b = .ok c) := by
  intro usable
  have hplace : ((s.profile c).type ≠ .nand ∨ (s.profile c).blockCount ≤ b) ↔ ¬usable := by
    rw [not_and_or, Nat.not_lt]
  unfold State.judgeRetire
  rw [hc]
  dsimp only
  refine ⟨fun hu => if_pos (hplace.2 hu), fun hu hb => ?_, fun hu hb hfull => ?_, fun hu hb hroom => ?_⟩ <;>
    rw [if_neg fun h => hplace.1 h hu]
  · exact if_pos hb
  · rw [if_neg hb, if_pos hfull]
  · rw [if_neg hb, if_neg (Nat.not_le.2 hroom)]

/-! ### The owner's answers -/

theorem State.retireAddAct_refused {st : Status} (h : s.judgeRetire x (lo.toNat + 256 * hi.toNat) = .error st) :
    s.retireAddAct p [token, x, lo, hi] = s.reply p token .retireAdd st [] := by
  unfold State.retireAddAct
  rw [field_block, show at8 [token, x, lo, hi] 1 = x from rfl]
  dsimp only
  rw [h]
  rfl

/-- A listed block is not listed twice; another takes its place, and the head is examined ahead of the answer (R140). -/
theorem State.retireAddAct_accepted (h : s.judgeRetire x (lo.toNat + 256 * hi.toNat) = .ok c) :
    s.retireAddAct p [token, x, lo, hi] =
      (if lo.toNat + 256 * hi.toNat ∈ s.retired.get c then s
        else (s.addRetired c (lo.toNat + 256 * hi.toNat)).examine c).reply p token .retireAdd .ok [] := by
  unfold State.retireAddAct
  rw [field_block, show at8 [token, x, lo, hi] 1 = x from rfl]
  dsimp only
  rw [h]
  rfl

theorem State.retireDropAct_refused (h : s.nandSlot x = none) :
    s.retireDropAct p [token, x, lo, hi] = s.reply p token .retireDrop .badArg [] := by
  unfold State.retireDropAct
  rw [show at8 [token, x, lo, hi] 1 = x from rfl, h]
  rfl

/-- A listed block leaves the list, which closes up (R141). -/
theorem State.retireDropAct_of_slot (h : s.nandSlot x = some c) :
    s.retireDropAct p [token, x, lo, hi] =
      if lo.toNat + 256 * hi.toNat ∈ s.retired.get c then
        (s.setRetired c ((s.retired.get c).filter (fun b => b != lo.toNat + 256 * hi.toNat))).reply
          p token .retireDrop .ok []
      else s.reply p token .retireDrop .notFound [] := by
  unfold State.retireDropAct
  rw [field_block, show at8 [token, x, lo, hi] 1 = x from rfl]
  dsimp only
  rw [h]
  rfl

theorem State.nandSlot_unknown (hc : chipOfCode x = none) : s.nandSlot x = none := by
  rw [State.nandSlot, hc, Option.bind_none]

theorem State.nandSlot_of_chip (hc : chipOfCode x = some c) :
    s.nandSlot x = if (s.profile c).type = .nand then some c else none := by
  rw [State.nandSlot, hc, Option.bind_some]

end

/-! ### The statement -/

/-- Settles O40: the messages go by the slot, the block and the list as taking the frame leaves them, and the examination by
the head that it retires. -/
theorem retiredListTakesItsMessages : Obligations.RetiredListTakesItsMessages := by
  intro s p seq token x lo hi block d
  refine ⟨fun h => ?_, fun h => ?_, fun l hl => ⟨pairwise_insertAsc block l hl, fun b => mem_insertAsc block b l⟩, ?_⟩
  · intro u answered
    have hrow : exec (.retireAdd p seq d) s = .next (u.retireAddAct p d).settle :=
      congrArg (fun v : State => Host.Outcome.next v.settle) (State.takeControl_of_reaches h fun v => v.retireAddAct p d)
    have hrefused : ∀ {st}, u.judgeRetire x block = .error st → answered u st := fun hj =>
      hrow.trans (by rw [State.retireAddAct_refused hj])
    refine ⟨fun hc => hrefused (State.judgeRetire_unknown hc), ?_⟩
    intro c hc usable
    have hprofile : u.profile c = s.profile c := s.takeFrame_profile p seq c
    have hretired : u.retired = s.retired := s.takeFrame_retired p seq
    have haccepted : u.judgeRetire x block = .ok c →
        (block ∈ s.retired.get c → answered u .ok) ∧ (block ∉ s.retired.get c →
          answered (({ u with retired := s.retired.set c (insertAsc block (s.retired.get c)) } : State).examine c) .ok) := by
      intro hj
      rw [← hretired]
      exact ⟨fun hb => hrow.trans (by rw [State.retireAddAct_accepted hj, if_pos hb]),
        fun hb => hrow.trans (by rw [State.retireAddAct_accepted hj, if_neg hb]; rfl)⟩
    obtain ⟨hbad, hlisted, hfull, hroom⟩ := State.judgeRetire_of_chip (s := u) (b := block) hc
    rw [hprofile] at hbad
    rw [hprofile, hretired] at hlisted hfull hroom
    exact ⟨fun hu => hrefused (hbad hu), fun hu hb => (haccepted (hlisted hu hb)).1 hb,
      fun hu hb hlen => hrefused (hfull hu hb hlen), fun hu hb hlen => (haccepted (hroom hu hb hlen)).2 hb⟩
  · intro u answered
    have hrow : exec (.retireDrop p seq d) s = .next (u.retireDropAct p d).settle :=
      congrArg (fun v : State => Host.Outcome.next v.settle) (State.takeControl_of_reaches h fun v => v.retireDropAct p d)
    have hrefused : u.nandSlot x = none → answered u .badArg := fun hn =>
      hrow.trans (by rw [State.retireDropAct_refused hn])
    refine ⟨fun hc => hrefused (State.nandSlot_unknown hc), fun c hc => ?_⟩
    have hslot := State.nandSlot_of_chip (s := u) hc
    rw [← s.takeFrame_profile p seq, ← s.takeFrame_retired p seq]
    refine ⟨fun htype => hrefused (hslot.trans (if_neg htype)), fun htype hb => ?_, fun htype hb => ?_⟩
    · exact hrow.trans (by rw [State.retireDropAct_of_slot (hslot.trans (if_pos htype)), if_neg hb])
    · exact hrow.trans (by rw [State.retireDropAct_of_slot (hslot.trans (if_pos htype)), if_pos hb]; rfl)
  · intro c examines retires
    refine ⟨fun ht hexamines r rest e hq he hretires => ?_, fun hnot => ?_⟩
    · exact State.examine_of_some ht (State.retiredHead_eq_some_iff.2 ⟨hexamines, rest, e, hq, he, hretires⟩)
    · refine State.examine_of_none (Option.eq_none_iff_forall_ne_some.2 fun r hr => hnot ?_)
      obtain ⟨hexamines, rest, e, hq, he, hretires⟩ := State.retiredHead_eq_some_iff.1 hr
      exact ⟨hexamines, r, rest, e, hq, he, hretires⟩

end Sys2Proof.Machine
end

section
/-! A NAND slot's tenure and context, its ready line and its busy timer (R122, R130, R131). -/
namespace Sys2Proof

@[simp] theorem ByChip.set_set {α : Type} (x : ByChip α) (c : Chip) (u v : α) : (x.set c u).set c v = x.set c v := by
  cases c <;> rfl

namespace Machine

@[simp] theorem State.setContext_setContext (s : State) (c : Chip) (x y : Context) :
    (s.setContext c x).setContext c y = s.setContext c y := by
  simp only [State.setContext, ByChip.set_set]

@[simp] theorem State.context_setReady (s : State) (c d : Chip) (level : Bool) :
    (s.setReady c level).context d = s.context d := rfl

@[simp] theorem State.context_endTenure (s : State) (w : Bool) (cs : List BusCycle) (c : Chip) :
    (s.endTenure w cs).context c = s.context c := by
  rw [State.context, State.endTenure_nand, State.context]

theorem State.setReady_setContext (s : State) (c d : Chip) (level : Bool) (x : Context) :
    (s.setContext c x).setReady d level = (s.setReady d level).setContext c x := rfl

theorem State.nandTenure_of_tenure {s : State} {t : Tenure} {c : Chip} {x : Purpose} (ht : s.arbiter.tenure = some t)
    (hc : t.slot = .chip c) (hx : t.purpose = x) : s.nandTenure x = some c := by
  rw [State.nandTenure, ht]
  dsimp only
  rw [hc]
  exact if_pos hx

theorem State.contextEntry_of_find {s : State} {c : Chip} {r : Ref} {e : Entry} (hr : (s.context c).entry = some r)
    (he : s.find r = some e) : s.contextEntry c = some e := by
  rw [State.contextEntry, hr, Option.bind_some, he]

/-- A row's outcome follows what it makes of the state. -/
theorem next_settle_of_eq {u v : State} (h : u = v) :
    (.next u.settle : Host.Outcome State Fault Refusal) = .next v.settle := by
  rw [h]

/-! ### The ready rise -/

section
variable {s : State} {c : Chip}

/-- A rise in BUSY stops the timer and makes ready seen (R131). -/
theorem State.takeRise_busy (h : (s.context c).state = .busy) :
    s.takeRise c = s.setContext c { s.context c with timer := none, readySeen := true } := by
  unfold State.takeRise
  rw [h]

/-- A rise ends a recovery that is not the setup load's (R134). -/
theorem State.takeRise_recovering (h : (s.context c).state = .recovering) (hl : s.startup.load = none) :
    s.takeRise c = (s.setContext c Context.idle).examine c := by
  have hloads : s.startup.loads c = false := by rw [Startup.loads, hl]; rfl
  unfold State.takeRise
  rw [h]
  dsimp only
  rw [hloads]
  rfl

/-- A rise ends a clear with OK (R137). -/
theorem State.takeRise_clearing (h : (s.context c).state = .clearing) : s.takeRise c = s.endClear c .ok .ok := by
  unfold State.takeRise
  rw [h]

/-- The end of a clear looks at the context for its deferred answer alone (R137). -/
theorem State.endClear_setContext (x : Context) (h : Health) (st : Status) :
    (s.setContext c x).endClear c h st =
      ((s.setHealth c h).setContext c Context.idle).deferredReply x.clearReply .slotClear st (clearBody c h) := by
  have hset : ((s.setContext c x).setHealth c h).setContext c Context.idle = (s.setHealth c h).setContext c Context.idle :=
    (s.setHealth c h).setContext_setContext c x Context.idle
  rw [State.endClear, hset, State.context_setContext, if_pos rfl]

/-! ### The busy timer -/

/-- On a low line the timer runs from the arming on (R130). -/
theorem State.arm_low (limit : Nat) : s.arm c limit false =
    (s.setReady c false).setContext c { s.context c with timer := some ⟨limit, 0⟩, readySeen := false } := rfl

/-- On a high line the arming is a rise (R131). -/
theorem State.arm_high (limit : Nat) : s.arm c limit true =
    ((s.setReady c true).setContext c { s.context c with timer := some ⟨limit, 0⟩, readySeen := false }).takeRise c := rfl

/-- The arming of a busy period at both levels of the ready line (R130, R131). -/
theorem State.arm_busy (h : (s.context c).state = .busy) (limit : Nat) (ready : Bool) :
    s.arm c limit ready = (s.setReady c ready).setContext c { s.context c with
      timer := if ready then none else some ⟨limit, 0⟩, readySeen := ready } := by
  cases ready with
  | false => exact State.arm_low limit
  | true =>
    rw [State.arm_high, State.takeRise_busy (by simpa using h), State.setContext_setContext, State.context_setContext,
      if_pos rfl]
    rfl

end

end Machine
end Sys2Proof
end

section
/-! The command and loading tenures: their cycles, and the busy periods that begin at their ends (R119–R121, R124, R126, R128). -/
namespace Sys2Proof.Machine

/-! ### The cycles -/

/-- The column cycles of column 0: one on 512-byte pages, two on large ones (R117, R120). -/
theorem nandAddress_column_zero (f : Profile) : nandAddress f.columnCycles 0 =
    if f.pageSize = 512 then [BusCycle.nand (.address 0)] else [.nand (.address 0), .nand (.address 0)] := by
  unfold Profile.columnCycles
  split <;> rfl

/-- The data cycles carry one byte each at width 8 and two at width 16 (R119). -/
theorem map_dataCycles (g : List Byte → BusCycle) (width : Nat) (d : List Byte) :
    (dataCycles width d).map g =
      if width = 16 then (List.range (d.length / 2)).map (fun i => g [at8 d (2 * i), at8 d (2 * i + 1)])
      else d.map (fun b => g [b]) := by
  unfold dataCycles
  split <;> rw [List.map_map] <;> rfl

/-! ### The ends -/

/-- The state after a loading tenure but for the context: the sector is sent and counted (R126, R149). -/
def State.sectorLoaded (s : State) (c : Chip) (r : Ref) (e : Entry) : State :=
  (s.endTenure true (loadingCycles (s.profile c) e.block e.page (e.moved == 0) ((s.context c).left == 1)
    (loadSector (s.profile c).ecc e.raw (s.stagedSector e e.moved)))).updateEntry r Entry.sectorDone

section
variable {s : State} {t : Tenure} {c : Chip} {r : Ref} {e : Entry} (ht : s.arbiter.tenure = some t)
  (hc : t.slot = .chip c) (hr : (s.context c).entry = some r) (he : s.find r = some e)
include ht hc hr he

/-- A command tenure of an entry arms the timer with the limit of its operation (R124, R128). -/
theorem State.commandEnd_of_entry (hx : t.purpose = .nandCommand) (ready : Bool) :
    ((s.context c).op = some .erase → s.commandEnd ready =
      (s.endTenure true (eraseCommandCycles (s.profile c) e.block)).arm c (s.profile c).eraseLimit ready) ∧
    ((s.context c).op = some .read → s.commandEnd ready =
      (s.endTenure true (readCommandCycles (s.profile c) e.block e.page)).arm c (s.profile c).readLimit ready) := by
  unfold State.commandEnd
  rw [State.nandTenure_of_tenure ht hc hx]
  dsimp only
  rw [State.contextEntry_of_find hr he]
  exact ⟨fun hop => by rw [hop], fun hop => by rw [hop]⟩

/-- A loading tenure sends its sector, and the last one arms the timer with the program limit (R126). -/
theorem State.loadingEnd_of_entry (href : e.ref = r) (hx : t.purpose = .nandLoad) (ready : Bool) :
    ((s.context c).left ≠ 1 → s.loadingEnd ready = (s.sectorLoaded c r e).setContext c
      { s.context c with left := (s.context c).left - 1, state := .loading }) ∧
    ((s.context c).left = 1 → s.loadingEnd ready = ((s.sectorLoaded c r e).setContext c
      { s.context c with left := 0, state := .busy }).arm c (s.profile c).programLimit ready) := by
  unfold State.loadingEnd
  rw [State.nandTenure_of_tenure ht hc hx]
  dsimp only
  rw [State.contextEntry_of_find hr he]
  dsimp only
  rw [href]
  refine ⟨fun hleft => ?_, fun hleft => ?_⟩
  · rw [State.sectorLoaded, beq_false_of_ne hleft]
    rfl
  · rw [State.sectorLoaded, hleft]
    rfl

end

/-- Settles O47: the cycles form by form, and at each tenure's end the arming of a BUSY context (`arm_busy`). -/
theorem busyPeriodsBeginAtTenureEnds : Obligations.BusyPeriodsBeginAtTenureEnds := by
  refine ⟨?_, ?_⟩
  · intro f block page first last d cmd rows place data
    have hplace : f.pageAddress block page = place := by
      rw [Profile.pageAddress, nandAddress_column_zero]
      rfl
    have hdata : dataIn f.width d = data := map_dataCycles _ f.width d
    refine ⟨?_, rfl, ?_⟩
    · rw [readCommandCycles, hplace]
      split <;> simp [cmd, nandCmd]
    · rw [loadingCycles, hplace, hdata]
      rfl
  · intro s ready t c r e htable ht hc hr he f x armed
    have href : e.ref = r := htable.ref_of_find he
    have harmed : ∀ {u : State} {y : Context} (limit : Nat), u.pins = s.pins → u.nand = s.nand → y.state = .busy →
        (u.setReady c ready).setContext c
          { y with timer := if ready then none else some ⟨limit, 0⟩, readySeen := ready } = armed u y limit := by
      intro u y limit hpins hnand hy
      rw [State.setContext, State.setReady, hpins, hnand, hy]
    have hcommand : ∀ (cycles : List BusCycle) (limit : Nat), x.state = .busy →
        (s.endTenure true cycles).arm c limit ready = armed (s.endTenure true cycles) x limit := by
      intro cycles limit hstate
      rw [State.arm_busy (by rwa [State.context_endTenure]), State.context_endTenure]
      exact harmed limit (s.endTenure_pins true cycles) (s.endTenure_nand true cycles) hstate
    refine ⟨fun hx hstate hop => ?_, fun hx hstate hop => ?_, fun hx hstate => ?_⟩
    · obtain ⟨herase, -⟩ := State.commandEnd_of_entry ht hc hr he hx ready
      rw [← hcommand _ _ hstate, ← herase hop]
      rfl
    · obtain ⟨-, hread⟩ := State.commandEnd_of_entry ht hc hr he hx ready
      rw [← hcommand _ _ hstate, ← hread hop]
      rfl
    · intro sector u
      have hu : s.sectorLoaded c r e = u := rfl
      have hnand : u.nand = s.nand := by rw [State.updateEntry_nand, State.endTenure_nand]
      have hpins : u.pins = s.pins := by rw [State.updateEntry_pins, State.endTenure_pins]
      obtain ⟨hmore, hlast⟩ := State.loadingEnd_of_entry ht hc hr he href hx ready
      rw [hu] at hmore hlast
      refine ⟨fun hleft => ?_, fun hleft => ?_⟩
      · have harm : s.loadingEnd ready = armed u { x with left := 0 } f.programLimit := by
          rw [hlast hleft, State.arm_busy (by simp), State.setReady_setContext, State.setContext_setContext,
            State.context_setContext, if_pos rfl]
          exact harmed f.programLimit hpins hnand rfl
        rw [← harm]
        rfl
      · have hset : s.loadingEnd ready = { u with nand := s.nand.set c { x with left := x.left - 1 } } := by
          rw [hmore hleft, State.setContext, hnand, ← hstate]
        rw [← hset]
        rfl

end Sys2Proof.Machine
end

section
/-! The unloading, status and read-ID tenures: their cycles, and the ends of their operations (R119–R121, R124–R129, R142, R154). -/
namespace Sys2Proof.Machine

/-! ### The data of a tenure -/

/-- A row that carries every byte leaves none free (log entry 6). -/
theorem dataBytes_of_length {n : Nat} {d : List Byte} (h : d.length = n) : dataBytes n d = d := by
  subst h
  refine List.ext_getElem (by simp [dataBytes]) fun i hi hd => ?_
  simp [dataBytes, List.getElem?_eq_getElem hd]

theorem eccActive_eq_false {m : EccMode} {raw : Bool} : eccActive m raw = false ↔ raw = true ∨ m = .none := by
  cases raw <;> simp [eccActive]

/-- Without the unit's work a sector is CLEAN as read (R153). -/
theorem unloadSector_eq (m : EccMode) (raw : Bool) (choice : Option (Nat × List Byte)) (d : List Byte) :
    unloadSector m raw choice d = if raw = true ∨ m = .none then (.clean, d, false) else decodeSector m choice d := by
  unfold unloadSector
  by_cases h : raw = true ∨ m = .none
  · rw [if_pos h, eccActive_eq_false.2 h]
    rfl
  · rw [if_neg h, if_pos (by simpa using mt eccActive_eq_false.1 h)]

theorem eccDecoded_eq (c : Chip) (m : EccMode) (raw : Bool) (d : List Byte) (q : SectorResult) :
    eccDecoded c m raw d q = if raw = true ∨ m = .none then EccUnit.off else
      { work := .none, slot := some c, mode := m, check := heldCheck m d, zeroBits := zeroBits d, result := some q } := by
  unfold eccDecoded
  by_cases h : raw = true ∨ m = .none
  · rw [if_pos h, eccActive_eq_false.2 h]
    rfl
  · rw [if_neg h, if_pos (by simpa using mt eccActive_eq_false.1 h)]

/-- The column of a sector's first position, in bytes at width 8 and in words at width 16 (R120). -/
theorem Profile.column_eq (f : Profile) (sector : Nat) :
    f.column sector = sector * if f.width = 16 then 264 else 528 := by
  unfold Profile.column
  split <;> rfl

/-- The random data out of large pages (R121, R124). -/
theorem unloadingCycles_eq (f : Profile) (sector : Nat) (d : List Byte) :
    unloadingCycles f sector d = (if f.pageSize = 512 then []
      else [nandCmd 0x05] ++ nandAddress 2 (f.column sector) ++ [nandCmd 0xE0, .idle 8]) ++ dataOut f.width d := by
  unfold unloadingCycles Profile.columnCycles
  split <;> rfl

/-! ### Automatic retirement -/

/-- The block of a failed operation is listed already, takes its place, or finds the list full (R142). -/
theorem State.autoRetire_eq (s : State) (c : Chip) (b : Nat) :
    (b ∈ s.retired.get c → s.autoRetire c b = (s, none)) ∧
    (b ∉ s.retired.get c → (s.retired.get c).length < 32 →
      s.autoRetire c b = (s.addRetired c b, some (.blockRetired c b))) ∧
    (b ∉ s.retired.get c → 32 ≤ (s.retired.get c).length → s.autoRetire c b = (s, some (.retireFull c b))) := by
  unfold State.autoRetire
  refine ⟨fun hb => if_pos hb, fun hb hroom => ?_, fun hb hfull => ?_⟩
  · rw [if_neg hb, if_pos hroom]
  · rw [if_neg hb, if_neg (Nat.not_lt.2 hfull)]

/-! ### The ends -/

/-- The state after an unloading tenure but for the context: the sector's bytes are staged, and its result is recorded in the
entry and in the unit (R125, R148). -/
def State.sectorUnloaded (s : State) (c : Chip) (r : Ref) (e : Entry) (bytes : List Byte) : State :=
  let d := unloadSector (s.profile c).ecc e.raw (Config.beyondRange s.fresh) bytes
  let u := s.endTenure false (unloadingCycles (s.profile c) (e.firstSector + e.moved) bytes)
  (({ u with
      fresh := if d.2.2 then u.fresh + 1 else u.fresh
      ecc := eccDecoded c (s.profile c).ecc e.raw bytes d.1 } : State).stage e.segments (e.moved * 528) d.2.1).updateEntry
    r (fun e => e.unloaded d.1)

section
variable {s : State} {t : Tenure} {c : Chip} {r : Ref} {e : Entry} (ht : s.arbiter.tenure = some t)
  (hc : t.slot = .chip c) (hr : (s.context c).entry = some r) (he : s.find r = some e) (href : e.ref = r)
include ht hc hr he href

/-- An unloading tenure delivers its sector, and the last one completes the PG-READ (R125). -/
theorem State.unloadingEnd_of_entry (hx : t.purpose = .nandUnload) {bytes : List Byte} (hlen : bytes.length = 528) :
    s.unloadingEnd bytes =
      let v := (s.sectorUnloaded c r e bytes).setContext c { s.context c with left := (s.context c).left - 1 }
      let q := (unloadSector (s.profile c).ecc e.raw (Config.beyondRange s.fresh) bytes).1
      if (s.context c).left = 1 then v.endOperation c r (readStatus (e.sectors ++ [q]) (s.profile c).threshold) else v := by
  unfold State.unloadingEnd
  rw [State.nandTenure_of_tenure ht hc hx, dataBytes_of_length hlen]
  dsimp only
  rw [State.contextEntry_of_find hr he]
  dsimp only
  rw [href]
  rfl

/-- A status tenure completes the entry with what the status byte tells (R127, R142). -/
theorem State.statusEnd_of_entry (hx : t.purpose = .nandStatus) (b : Byte) :
    (b.getLsbD 0 = false → s.statusEnd b = (s.endTenure false (statusCycles b)).endOperation c r .ok) ∧
    (b.getLsbD 0 = true → ∀ u notice, (s.endTenure false (statusCycles b)).autoRetire c e.block = (u, notice) →
      s.statusEnd b = (u.endOperation c r .nandFail).postSome notice) := by
  unfold State.statusEnd
  rw [State.nandTenure_of_tenure ht hc hx]
  dsimp only
  rw [State.contextEntry_of_find hr he]
  dsimp only
  rw [href]
  refine ⟨fun hb => by rw [hb]; rfl, fun hb u notice hu => ?_⟩
  rw [hb, hu]
  rfl

/-- A read-ID tenure stages its 8 bytes and completes the entry with OK (R129). -/
theorem State.idEnd_of_entry (hx : t.purpose = .nandId) {bytes : List Byte} (hlen : bytes.length = 8) :
    s.idEnd bytes = ((s.stage e.segments 0 bytes).endTenure false (idCycles bytes)).endOperation c r .ok := by
  unfold State.idEnd
  rw [State.nandTenure_of_tenure ht hc hx, dataBytes_of_length hlen]
  dsimp only
  rw [State.contextEntry_of_find hr he]
  dsimp only
  rw [href]

end

/-- Settles O48: the cycles form by form, and the end of each tenure read off its operation's end (`endOperation`). -/
theorem nandOperationsEndWithTheirStatus : Obligations.NandOperationsEndWithTheirStatus := by
  refine ⟨?_, ?_⟩
  · intro f sector status d cmd out data column
    have hcolumn : f.column sector = column := f.column_eq sector
    have hdata : dataOut f.width d = data := map_dataCycles _ f.width d
    refine ⟨?_, rfl, rfl⟩
    rw [unloadingCycles_eq, hcolumn, hdata]
    rfl
  · intro s t c r e htable ht hc hr he f x ended
    have href : e.ref = r := htable.ref_of_find he
    refine ⟨?_, ?_, ?_⟩
    · intro hx bytes hlen decoded u v v'
      have hdecoded : unloadSector (s.profile c).ecc e.raw (Config.beyondRange s.fresh) bytes = decoded :=
        unloadSector_eq _ _ _ _
      have hv : s.sectorUnloaded c r e bytes = v := by
        rw [State.sectorUnloaded, hdecoded, eccDecoded_eq, State.endTenure_fresh]
        rfl
      have hend := State.unloadingEnd_of_entry ht hc hr he href hx hlen
      rw [hv, hdecoded] at hend
      exact ⟨fun hleft => next_settle_of_eq (hend.trans (if_neg hleft)),
        fun hleft => next_settle_of_eq (hend.trans (if_pos hleft))⟩
    · intro hx b u l
      obtain ⟨hok, hfail⟩ := State.statusEnd_of_entry ht hc hr he href hx b
      have hretired : u.retired.get c = l := by rw [State.endTenure_retired]
      obtain ⟨hlisted, hroom, hfull⟩ := u.autoRetire_eq c e.block
      rw [hretired] at hlisted hroom hfull
      have hadd : u.addRetired c e.block = u.setRetired c (insertAsc e.block l) := by rw [State.addRetired, hretired]
      rw [hadd] at hroom
      exact ⟨fun hb => next_settle_of_eq (hok hb), fun hb => ⟨fun hm => next_settle_of_eq (hfail hb _ _ (hlisted hm)),
        fun hm hlen => next_settle_of_eq (hfail hb _ _ (hroom hm hlen)),
        fun hm hlen => next_settle_of_eq (hfail hb _ _ (hfull hm hlen))⟩⟩
    · intro hx bytes hlen
      exact next_settle_of_eq (State.idEnd_of_entry ht hc hr he href hx hlen)

end Sys2Proof.Machine
end

section
/-! The reset tenure, the ready rise and the expiries of the busy timer (R131, R133–R135, R137). -/
namespace Sys2Proof.Machine

section
variable {s : State} {c : Chip}

/-! ### The reset tenure -/

/-- The context as a reset tenure arms its timer (R134, R137). -/
def Context.resetArmed (x : Context) (limit : Nat) : Context :=
  { x with resetIssued := true, timer := some ⟨limit, 0⟩, readySeen := false }

/-- A reset tenure arms the timer with the reset limit, and a line that is high then is a rise (R131, R134, R137). -/
theorem State.resetEnd_of_tenure {t : Tenure} (ht : s.arbiter.tenure = some t) (hx : t.purpose = .nandReset)
    (hc : t.slot = .chip c) (ready : Bool) :
    let v := ((s.endTenure true resetCycles).setReady c ready).setContext c
      ((s.context c).resetArmed (s.profile c).resetLimit)
    s.resetEnd ready = if ready then v.takeRise c else v := by
  intro v
  have hprofile : (s.endTenure true resetCycles).profile c = s.profile c := (State.Steady.endTenure s true _).profile c
  have hv : v = (((s.endTenure true resetCycles).setContext c { s.context c with resetIssued := true }).setReady c
      ready).setContext c ((s.context c).resetArmed (s.profile c).resetLimit) := by
    rw [State.setReady_setContext, State.setContext_setContext]
  unfold State.resetEnd State.arm
  rw [State.nandTenure_of_tenure ht hc hx]
  dsimp only
  rw [State.context_endTenure, hprofile, State.context_setReady, State.context_setContext, if_pos rfl, hv]
  rfl

/-! ### The ready rise -/

/-- What a rise that ends a recovery leaves does not hang on the context's other fields (R134). -/
theorem State.takeRise_setContext_recovering {x : Context} (h : x.state = .recovering) (hl : s.startup.load = none) :
    (s.setContext c x).takeRise c = (s.setContext c Context.idle).examine c := by
  rw [State.takeRise_recovering (s := s.setContext c x) (by simpa using h) hl, State.setContext_setContext]

/-- Of a clear that a rise ends only the deferred answer is read (R137). -/
theorem State.takeRise_setContext_clearing {x : Context} (h : x.state = .clearing) :
    (s.setContext c x).takeRise c =
      ((s.setHealth c .ok).setContext c Context.idle).deferredReply x.clearReply .slotClear .ok (clearBody c .ok) := by
  rw [State.takeRise_clearing (by simpa using h), State.endClear_setContext]

/-- With the timer stopped a rise changes the line's level alone (R131). -/
theorem State.readyRise_stopped (h : (s.context c).timer = none) : s.readyRise c = s.setReady c true := by
  unfold State.readyRise
  dsimp only
  rw [State.context_setReady, h]
  rfl

theorem State.readyRise_armed (h : (s.context c).timer ≠ none) : s.readyRise c = (s.setReady c true).takeRise c := by
  unfold State.readyRise
  dsimp only
  rw [State.context_setReady, if_pos (Option.isSome_iff_ne_none.2 h)]

/-! ### The expiries -/

/-- A busy period that runs out ends its entry and begins the recovery (R133). -/
theorem State.busyTimeout_busy {r : Ref} {op : NandOp} (hstate : (s.context c).state = .busy)
    (htimer : (s.context c).timer ≠ none) (hr : (s.context c).entry = some r) (hop : (s.context c).op = some op) :
    s.busyTimeout c = (((s.complete r .nandTimeout).setContext c (s.context c).recover).post r.port
      (.nandTimeout c r.tag op)) := by
  obtain ⟨timer, htimer⟩ := Option.ne_none_iff_exists'.1 htimer
  have hcontext : (s.complete r .nandTimeout).context c = s.context c := by
    rw [State.context, State.complete_nand, State.context]
  unfold State.busyTimeout
  dsimp only
  rw [hstate, htimer, hr, hop]
  dsimp only
  rw [hcontext]

theorem State.busyTimeout_none (h : (s.context c).state ≠ .busy ∨ (s.context c).timer = none) : s.busyTimeout c = s := by
  unfold State.busyTimeout
  dsimp only
  split
  · next hstate htimer _ _ =>
    rcases h with h | h
    · exact absurd hstate h
    · rw [h] at htimer
      cases htimer
  · rfl

/-- A reset that runs out stalls the slot and flushes it, outside the setup load (R135). -/
theorem State.recoveryExpiry_recovering (hl : s.startup.load = none) (hstate : (s.context c).state = .recovering)
    (htimer : (s.context c).timer ≠ none) :
    s.recoveryExpiry c =
      (((s.setHealth c .stalled).setContext c Context.idle).flush (.chip c)).postBoth (.slotStall c .nandReset) :=
  if_pos ⟨hstate, Option.isSome_iff_ne_none.2 htimer, by rw [Startup.loads, hl]; rfl⟩

theorem State.recoveryExpiry_none (h : (s.context c).state ≠ .recovering ∨ (s.context c).timer = none) :
    s.recoveryExpiry c = s := by
  refine if_neg fun ⟨hstate, htimer, _⟩ => ?_
  rcases h with h | h
  · exact h hstate
  · exact Option.isSome_iff_ne_none.1 htimer h

/-- A clear whose reset runs out ends with STILLBUSY (R137). -/
theorem State.clearExpiry_clearing (hstate : (s.context c).state = .clearing) (htimer : (s.context c).timer ≠ none) :
    s.clearExpiry c = s.endClear c .stalled .stillBusy := if_pos ⟨hstate, Option.isSome_iff_ne_none.2 htimer⟩

theorem State.clearExpiry_none (h : (s.context c).state ≠ .clearing ∨ (s.context c).timer = none) :
    s.clearExpiry c = s := by
  refine if_neg fun ⟨hstate, htimer⟩ => ?_
  rcases h with h | h
  · exact h hstate
  · exact Option.isSome_iff_ne_none.1 htimer h

end

/-- Settles O49: the reset tenure is an arming, a rise is taken by the context's phase, and each expiry acts in its own. -/
theorem resetsRisesAndExpiriesMoveTheContext : Obligations.ResetsRisesAndExpiriesMoveTheContext := by
  refine ⟨rfl, ?_⟩
  intro s c hl x line idled cleared
  refine ⟨fun t ht hx hc => ?_, fun htimer => next_settle_of_eq (State.readyRise_stopped htimer), fun htimer => ?_,
    fun h => next_settle_of_eq (State.busyTimeout_none h), fun h => next_settle_of_eq (State.recoveryExpiry_none h),
    fun h => next_settle_of_eq (State.clearExpiry_none h)⟩
  · have hlow := State.resetEnd_of_tenure ht hx hc false
    have hhigh := State.resetEnd_of_tenure ht hx hc true
    have hload : (s.endTenure true resetCycles).startup.load = none := by rw [State.endTenure_startup, hl]
    refine ⟨next_settle_of_eq hlow, fun hstate => next_settle_of_eq (hhigh.trans ?_),
      fun hstate => next_settle_of_eq (hhigh.trans ?_)⟩
    · rw [if_pos rfl]
      exact State.takeRise_setContext_recovering hstate hload
    · rw [if_pos rfl]
      exact State.takeRise_setContext_clearing hstate
  · have hrise := State.readyRise_armed htimer
    refine ⟨fun hstate => next_settle_of_eq (hrise.trans (State.takeRise_recovering hstate hl)),
      fun hstate => next_settle_of_eq (hrise.trans (State.takeRise_clearing hstate)),
      fun hstate => next_settle_of_eq (hrise.trans (State.takeRise_busy hstate)),
      fun r op hstate hr hop => next_settle_of_eq (State.busyTimeout_busy hstate htimer hr hop),
      fun hstate => next_settle_of_eq (State.recoveryExpiry_recovering hl hstate htimer),
      fun hstate => next_settle_of_eq (State.clearExpiry_clearing hstate htimer)⟩

end Sys2Proof.Machine
end

section
/-! Words as bytes and as bits, and what the search for the codeword nearest to a word read finds (R147). -/
namespace Sys2Proof.Machine

/-! ### Bytes from their bits -/

theorem byteOfBits_getLsbD : ∀ (bits : List Bool) {i : Nat}, i < 8 → (byteOfBits bits).getLsbD i = bits.getD i false
  | [], _, _ => by simp [byteOfBits]
  | b :: _, 0, _ => by cases b <;> simp [byteOfBits]
  | b :: bits, i + 1, h => by
    have hi : i < 8 := by omega
    have ih := byteOfBits_getLsbD bits hi
    cases b <;> simpa [byteOfBits, h, hi] using ih

theorem byteOfBits_bits (b : Byte) : byteOfBits ((List.range 8).map fun i => b.getLsbD i) = b :=
  BitVec.eq_of_getLsbD_eq fun i hi => by rw [byteOfBits_getLsbD _ hi]; simp [hi]

/-- The bits of some bytes read back as those bytes. -/
theorem bytesOf_bitsOf (l : List Byte) : bytesOf l.length (bitsOf l) = l := by
  induction l with
  | nil => rfl
  | cons b l ih =>
    have hlen : ((List.range 8).map fun i => b.getLsbD i).length = 8 := by simp
    rw [bitsOf, List.length_cons, bytesOf, List.take_left' hlen, List.drop_left' hlen, byteOfBits_bits, ih]

/-- As many bytes as a whole number of bits fills have those bits. -/
theorem bitsOf_bytesOf {n : Nat} {bits : List Bool} (h : bits.length = 8 * n) :
    (bytesOf n bits).length = n ∧ bitsOf (bytesOf n bits) = bits := by
  obtain ⟨l, rfl, rfl⟩ := bitsOf_surjective n bits h
  rw [bytesOf_bitsOf]
  exact ⟨rfl, rfl⟩

/-! ### Words at a distance -/

theorem mem_flips {k : Nat} {w x : List Bool} :
    x ∈ flips k w ↔ x.length = w.length ∧ (w.zip x).countP (fun p => p.1 != p.2) = k := by
  induction w generalizing k x with
  | nil => cases k <;> simp [flips]
  | cons b w ih =>
    cases x with
    | nil => cases k <;> simp [flips]
    | cons a x =>
      have hzero : x = w ↔ x.length = w.length ∧ (w.zip x).countP (fun p => p.1 != p.2) = 0 := by
        rw [← ih, flips, List.mem_singleton]
      cases k with
      | zero => cases a <;> cases b <;> simp [flips, hzero]
      | succ k => cases a <;> cases b <;> simp [flips, ih]

theorem bitDistance_self (x : List Byte) : bitDistance x x = 0 :=
  (mem_flips.1 (show bitsOf x ∈ flips 0 (bitsOf x) by simp [flips])).2

/-- The words that the search for a codeword tries at distance `k`, cut into message and check bytes. -/
def wordsAt (k : Nat) (msg check : List Byte) : List (List Byte × List Byte) :=
  (flips k (bitsOf (msg ++ check))).map fun bits =>
    let word := bytesOf (msg.length + check.length) bits
    (word.take msg.length, word.drop msg.length)

theorem codewordAt_eq (m : EccMode) (k : Nat) (msg check : List Byte) :
    codewordAt m k msg check = (wordsAt k msg check).find? (isCodeword m) := rfl

theorem mem_wordsAt {k : Nat} {msg check x c : List Byte} :
    (x, c) ∈ wordsAt k msg check ↔
      x.length = msg.length ∧ c.length = check.length ∧ bitDistance (msg ++ check) (x ++ c) = k := by
  have hbits : (bitsOf (msg ++ check)).length = 8 * (msg.length + check.length) := by
    rw [bitsOf_length, List.length_append]
  simp only [wordsAt, List.mem_map, Prod.mk.injEq]
  constructor
  · rintro ⟨bits, hmem, rfl, rfl⟩
    obtain ⟨hlen, hcount⟩ := mem_flips.1 hmem
    obtain ⟨hbytes, hback⟩ := bitsOf_bytesOf (hlen.trans hbits)
    refine ⟨by rw [List.length_take, hbytes]; omega, by rw [List.length_drop, hbytes]; omega, ?_⟩
    rw [List.take_append_drop, bitDistance, hback, hcount]
  · rintro ⟨hx, hc, hdist⟩
    have hword : msg.length + check.length = (x ++ c).length := by rw [List.length_append, hx, hc]
    refine ⟨bitsOf (x ++ c), mem_flips.2 ⟨by rw [hbits, bitsOf_length, hword], hdist⟩, ?_⟩
    rw [hword, bytesOf_bitsOf]
    exact ⟨List.take_left' hx, List.drop_left' hx⟩

/-! ### The nearest codeword -/

section
variable {m : EccMode} {msg check : List Byte}

/-- In how many bits a word read, cut into message and check bytes, differs from the codeword of a message. -/
def bitErrors (m : EccMode) (msg check x : List Byte) : Nat := bitDistance (msg ++ check) (x ++ checkBytes m x)

theorem codewordAt_eq_none {k : Nat} (h : codewordAt m k msg check = none) (hc : check.length = (checkSpare m).length)
    {x : List Byte} (hx : x.length = msg.length) : bitErrors m msg check x ≠ k := by
  intro hk
  have hmem := mem_wordsAt.2 ⟨hx, (checkBytes_length m x).trans hc.symm, hk⟩
  simpa [isCodeword] using List.find?_eq_none.1 ((codewordAt_eq ..).symm.trans h) _ hmem

theorem codewordAt_eq_some {k : Nat} {w : List Byte × List Byte} (h : codewordAt m k msg check = some w) :
    w.1.length = msg.length ∧ bitErrors m msg check w.1 = k ∧ w.2 = checkBytes m w.1 := by
  rw [codewordAt_eq] at h
  have hcode : checkBytes m w.1 = w.2 := by simpa [isCodeword] using List.find?_some h
  obtain ⟨hx, -, hdist⟩ := mem_wordsAt.1 (List.mem_of_find?_eq_some h)
  exact ⟨hx, by rw [bitErrors, hcode, hdist], hcode.symm⟩

/-- The search from distance `k` on, with no codeword nearer, finds none within its range or a nearest one. -/
theorem nearest_cases (hc : check.length = (checkSpare m).length) {k n : Nat}
    (hk : ∀ x : List Byte, x.length = msg.length → k ≤ bitErrors m msg check x) :
    (nearest m msg check k n = none ∧ ∀ x : List Byte, x.length = msg.length → k + n < bitErrors m msg check x) ∨
      ∃ x : List Byte, x.length = msg.length ∧ bitErrors m msg check x ≤ k + n ∧
        nearest m msg check k n = some (bitErrors m msg check x, (x, checkBytes m x)) ∧
        ∀ y : List Byte, y.length = msg.length → bitErrors m msg check x ≤ bitErrors m msg check y := by
  cases hat : codewordAt m k msg check with
  | some w =>
    obtain ⟨x, c⟩ := w
    obtain ⟨hx, hdist, hcode⟩ := codewordAt_eq_some hat
    simp only at hx hdist hcode
    refine .inr ⟨x, hx, by omega, ?_, fun y hy => hdist.symm ▸ hk y hy⟩
    cases n <;> simp [nearest, hat, hdist, hcode]
  | none =>
    have hfar : ∀ x : List Byte, x.length = msg.length → k + 1 ≤ bitErrors m msg check x := fun x hx =>
      Nat.lt_of_le_of_ne (hk x hx) (codewordAt_eq_none hat hc hx).symm
    cases n with
    | zero => exact .inl ⟨by simp [nearest, hat], hfar⟩
    | succ n =>
      have hstep : nearest m msg check k (n + 1) = nearest m msg check (k + 1) n := by rw [nearest, hat]
      rw [hstep, show k + (n + 1) = k + 1 + n by omega]
      exact nearest_cases hc hfar

/-- Two codewords of H1 or B8 differ in 2 t + 2 bits or more, so that Correction of t and Detection of t + 1 hold (R147). -/
theorem codewords_apart (hm : m ≠ .none) {x y : List Byte} (hx : x.length = 512 + (coveredSpare m).length)
    (hy : y.length = 512 + (coveredSpare m).length) (h : x ≠ y) :
    2 * m.t + 2 ≤ bitDistance (x ++ checkBytes m x) (y ++ checkBytes m y) := by
  cases m with
  | none => exact absurd rfl hm
  | h1 => exact h1_apart hx hy h
  | b8 => exact b8_apart hx hy h

/-- Of two codewords close enough to a word read, together within 2 t + 1 bits, both are the same (R147). -/
theorem eq_of_bitErrors_le (hm : m ≠ .none) (hmsg : msg.length = 512 + (coveredSpare m).length)
    (hc : check.length = (checkSpare m).length) {x y : List Byte} (hx : x.length = msg.length) (hy : y.length = msg.length)
    (h : bitErrors m msg check x + bitErrors m msg check y ≤ 2 * m.t + 1) : x = y := by
  by_contra hne
  have hword : ∀ z : List Byte, z.length = msg.length → (z ++ checkBytes m z).length = (msg ++ check).length :=
    fun z hz => by rw [List.length_append, List.length_append, hz, hc, checkBytes_length]
  have hsum := bitDistance_triangle (hword x hx) (hword y hy).symm
  have hfar := codewords_apart hm (hx.trans hmsg) (hy.trans hmsg) hne
  rw [bitDistance_comm _ (msg ++ check)] at hsum
  unfold bitErrors at h
  omega

end

end Sys2Proof.Machine
end

section
/-! Where a sector holds its protected message, its check bytes and its mark byte, as loaded (R149) and as corrected
(R151). -/
namespace Sys2Proof.Machine

/-! ### Data bytes and spare bytes -/

theorem fitTo_eq_take {n : Nat} {d : List Byte} (h : n ≤ d.length) : fitTo n d = d.take n :=
  List.ext_getElem (by simp [fitTo, h]) fun i hi _ => by
    have hd : i < d.length := Nat.lt_of_lt_of_le (by simpa [fitTo] using hi) h
    simp [fitTo, hd]

theorem getElem?_eq_at8 {l : List Byte} {i : Nat} (h : i < l.length) : l[i]? = some (at8 l i) := by simp [at8, h]

/-- The bytes of a sector at some spare positions, when each is the byte of its number in a list. -/
theorem map_spare_eq {l : List Nat} {d : List Byte} (f : Nat → Byte) (hlen : d.length = l.length)
    (h : ∀ j (hj : j < l.length), f l[j] = d.getD j 0) : l.map f = d :=
  List.ext_getElem (by simp [hlen]) fun j hj hj' => by simpa [hj'] using h j (by simpa using hj)

section
variable {front : List Byte} (f : Nat → Byte)

theorem length_dataAndSpare (h : front.length = 512) : (front ++ (List.range 16).map f).length = 528 := by simp [h]

theorem at8_dataAndSpare (h : front.length = 512) {i : Nat} (hi : i < 16) :
    at8 (front ++ (List.range 16).map f) (512 + i) = f i := by simp [at8, ← h, hi]

end

/-! ### The places of a mode (R146) -/

theorem coveredSpare_places (m : EccMode) : ∀ i ∈ coveredSpare m, i < 16 := by
  cases m <;> decide

theorem checkSpare_places (m : EccMode) : ∀ i ∈ checkSpare m, i < 16 := by
  cases m <;> decide

/-- No check byte is protected by itself (R146). -/
theorem notMem_checkSpare_of_covered (m : EccMode) : ∀ i ∈ coveredSpare m, i ∉ checkSpare m := by
  cases m <;> decide

/-- The mark byte is neither covered nor a check byte (R146). -/
theorem mark_notMem (m : EccMode) : 0 ∉ coveredSpare m ∧ 0 ∉ checkSpare m := by
  cases m <;> decide

theorem coveredSpare_findIdx? (m : EccMode) :
    ∀ j (hj : j < (coveredSpare m).length), (coveredSpare m).findIdx? (· == (coveredSpare m)[j]) = some j := by
  cases m <;> decide

theorem checkSpare_findIdx? (m : EccMode) :
    ∀ j (hj : j < (checkSpare m).length), (checkSpare m).findIdx? (· == (checkSpare m)[j]) = some j := by
  cases m <;> decide

/-- The spare bytes of the host under a code hold no check byte (R146). -/
theorem hostSpare_places {m : EccMode} (hm : m ≠ .none) : ∀ i ∈ hostSpare m, i < 16 ∧ i ∉ checkSpare m := by
  cases m with
  | none => exact absurd rfl hm
  | h1 | b8 => decide

theorem hostSpare_coded {m : EccMode} (hm : m ≠ .none) :
    hostSpare m = if m = .h1 then [0, 1, 5, 6, 7, 8, 9, 10, 11, 12, 13, 14, 15] else [0, 1] := by
  cases m with
  | none => exact absurd rfl hm
  | h1 | b8 => rfl

theorem findIdx?_eq_none_of_notMem {l : List Nat} {i : Nat} (h : i ∉ l) : l.findIdx? (· == i) = none :=
  List.findIdx?_eq_none_iff.2 fun _ hx => beq_false_of_ne (ne_of_mem_of_not_mem hx h)

theorem protectedMessage_length (m : EccMode) (sector : List Byte) :
    (protectedMessage m sector).length = 512 + (coveredSpare m).length := by simp [protectedMessage, fitTo]

theorem heldCheck_length (m : EccMode) (sector : List Byte) : (heldCheck m sector).length = (checkSpare m).length := by
  simp [heldCheck]

/-! ### A sector as loaded -/

section
variable {m : EccMode} {sector : List Byte}

theorem eccActive_iff {raw : Bool} : eccActive m raw = true ↔ raw = false ∧ m ≠ .none := by
  simp [eccActive]

/-- A spare byte of a sector as loaded under a code: a check byte or the byte supplied (R149, R150). -/
def loadedSpare (m : EccMode) (sector : List Byte) (i : Nat) : Byte :=
  match (checkSpare m).findIdx? (· == i) with
  | some j => (checkBytes m (protectedMessage m sector)).getD j 0
  | none => at8 sector (512 + i)

theorem loadSector_eq (hm : m ≠ .none) (hlen : sector.length = 528) :
    loadSector m false sector = sector.take 512 ++ (List.range 16).map (loadedSpare m sector) := by
  rw [loadSector, if_pos (eccActive_iff.2 ⟨rfl, hm⟩), fitTo_eq_take (by omega)]
  rfl

theorem loadSector_length (hm : m ≠ .none) (hlen : sector.length = 528) : (loadSector m false sector).length = 528 := by
  rw [loadSector_eq hm hlen]
  exact length_dataAndSpare _ (by rw [List.length_take, hlen]; decide)

theorem loadSector_take (hm : m ≠ .none) (hlen : sector.length = 528) :
    (loadSector m false sector).take 512 = sector.take 512 := by
  rw [loadSector_eq hm hlen]
  exact List.take_left' (by simp [hlen])

theorem at8_loadSector (hm : m ≠ .none) (hlen : sector.length = 528) {i : Nat} (hi : i < 16) :
    at8 (loadSector m false sector) (512 + i) = loadedSpare m sector i := by
  rw [loadSector_eq hm hlen]
  exact at8_dataAndSpare _ (by simp [hlen]) hi

/-- A spare byte that holds no check byte is loaded as supplied (R149). -/
theorem at8_loadSector_host (hm : m ≠ .none) (hlen : sector.length = 528) {i : Nat} (hi : i < 16)
    (hcheck : i ∉ checkSpare m) : at8 (loadSector m false sector) (512 + i) = at8 sector (512 + i) := by
  rw [at8_loadSector hm hlen hi, loadedSpare, findIdx?_eq_none_of_notMem hcheck]

theorem protectedMessage_loadSector (hm : m ≠ .none) (hlen : sector.length = 528) :
    protectedMessage m (loadSector m false sector) = protectedMessage m sector := by
  unfold protectedMessage
  refine congrArg₂ (· ++ ·) ?_ ?_
  · rw [fitTo_eq_take (by rw [loadSector_length hm hlen]; decide), loadSector_take hm hlen, fitTo_eq_take (by omega)]
  · refine List.map_congr_left fun i hi => ?_
    exact at8_loadSector_host hm hlen (coveredSpare_places m i hi) (notMem_checkSpare_of_covered m i hi)

theorem heldCheck_loadSector (hm : m ≠ .none) (hlen : sector.length = 528) :
    heldCheck m (loadSector m false sector) = checkBytes m (protectedMessage m sector) := by
  refine map_spare_eq _ (checkBytes_length ..) fun j hj => ?_
  rw [at8_loadSector hm hlen (checkSpare_places m _ (List.getElem_mem hj)), loadedSpare, checkSpare_findIdx? m j hj]

/-! ### A codeword put into a sector -/

/-- A spare byte of a sector with a codeword in its places: a byte of the message, a check byte or the byte read. -/
def correctedSpare (m : EccMode) (sector : List Byte) (word : List Byte × List Byte) (i : Nat) : Byte :=
  match (coveredSpare m).findIdx? (· == i), (checkSpare m).findIdx? (· == i) with
  | some j, _ => word.1.getD (512 + j) 0
  | none, some j => word.2.getD j 0
  | none, none => at8 sector (512 + i)

theorem putCodeword_eq (m : EccMode) (sector : List Byte) (word : List Byte × List Byte) :
    putCodeword m sector word = word.1.take 512 ++ (List.range 16).map (correctedSpare m sector word) := rfl

/-- A sector with a codeword in its places is as long as a sector, holds the codeword and keeps the mark byte (R151). -/
theorem putCodeword_delivers (hlen : sector.length = 528) {msg : List Byte}
    (hmsg : msg.length = 512 + (coveredSpare m).length) :
    let y := putCodeword m sector (msg, checkBytes m msg)
    y.length = 528 ∧ y.take 512 = msg.take 512 ∧ y[512]? = sector[512]? ∧ protectedMessage m y = msg ∧
      heldCheck m y = checkBytes m msg := by
  rw [putCodeword_eq]
  intro y
  have hfront : (msg.take 512).length = 512 := by simp [hmsg]
  have hylen : y.length = 528 := length_dataAndSpare _ hfront
  have htake : y.take 512 = msg.take 512 := List.take_left' hfront
  have hspare : ∀ i < 16, at8 y (512 + i) = correctedSpare m sector (msg, checkBytes m msg) i :=
    fun i hi => at8_dataAndSpare _ hfront hi
  have hmark : at8 y 512 = at8 sector 512 := by
    obtain ⟨hcovered, hcheck⟩ := mark_notMem m
    rw [hspare 0 (by decide), correctedSpare, findIdx?_eq_none_of_notMem hcovered, findIdx?_eq_none_of_notMem hcheck]
  have hcovered : (coveredSpare m).map (fun i => at8 y (512 + i)) = msg.drop 512 := by
    refine map_spare_eq _ (by simp [hmsg]) fun j hj => ?_
    rw [hspare _ (coveredSpare_places m _ (List.getElem_mem hj)), correctedSpare, coveredSpare_findIdx? m j hj]
    simp
  refine ⟨hylen, htake, ?_, ?_, map_spare_eq _ (checkBytes_length ..) fun j hj => ?_⟩
  · rw [getElem?_eq_at8 (by omega), getElem?_eq_at8 (by omega), hmark]
  · rw [protectedMessage, fitTo_eq_take (by omega), htake, hcovered, List.take_append_drop]
  · have hmem := List.getElem_mem hj
    have hnot := fun h => notMem_checkSpare_of_covered m _ h hmem
    rw [hspare _ (checkSpare_places m _ hmem), correctedSpare, findIdx?_eq_none_of_notMem hnot, checkSpare_findIdx? m j hj]

end

end Sys2Proof.Machine
end

section
/-! The outcome of a sector's decode by its distance to the codewords (R151, R152), and the status of a PG-READ (R154). -/
namespace Sys2Proof.Machine

section
variable {m : EccMode} {sector : List Byte}

/-- In how many bits a sector differs from the codeword of a message (R147). -/
def sectorErrors (m : EccMode) (sector x : List Byte) : Nat :=
  bitErrors m (protectedMessage m sector) (heldCheck m sector) x

theorem eq_of_sectorErrors_le (hm : m ≠ .none) {x y : List Byte} (hx : x.length = 512 + (coveredSpare m).length)
    (hy : y.length = 512 + (coveredSpare m).length)
    (h : sectorErrors m sector x + sectorErrors m sector y ≤ 2 * m.t + 1) : x = y :=
  have hmsg := protectedMessage_length m sector
  eq_of_bitErrors_le hm hmsg (heldCheck_length m sector) (hx.trans hmsg.symm) (hy.trans hmsg.symm) h

theorem EccMode.t_lt_d (hm : m ≠ .none) : m.t < m.d := by
  cases m with
  | none => exact absurd rfl hm
  | h1 | b8 => decide

/-! ### The decode of a sector -/

/-- What a sector decodes to when the codeword of a message is the nearest and within the detection range (R151). -/
def nearestOutcome (m : EccMode) (sector x : List Byte) : SectorResult × List Byte × Bool :=
  if sectorErrors m sector x = 0 then (.clean, sector, false)
  else if sectorErrors m sector x ≤ m.t then
    (.corrected (sectorErrors m sector x), putCodeword m sector (x, checkBytes m x), false)
  else (.failed, sector, false)

theorem nearestOutcome_used (m : EccMode) (sector x : List Byte) : (nearestOutcome m sector x).2.2 = false := by
  unfold nearestOutcome
  split_ifs <;> rfl

theorem decodeSector_erased (h : zeroBits sector ≤ m.t) (choice : Option (Nat × List Byte)) :
    decodeSector m choice sector = (.erased, erasedSector sector, false) := if_pos h

/-- A sector that is not erased decodes by the nearest codeword, or by the free choice when every codeword is beyond the
detection range (R151, R152). -/
theorem decodeSector_cases (hz : m.t < zeroBits sector) :
    ((∀ x : List Byte, x.length = 512 + (coveredSpare m).length → m.d < sectorErrors m sector x) ∧
      ∀ choice, decodeSector m choice sector =
        ((beyondRange m choice sector).1, (beyondRange m choice sector).2, true)) ∨
    ∃ x : List Byte, x.length = 512 + (coveredSpare m).length ∧ sectorErrors m sector x ≤ m.d ∧
      (∀ y : List Byte, y.length = 512 + (coveredSpare m).length → sectorErrors m sector x ≤ sectorErrors m sector y) ∧
      ∀ choice, decodeSector m choice sector = nearestOutcome m sector x := by
  rw [← protectedMessage_length m sector]
  obtain ⟨hnone, hfar⟩ | ⟨x, hx, hd, hsome, hmin⟩ := nearest_cases (m := m) (n := m.d) (heldCheck_length m sector)
    fun x (_ : x.length = (protectedMessage m sector).length) => Nat.zero_le _
  · refine .inl ⟨by simpa [sectorErrors] using hfar, fun choice => ?_⟩
    rw [decodeSector, if_neg (Nat.not_le.2 hz), hnone]
  · refine .inr ⟨x, hx, by simpa [sectorErrors] using hd, hmin, fun choice => ?_⟩
    rw [decodeSector, if_neg (Nat.not_le.2 hz), hsome, nearestOutcome, sectorErrors]
    cases bitErrors m (protectedMessage m sector) (heldCheck m sector) x <;> rfl

/-- A codeword reads back CLEAN (R151). -/
theorem decodeSector_clean (hz : m.t < zeroBits sector)
    (hcode : heldCheck m sector = checkBytes m (protectedMessage m sector)) (choice : Option (Nat × List Byte)) :
    decodeSector m choice sector = (.clean, sector, false) := by
  have hself : sectorErrors m sector (protectedMessage m sector) = 0 := by
    rw [sectorErrors, bitErrors, hcode, bitDistance_self]
  have hlen := protectedMessage_length m sector
  obtain ⟨hfar, -⟩ | ⟨x, -, -, hmin, hout⟩ := decodeSector_cases hz
  · have := hfar _ hlen
    omega
  · have := hmin _ hlen
    rw [hout, nearestOutcome, if_pos (by omega)]

/-- A sector from 1 to t bits away from a codeword is corrected to it (R151). -/
theorem decodeSector_corrected (hm : m ≠ .none) (hz : m.t < zeroBits sector) {x : List Byte}
    (hx : x.length = 512 + (coveredSpare m).length) (hpos : 1 ≤ sectorErrors m sector x)
    (ht : sectorErrors m sector x ≤ m.t) (choice : Option (Nat × List Byte)) :
    decodeSector m choice sector =
      (.corrected (sectorErrors m sector x), putCodeword m sector (x, checkBytes m x), false) := by
  have hrange := EccMode.t_lt_d hm
  obtain ⟨hfar, -⟩ | ⟨y, hy, -, hmin, hout⟩ := decodeSector_cases hz
  · have := hfar x hx
    omega
  · have hnear := hmin x hx
    obtain rfl : x = y := eq_of_sectorErrors_le (sector := sector) hm hx hy (by omega)
    rw [hout, nearestOutcome, if_neg (by omega), if_pos ht]

/-- A sector more than t bits away from every codeword, and at most d from one, is FAILED (R151). -/
theorem decodeSector_failed (hz : m.t < zeroBits sector)
    (hfar : ∀ x : List Byte, x.length = 512 + (coveredSpare m).length → m.t < sectorErrors m sector x)
    (hin : ∃ x : List Byte, x.length = 512 + (coveredSpare m).length ∧ sectorErrors m sector x ≤ m.d)
    (choice : Option (Nat × List Byte)) : decodeSector m choice sector = (.failed, sector, false) := by
  obtain ⟨x, hx, hd⟩ := hin
  obtain ⟨hbeyond, -⟩ | ⟨y, hy, -, -, hout⟩ := decodeSector_cases hz
  · have := hbeyond x hx
    omega
  · have := hfar y hy
    rw [hout, nearestOutcome, if_neg (by omega), if_neg (by omega)]

/-- A sector t + 1 bits away from a codeword is more than t bits away from every codeword (R147). -/
theorem t_lt_sectorErrors (hm : m ≠ .none) {x y : List Byte} (hx : x.length = 512 + (coveredSpare m).length)
    (hy : y.length = 512 + (coveredSpare m).length) (h : sectorErrors m sector x = m.t + 1) :
    m.t < sectorErrors m sector y := by
  by_contra hle
  obtain rfl : x = y := eq_of_sectorErrors_le (sector := sector) hm hx hy (by omega)
  omega

/-- The free choice is used exactly when every codeword is beyond the detection range (R152). -/
theorem decodeSector_used_iff (hz : m.t < zeroBits sector) (choice : Option (Nat × List Byte)) :
    (decodeSector m choice sector).2.2 = true ↔
      ∀ x : List Byte, x.length = 512 + (coveredSpare m).length → m.d < sectorErrors m sector x := by
  obtain ⟨hfar, hout⟩ | ⟨x, hx, hd, -, hout⟩ := decodeSector_cases hz
  · exact iff_of_true (by rw [hout]) hfar
  · refine iff_of_false (by rw [hout, nearestOutcome_used]; decide) fun hfar => ?_
    have := hfar x hx
    omega

/-- The free choice decides where it is used, and nothing elsewhere (R152). -/
theorem decodeSector_choice (hz : m.t < zeroBits sector) (choice : Option (Nat × List Byte)) :
    decodeSector m choice sector = if (decodeSector m none sector).2.2
      then ((beyondRange m choice sector).1, (beyondRange m choice sector).2, true)
      else decodeSector m none sector := by
  obtain ⟨-, hout⟩ | ⟨x, -, -, -, hout⟩ := decodeSector_cases hz
  · rw [hout choice, if_pos (by rw [hout])]
  · rw [if_neg (by rw [hout, nearestOutcome_used]; decide), hout, hout]

/-- The free choice of a codeword is CORRECTED with it (R152). -/
theorem beyondRange_some (sector : List Byte) (k : Nat) {msg : List Byte}
    (hmsg : msg.length = 512 + (coveredSpare m).length) :
    beyondRange m (some (k, msg)) sector =
      (.corrected (1 + k % m.t), putCodeword m sector (msg, checkBytes m msg)) := by
  have hfit : fitTo (512 + (coveredSpare m).length) msg = msg := by rw [fitTo_eq_take hmsg.ge, ← hmsg, List.take_length]
  rw [beyondRange, hfit]

theorem one_add_mod_t_le (hm : m ≠ .none) (k : Nat) : 1 + k % m.t ≤ m.t := by
  have hpos : 0 < m.t := by
    cases m with
    | none => exact absurd rfl hm
    | h1 | b8 => decide
  have := Nat.mod_lt k hpos
  omega

end

/-! ### The status of a PG-READ -/

section
variable {results : List SectorResult} {threshold : Nat}

theorem readStatus_failed (h : SectorResult.failed ∈ results) : readStatus results threshold = .eccFail :=
  if_pos (List.any_eq_true.2 ⟨_, h, rfl⟩)

theorem readStatus_high (h : SectorResult.failed ∉ results)
    (hhigh : ∃ k, SectorResult.corrected k ∈ results ∧ threshold ≤ k) :
    readStatus results threshold = .correctedHigh := by
  obtain ⟨k, hk, hle⟩ := hhigh
  rw [readStatus, if_neg (by simpa using h), if_pos (List.any_eq_true.2 ⟨_, hk, decide_eq_true hle⟩)]

theorem readStatus_ok (h : SectorResult.failed ∉ results)
    (hlow : ∀ k, SectorResult.corrected k ∈ results → k < threshold) : readStatus results threshold = .ok := by
  rw [readStatus, if_neg (by simpa using h), if_neg]
  rw [List.any_eq_true]
  rintro ⟨r, hr, htest⟩
  cases r with
  | corrected k => exact absurd (of_decide_eq_true htest) (Nat.not_le.2 (hlow k hr))
  | clean | erased | failed => cases htest

end

/-! ### The obligation -/

/-- Settles O50: the check bytes put in at loading make the sector a codeword, and every other outcome follows from the
distance to the nearest codeword, of which there is one within t bits at most. -/
theorem encodedSectorsReadBackClean : Obligations.EncodedSectorsReadBackClean := by
  refine ⟨fun m sector choice hlen hm => ?_, fun m sector choice _ _ hz => decodeSector_erased hz choice,
    fun m sector choice hlen hm hz => ?_, fun m raw sector choice h => ?_,
    fun results threshold => ⟨readStatus_failed, readStatus_high, readStatus_ok⟩⟩
  · refine ⟨loadSector_length hm hlen, loadSector_take hm hlen, fun i hi => ?_, fun hz => ?_, fun hz => ?_⟩
    · obtain ⟨hlt, hcheck⟩ := hostSpare_places hm i ((hostSpare_coded hm).symm ▸ hi)
      rw [getElem?_eq_at8 (by rw [loadSector_length hm hlen]; omega), getElem?_eq_at8 (by omega),
        at8_loadSector_host hm hlen hlt hcheck]
    · exact decodeSector_clean hz (by rw [heldCheck_loadSector hm hlen, protectedMessage_loadSector hm hlen]) choice
    · have hmark : at8 (loadSector m false sector) 512 = at8 sector 512 :=
        at8_loadSector_host hm hlen (i := 0) (by decide) (mark_notMem m).2
      rw [decodeSector_erased hz, erasedSector, hmark]
  · refine ⟨fun msg hmsg hpos ht =>
        ⟨_, decodeSector_corrected hm hz hmsg hpos ht choice, putCodeword_delivers hlen hmsg⟩,
      fun hfar hin => decodeSector_failed hz hfar hin choice,
      fun msg hmsg hnext => decodeSector_failed hz (fun x hx => t_lt_sectorErrors hm hmsg hx hnext)
        ⟨msg, hmsg, hnext.trans_le (EccMode.t_lt_d hm)⟩ choice,
      decodeSector_used_iff hz none, decodeSector_choice hz choice, rfl, fun k msg hmsg =>
        ⟨_, one_add_mod_t_le hm k, beyondRange_some sector k hmsg, putCodeword_delivers hlen hmsg⟩⟩
  · have hoff : ¬ eccActive m raw = true := fun hactive => by
      obtain ⟨hraw, hm⟩ := eccActive_iff.1 hactive
      exact h.elim hm (ne_true_of_eq_false hraw)
    exact ⟨if_neg hoff, if_neg hoff⟩

end Sys2Proof.Machine
end

section
/-! A post and the delivery that follows it (R157, R159): which notice is discarded, numbered, queued, moved or lost. -/
namespace Sys2Proof.Machine

variable {s : State} {p : Port}

/-! ### Delivery (R159) -/

/-- The NOTICES-LOST that goes ahead of the next notice: none when no notice was lost (R159). -/
def NoticeState.lostItem (n : NoticeState) : List Item :=
  if n.lost = 0 then [] else [.notice n.lastLost (.noticesLost n.lost)]

/-- With a NOTICE on the ready list none moves. -/
theorem State.moveNotice_of_listed (h : 0 < (s.notices.get p).onList) : s.moveNotice p = s := by
  unfold State.moveNotice
  dsimp only
  split
  · next hlist _ => exact absurd hlist h.ne'
  · rfl

theorem State.moveNotice_of_down (h : (s.port p).state = .down) : s.moveNotice p = s := by
  unfold State.moveNotice
  simp only [h]

theorem State.moveNotice_of_empty (h : (s.notices.get p).queue = []) : s.moveNotice p = s := by
  unfold State.moveNotice
  dsimp only
  split
  · next hq => simp [h] at hq
  · rfl

/-- On an UP port with no NOTICE on its ready list the oldest queued notice moves to its tail, behind a NOTICES-LOST when
some were lost. -/
theorem State.moveNotice_of_unlisted (hup : (s.port p).state = .up) (hlist : (s.notices.get p).onList = 0)
    {number : BitVec 16} {x : Notice} {rest : List (BitVec 16 × Notice)}
    (hq : (s.notices.get p).queue = (number, x) :: rest) :
    s.moveNotice p = { s with
      ports := s.ports.set p { s.port p with
        ready := (s.port p).ready ++ ((s.notices.get p).lostItem ++ [.notice number x]) }
      notices := s.notices.set p { s.notices.get p with
        queue := rest, lost := 0, onList := (s.notices.get p).lostItem.length + 1 } } := by
  unfold State.moveNotice
  simp only [hup, hlist, hq, NoticeState.lostItem, List.length_append, List.length_singleton]
  rfl

/-! ### The three rows of a post (R157) -/

/-- The notice joins the queue under the port's next number, which advances. -/
def NoticeState.enqueue (n : NoticeState) (x : Notice) : NoticeState :=
  { n with queue := n.queue ++ [(n.next, x)], next := n.next + 1 }

/-- The notice is lost with its number. -/
def NoticeState.lose (n : NoticeState) : NoticeState :=
  { n with next := n.next + 1, lost := countUp n.lost, lastLost := n.next }

/-- A change of one port's notice state. -/
def State.setNotices (s : State) (p : Port) (n : NoticeState) : State := { s with notices := s.notices.set p n }

@[simp] theorem State.notices_setNotices (s : State) (p q : Port) (n : NoticeState) :
    (s.setNotices p n).notices.get q = if q = p then n else s.notices.get q := ByPort.get_set _ _ _ _

@[simp] theorem State.port_setNotices (s : State) (p q : Port) (n : NoticeState) : (s.setNotices p n).port q = s.port q := rfl

theorem State.post_of_down (x : Notice) (h : (s.port p).state = .down) : s.post p x = s := by
  unfold State.post
  simp only [h]

theorem State.post_of_full (x : Notice) (h : (s.port p).state = .up) (hfull : 8 ≤ (s.notices.get p).queue.length) :
    s.post p x = s.setNotices p (s.notices.get p).lose := by
  unfold State.post
  simp only [h, Nat.not_lt.2 hfull, if_false]
  rfl

theorem State.post_of_room (x : Notice) (h : (s.port p).state = .up) (hroom : (s.notices.get p).queue.length < 8) :
    s.post p x = (s.setNotices p ((s.notices.get p).enqueue x)).moveNotice p := by
  unfold State.post
  simp only [h, hroom, if_true]
  rfl

/-- Settles O15: the rows of R157 one by one, and where the notice is queued the delivery of R159. -/
theorem postIsDiscardedNumberedOrLost : Obligations.PostIsDiscardedNumberedOrLost := by
  intro s p x
  refine ⟨State.post_of_down x, State.post_of_full x, fun hup hroom => ⟨fun hlisted => ?_, ?_⟩⟩
  · rw [State.post_of_room x hup hroom, State.moveNotice_of_listed (by simpa [NoticeState.enqueue] using hlisted)]
    rfl
  · intro hlist number first rest hq
    rw [State.post_of_room x hup hroom, State.moveNotice_of_unlisted (s := s.setNotices p _) hup
      (by simpa [NoticeState.enqueue] using hlist) (by simpa [NoticeState.enqueue] using hq)]
    simp [State.setNotices, NoticeState.enqueue, NoticeState.lostItem, State.port]

end Sys2Proof.Machine
end

section
/-! The notices of a port (R156, R159, R160): delivery and posts keep the notice law and leave the control reply slots. -/
namespace Sys2Proof.Machine

variable {s t : State} {p : Port}

/-! ### The law of one port -/

/-- The notice law of one port but for its last demand, that a notice that could move has moved. -/
structure NoticeState.Waits (n : NoticeState) (u : PortUnit) : Prop where
  queued : n.queue.length ≤ 8
  listed : n.onList ≤ 2
  counted : n.onList = u.ready.countP Item.isNotice
  down : u.state = .down → n.queue = []
  lost : 0 < n.lost → n.queue.length = 8

/-- The notice law port by port: no notice waits without one on the ready list (R159). -/
theorem State.noticeLaw_iff : s.NoticeLaw ↔
    ∀ p, (s.notices.get p).Waits (s.port p) ∧ ((s.notices.get p).onList = 0 → (s.notices.get p).queue = []) :=
  forall_congr' fun _ => ⟨fun ⟨hqueued, hlisted, hcounted, hdown, hidle, hlost⟩ =>
      ⟨⟨hqueued, hlisted, hcounted, hdown, hlost⟩, hidle⟩,
    fun ⟨⟨hqueued, hlisted, hcounted, hdown, hlost⟩, hidle⟩ => ⟨hqueued, hlisted, hcounted, hdown, hidle, hlost⟩⟩

theorem State.NoticeLaw.waits (h : s.NoticeLaw) (p : Port) : (s.notices.get p).Waits (s.port p) :=
  (State.noticeLaw_iff.1 h p).1

theorem State.NoticeLaw.idle (h : s.NoticeLaw) (p : Port) (hlist : (s.notices.get p).onList = 0) :
    (s.notices.get p).queue = [] :=
  (State.noticeLaw_iff.1 h p).2 hlist

/-- The law rests on a port's state and on the notices of its ready list. -/
theorem NoticeState.Waits.congr {n : NoticeState} {u v : PortUnit} (h : n.Waits u) (hstate : v.state = .down → u.state = .down)
    (hready : v.ready.countP Item.isNotice = u.ready.countP Item.isNotice) : n.Waits v :=
  ⟨h.queued, h.listed, h.counted.trans hready.symm, fun hd => h.down (hstate hd), h.lost⟩

theorem State.NoticeLaw.congr (h : s.NoticeLaw) (hnotices : t.notices = s.notices)
    (hstate : ∀ q, (t.port q).state = .down → (s.port q).state = .down)
    (hready : ∀ q, (t.port q).ready.countP Item.isNotice = (s.port q).ready.countP Item.isNotice) : t.NoticeLaw :=
  State.noticeLaw_iff.2 fun q => by
    rw [hnotices]
    exact ⟨(h.waits q).congr (hstate q) (hready q), h.idle q⟩

/-! ### Delivery and posts -/

theorem NoticeState.countP_lostItem (n : NoticeState) : n.lostItem.countP Item.isNotice = n.lostItem.length := by
  unfold NoticeState.lostItem
  split <;> rfl

theorem NoticeState.length_lostItem (n : NoticeState) : n.lostItem.length ≤ 1 := by
  unfold NoticeState.lostItem
  split <;> simp

/-- Delivery restores the law of its port: what could move has moved, and with a place in the queue no loss is left to
tell (R159). -/
theorem State.moveNotice_law (hother : ∀ q, q ≠ p → (s.notices.get q).Waits (s.port q) ∧
      ((s.notices.get q).onList = 0 → (s.notices.get q).queue = []))
    (hp : (s.notices.get p).Waits (s.port p)) : (s.moveNotice p).NoticeLaw := by
  have same : ((s.notices.get p).onList = 0 → (s.notices.get p).queue = []) → s.NoticeLaw := fun hidle =>
    State.noticeLaw_iff.2 fun q => if hq : q = p then hq ▸ ⟨hp, hidle⟩ else hother q hq
  cases hstate : (s.port p).state with
  | down =>
    rw [State.moveNotice_of_down hstate]
    exact same fun _ => hp.down hstate
  | up =>
    rcases Nat.eq_zero_or_pos (s.notices.get p).onList with hlist | hlist
    · cases hqueue : (s.notices.get p).queue with
      | nil =>
        rw [State.moveNotice_of_empty hqueue]
        exact same fun _ => hqueue
      | cons first rest =>
        rw [State.moveNotice_of_unlisted hstate hlist hqueue]
        refine State.noticeLaw_iff.2 fun q => ?_
        simp only [State.port, ByPort.get_set]
        split
        · have hlost := (s.notices.get p).length_lostItem
          have hlen : rest.length + 1 ≤ 8 := by simpa [hqueue] using hp.queued
          have hcounted := hp.counted
          refine ⟨⟨by dsimp only; omega, by dsimp only; omega, ?_, fun hdown => ?_, nofun⟩, nofun⟩
          · rw [List.countP_append, List.countP_append, NoticeState.countP_lostItem, ← State.port, ← hcounted, hlist,
              Nat.zero_add]
            rfl
          · exact absurd (hstate.symm.trans hdown) nofun
        · next hq => exact hother q hq
    · rw [State.moveNotice_of_listed hlist]
      exact same fun hzero => absurd hzero hlist.ne'

theorem State.NoticeLaw.post (h : s.NoticeLaw) (p : Port) (x : Notice) : (s.post p x).NoticeLaw := by
  have hother : ∀ n q, q ≠ p → ((s.setNotices p n).notices.get q).Waits ((s.setNotices p n).port q) ∧
      (((s.setNotices p n).notices.get q).onList = 0 → ((s.setNotices p n).notices.get q).queue = []) := fun n q hq => by
    rw [State.notices_setNotices, if_neg hq]
    exact ⟨h.waits q, h.idle q⟩
  obtain ⟨hqueued, hlisted, hcounted, hdown, hlost⟩ := h.waits p
  cases hstate : (s.port p).state with
  | down => rwa [State.post_of_down x hstate]
  | up =>
    have hup : ∀ {q : List (BitVec 16 × Notice)}, (s.port p).state = .down → q = [] := fun hd => by simp [hstate] at hd
    rcases Nat.lt_or_ge (s.notices.get p).queue.length 8 with hroom | hfull
    · rw [State.post_of_room x hstate hroom]
      refine State.moveNotice_law (hother _) ?_
      rw [State.notices_setNotices, if_pos rfl]
      refine ⟨?_, hlisted, hcounted, hup, fun hpos => absurd (hlost hpos) hroom.ne⟩
      simpa [NoticeState.enqueue] using hroom
    · rw [State.post_of_full x hstate hfull]
      refine State.noticeLaw_iff.2 fun q => ?_
      by_cases hq : q = p
      · subst hq
        rw [State.notices_setNotices, if_pos rfl]
        exact ⟨⟨hqueued, hlisted, hcounted, hup, fun _ => Nat.le_antisymm hqueued hfull⟩, h.idle q⟩
      · exact hother _ q hq

/-! ### The slots of a port -/

/-- The answers on a ready list that hold a control reply slot (R174). -/
def PortUnit.answers (u : PortUnit) : Nat := u.ready.countP Item.holdsSlot

/-- Two port units with the same state, slots and answers: what the laws ask of a port beside its notices. -/
structure PortUnit.SameSlots (u v : PortUnit) : Prop where
  state : v.state = u.state
  held : v.held = u.held
  answers : v.answers = u.answers

theorem PortUnit.SameSlots.refl (u : PortUnit) : u.SameSlots u := ⟨rfl, rfl, rfl⟩

theorem PortUnit.SameSlots.trans {u v w : PortUnit} (h : u.SameSlots v) (g : v.SameSlots w) : u.SameSlots w :=
  ⟨g.state.trans h.state, g.held.trans h.held, g.answers.trans h.answers⟩

theorem State.setPort_sameSlots (s : State) (p q : Port) {u : PortUnit} (h : (s.port p).SameSlots u) :
    (s.port q).SameSlots ((s.setPort p u).port q) := by
  rw [State.port_setPort]
  split
  · next hq => exact hq ▸ h
  · exact .refl _

/-- A notice holds no slot. -/
theorem NoticeState.countP_holdsSlot_lostItem (n : NoticeState) : n.lostItem.countP Item.holdsSlot = 0 := by
  unfold NoticeState.lostItem
  split <;> rfl

theorem State.moveNotice_sameSlots (s : State) (p q : Port) : (s.port q).SameSlots ((s.moveNotice p).port q) := by
  cases hstate : (s.port p).state with
  | down => rw [State.moveNotice_of_down hstate]; exact .refl _
  | up =>
    rcases Nat.eq_zero_or_pos (s.notices.get p).onList with hlist | hlist
    · cases hqueue : (s.notices.get p).queue with
      | nil => rw [State.moveNotice_of_empty hqueue]; exact .refl _
      | cons first rest =>
        rw [State.moveNotice_of_unlisted hstate hlist hqueue]
        refine s.setPort_sameSlots p q ⟨rfl, rfl, ?_⟩
        unfold PortUnit.answers
        rw [List.countP_append, List.countP_append, NoticeState.countP_holdsSlot_lostItem]
        rfl
    · rw [State.moveNotice_of_listed hlist]
      exact .refl _

theorem State.post_sameSlots (s : State) (p q : Port) (x : Notice) : (s.port q).SameSlots ((s.post p x).port q) := by
  cases hstate : (s.port p).state with
  | down => rw [State.post_of_down x hstate]; exact .refl _
  | up =>
    rcases Nat.lt_or_ge (s.notices.get p).queue.length 8 with hroom | hfull
    · rw [State.post_of_room x hstate hroom]
      exact State.moveNotice_sameSlots (s.setNotices p _) p q
    · rw [State.post_of_full x hstate hfull]
      exact .refl _

end Sys2Proof.Machine
end

section
/-! Quiet changes: those that take no control reply slot and give none back. They keep the laws of notices, deferred replies
and start-up, and a port's slots stay as many as its answers and deferred replies (R156, R174, R175, R170, R184). -/
namespace Sys2Proof.Machine

variable {s t u : State}

/-! ### Deferred replies -/

/-- What an owed SLOT-CLEAR reply tells of its slot (R137). -/
def State.Clears (s : State) (c : Chip) : Prop :=
  (s.context c).state = .clearing ∧ (s.context c).entry = none ∧ s.health.get c = .clearing ∧
    (s.profile c).type = .nand ∧ s.startup.load = none

namespace State.DeferredLaw

theorem no_setReply (h : s.DeferredLaw) (hs : s.sdram.state ≠ .initialising) : s.sdram.setReply = none := by
  obtain ⟨hset, -⟩ := h
  exact Option.not_isSome_iff_eq_none.1 (mt hset hs)

theorem no_sleepReply (h : s.DeferredLaw) (hs : s.sdram.sleepPending = false) : s.sdram.sleepReply = none := by
  obtain ⟨-, hsleep, -⟩ := h
  exact Option.not_isSome_iff_eq_none.1 fun hr => by simp [hsleep hr] at hs

theorem no_clearReply (h : s.DeferredLaw) {c : Chip} (hc : ¬s.Clears c) : (s.context c).clearReply = none := by
  obtain ⟨-, -, -, hclear⟩ := h
  exact Option.not_isSome_iff_eq_none.1 (mt (hclear c) hc)

/-- The law rests on the SDRAM engine, the contexts, the health, the profiles and on whether a setup load runs. -/
theorem congr (h : s.DeferredLaw) (hsdram : t.sdram = s.sdram) (hnand : t.nand = s.nand) (hhealth : t.health = s.health)
    (hprofiles : t.arbiter.profiles = s.arbiter.profiles) (hload : s.startup.load = none → t.startup.load = none) :
    t.DeferredLaw := by
  obtain ⟨hset, hsleep, hwait, hclear⟩ := h
  unfold State.DeferredLaw State.context State.profile
  rw [hsdram, hnand, hhealth, hprofiles]
  refine ⟨hset, hsleep, hwait, fun c hc => ?_⟩
  obtain ⟨hstate, hentry, hh, htype, hl⟩ := hclear c hc
  exact ⟨hstate, hentry, hh, htype, hload hl⟩

end State.DeferredLaw

theorem State.not_clears_of_state {c : Chip} (h : (s.context c).state ≠ .clearing) : ¬s.Clears c :=
  fun ⟨hstate, _⟩ => h hstate

theorem State.not_clears_of_entry {c : Chip} {r : Ref} (h : (s.context c).entry = some r) : ¬s.Clears c :=
  fun ⟨_, hentry, _⟩ => by simp [hentry] at h

theorem State.not_clears_of_load {l : Load} (h : s.startup.load = some l) (c : Chip) : ¬s.Clears c :=
  fun ⟨_, _, _, _, hload⟩ => by simp [hload] at h

/-- The deferred replies are counted from the SDRAM engine's two and the contexts' four. -/
theorem State.deferredCount_congr (hset : t.sdram.setReply = s.sdram.setReply)
    (hsleep : t.sdram.sleepReply = s.sdram.sleepReply)
    (hclear : ∀ c, (t.context c).clearReply = (s.context c).clearReply) (p : Port) :
    t.deferredCount p = s.deferredCount p := by
  have h1 : t.nand.s1.clearReply = s.nand.s1.clearReply := hclear .s1
  have h2 : t.nand.s2.clearReply = s.nand.s2.clearReply := hclear .s2
  have h3 : t.nand.s3.clearReply = s.nand.s3.clearReply := hclear .s3
  have h4 : t.nand.s4.clearReply = s.nand.s4.clearReply := hclear .s4
  simp only [State.deferredCount, hset, hsleep, h1, h2, h3, h4]

theorem State.deferredCount_setContext (s : State) (c : Chip) (x : Context) (p : Port) :
    (s.setContext c x).deferredCount p + deferredOf p (s.context c).clearReply =
      s.deferredCount p + deferredOf p x.clearReply := by
  cases c <;> simp only [State.deferredCount, State.setContext, State.context, ByChip.set, ByChip.get] <;> omega

/-- The answers and the deferred replies of a port, which its slots hold (R174, R175). -/
def State.owed (s : State) (p : Port) : Nat := (s.port p).answers + s.deferredCount p

/-! ### Quiet changes -/

/-- `t` comes from `s` with the same slots held for as many answers and deferred replies, and with the laws of notices,
deferred replies and start-up kept. -/
structure State.Quiet (s t : State) : Prop where
  notice : s.NoticeLaw → t.NoticeLaw
  held : ∀ p, (t.port p).held = (s.port p).held
  deferred : s.DeferredLaw → t.DeferredLaw ∧ ∀ p, t.owed p = s.owed p
  starting : s.StartingLaw → t.StartingLaw

theorem State.StartingLaw.congr (h : s.StartingLaw) (hstartup : t.startup = s.startup)
    (hstate : ∀ p, (s.port p).state = .down → (t.port p).state = .down)
    (hentries : ∀ p, s.entries p = [] → t.entries p = []) : t.StartingLaw := by
  obtain ⟨hload, hstart⟩ := h
  unfold State.StartingLaw
  rw [hstartup]
  exact ⟨hload, fun htop p => ⟨hstate p (hstart htop p).1, hentries p (hstart htop p).2⟩⟩

namespace State.Quiet

theorem refl (s : State) : s.Quiet s := ⟨id, fun _ => rfl, fun h => ⟨h, fun _ => rfl⟩, id⟩

theorem trans (h : s.Quiet t) (g : t.Quiet u) : s.Quiet u where
  notice := g.notice ∘ h.notice
  held p := (g.held p).trans (h.held p)
  deferred hs := by
    obtain ⟨ht, howed⟩ := h.deferred hs
    obtain ⟨hu, howed'⟩ := g.deferred ht
    exact ⟨hu, fun p => (howed' p).trans (howed p)⟩
  starting := g.starting ∘ h.starting

theorem after (g : t.Quiet u) (h : s.Quiet t) : s.Quiet u := h.trans g

/-- Nothing that the laws look at changes but ready lists, notices and the Request Table. -/
theorem of_ports (hports : ∀ p, (s.port p).SameSlots (t.port p)) (hnotice : s.NoticeLaw → t.NoticeLaw)
    (hsdram : t.sdram = s.sdram) (hnand : t.nand = s.nand) (hhealth : t.health = s.health)
    (hprofiles : t.arbiter.profiles = s.arbiter.profiles) (hstartup : t.startup = s.startup)
    (hentries : ∀ p, s.entries p = [] → t.entries p = []) : s.Quiet t where
  notice := hnotice
  held p := (hports p).held
  deferred h := ⟨h.congr hsdram hnand hhealth hprofiles fun hl => by rwa [hstartup], fun p =>
    congrArg₂ (· + ·) (hports p).answers (State.deferredCount_congr (by rw [hsdram]) (by rw [hsdram])
      (fun c => by simp only [State.context, hnand]) p)⟩
  starting h := h.congr hstartup (fun p hp => (hports p).state.trans hp) hentries

/-- Neither ports nor notices change, nor anything else that the laws look at. -/
theorem of_eq (hports : t.ports = s.ports) (hnotices : t.notices = s.notices) (hsdram : t.sdram = s.sdram)
    (hnand : t.nand = s.nand) (hhealth : t.health = s.health) (hprofiles : t.arbiter.profiles = s.arbiter.profiles)
    (hstartup : t.startup = s.startup) (htable : t.table = s.table) : s.Quiet t := by
  have hport : ∀ p, t.port p = s.port p := fun p => by simp only [State.port, hports]
  exact of_ports (fun p => hport p ▸ .refl _)
    (fun h => h.congr hnotices (fun p hd => hport p ▸ hd) fun p => by rw [hport]) hsdram hnand hhealth hprofiles hstartup
    fun p hp => (State.entries_of_table htable p).trans hp

/-- Nothing changes but the deferred replies and what tells whether they are owed. -/
theorem of_deferred (hports : t.ports = s.ports) (hnotices : t.notices = s.notices) (hstartup : t.startup = s.startup)
    (htable : t.table = s.table)
    (hdeferred : s.DeferredLaw → t.DeferredLaw ∧ ∀ p, t.deferredCount p = s.deferredCount p) : s.Quiet t := by
  have hport : ∀ p, t.port p = s.port p := fun p => by simp only [State.port, hports]
  exact ⟨fun h => h.congr hnotices (fun p hd => hport p ▸ hd) fun p => by rw [hport],
    fun p => by rw [hport],
    fun h => ⟨(hdeferred h).1, fun p => by rw [State.owed, (hdeferred h).2, hport, State.owed]⟩,
    fun h => h.congr hstartup (fun p hd => (hport p).symm ▸ hd) fun p hp => (State.entries_of_table htable p).trans hp⟩

/-! ### Places in the state -/

theorem setPort (s : State) (p : Port) {u : PortUnit} (hu : (s.port p).SameSlots u)
    (hready : u.ready.countP Item.isNotice = (s.port p).ready.countP Item.isNotice) : s.Quiet (s.setPort p u) := by
  refine of_ports (fun q => s.setPort_sameSlots p q hu) (fun h => ?_) rfl rfl rfl rfl rfl fun _ hq => hq
  refine h.congr rfl (fun q hd => ((s.setPort_sameSlots p q hu).state ▸ hd :)) fun q => ?_
  rw [State.port_setPort]
  split
  · next hq => rw [hready, hq]
  · rfl

/-- A port unit with the same state, slots and ready list. -/
theorem setPort_same (s : State) (p : Port) {u : PortUnit} (hstate : u.state = (s.port p).state)
    (hheld : u.held = (s.port p).held) (hready : u.ready = (s.port p).ready) : s.Quiet (s.setPort p u) :=
  setPort s p ⟨hstate, hheld, by rw [PortUnit.answers, hready, PortUnit.answers]⟩ (by rw [hready])

theorem updateEntry (s : State) (r : Ref) (f : Entry → Entry) : s.Quiet (s.updateEntry r f) := by
  refine of_ports (fun _ => .refl _) id rfl rfl rfl rfl rfl fun p hp => ?_
  rw [State.entries_updateEntry]
  split
  · next h => rw [← h, hp]; rfl
  · exact hp

theorem setQueue (s : State) (k : Slot) (q : List Ref) : s.Quiet (s.setQueue k q) := of_eq rfl rfl rfl rfl rfl rfl rfl rfl

theorem dequeue (s : State) (k : Slot) (r : Ref) : s.Quiet (s.dequeue k r) := setQueue s k _

theorem stage (s : State) (l : List Nat) (j : Nat) (d : List Byte) : s.Quiet (s.stage l j d) :=
  of_eq rfl rfl rfl rfl rfl rfl rfl rfl

theorem setEcc (s : State) (n : Nat) (x : EccUnit) : s.Quiet { s with fresh := n, ecc := x } :=
  of_eq rfl rfl rfl rfl rfl rfl rfl rfl

theorem setRetired (s : State) (c : Chip) (l : List Nat) : s.Quiet (s.setRetired c l) := of_eq rfl rfl rfl rfl rfl rfl rfl rfl

theorem setReady (s : State) (c : Chip) (level : Bool) : s.Quiet (s.setReady c level) := of_eq rfl rfl rfl rfl rfl rfl rfl rfl

theorem setRxd (s : State) (p : Port) (level : Bool) : s.Quiet (s.setRxd p level) := of_eq rfl rfl rfl rfl rfl rfl rfl rfl

theorem setWindow (s : State) (index : Nat) (w : Window) : s.Quiet (s.setWindow index w) :=
  of_eq rfl rfl rfl rfl rfl rfl rfl rfl

/-- A change of the SDRAM engine that keeps its deferred replies and what they wait for. -/
theorem setSdram {d : Sdram} (h : s.DeferredLaw → (d.setReply = s.sdram.setReply ∧ d.sleepReply = s.sdram.sleepReply) ∧
    (d.setReply.isSome → d.state = .initialising) ∧ (d.sleepReply.isSome → d.sleepPending = true)) :
    s.Quiet (s.setSdram d) :=
  of_deferred rfl rfl rfl rfl fun hs => by
    obtain ⟨⟨hset, hsleep⟩, hinit, hpending⟩ := h hs
    obtain ⟨-, -, hwait, hclear⟩ := hs
    exact ⟨⟨hinit, hpending, hwait, hclear⟩, State.deferredCount_congr hset hsleep fun _ => rfl⟩

theorem setSdram_same {d : Sdram} (hset : d.setReply = s.sdram.setReply) (hsleep : d.sleepReply = s.sdram.sleepReply)
    (hstate : s.sdram.state = .initialising → d.state = .initialising)
    (hpending : d.sleepPending = s.sdram.sleepPending) : s.Quiet (s.setSdram d) :=
  setSdram fun ⟨hinit, hwaits, _⟩ => ⟨⟨hset, hsleep⟩, fun hr => hstate (hinit (hset ▸ hr)),
    fun hr => hpending.trans (hwaits (hsleep ▸ hr))⟩

/-- A context with the same deferred reply, which is none unless the context clears (R137). -/
theorem setContext {c : Chip} {x : Context} (h : s.DeferredLaw → x.clearReply = (s.context c).clearReply ∧
    (x.clearReply.isSome → x.state = .clearing ∧ x.entry = none)) : s.Quiet (s.setContext c x) :=
  of_deferred rfl rfl rfl rfl fun hs => by
    obtain ⟨hreply, hx⟩ := h hs
    obtain ⟨hset, hsleep, hwait, hclear⟩ := hs
    refine ⟨⟨hset, hsleep, hwait, fun d hd => ?_⟩, State.deferredCount_congr rfl rfl fun d => ?_⟩
    · rw [State.context_setContext] at hd ⊢
      split at hd
      · next hdc =>
        subst hdc
        obtain ⟨-, -, hrest⟩ := hclear d (hreply ▸ hd)
        rw [if_pos rfl]
        exact ⟨(hx hd).1, (hx hd).2, hrest⟩
      · next hdc =>
        rw [if_neg hdc]
        exact hclear d hd
    · rw [State.context_setContext]
      split
      · next hdc => rw [hreply, hdc]
      · rfl

/-- A context that goes on as it was. -/
theorem setContext_same {c : Chip} {x : Context} (hstate : x.state = (s.context c).state)
    (hentry : x.entry = (s.context c).entry) (hreply : x.clearReply = (s.context c).clearReply) :
    s.Quiet (s.setContext c x) :=
  setContext fun ⟨_, _, _, hclear⟩ => ⟨hreply, fun hx => by
    obtain ⟨hst, hen, -⟩ := hclear c (hreply ▸ hx)
    exact ⟨hstate.trans hst, hentry.trans hen⟩⟩

/-- A context that clears nothing may become any other that owes no reply. -/
theorem setContext_of_not_clears {c : Chip} (hc : ¬s.Clears c) {x : Context}
    (hx : x.clearReply = none ∨ x.clearReply = (s.context c).clearReply) : s.Quiet (s.setContext c x) :=
  setContext fun hs => by
    have hnone := hs.no_clearReply hc
    rw [hnone, or_self] at hx
    rw [hnone, hx]
    exact ⟨rfl, nofun⟩

/-- The health of a slot whose context clears nothing, or that is CLEARING again. -/
theorem setHealth (s : State) {c : Chip} (h : Health) (hc : s.DeferredLaw → (s.context c).clearReply = none) :
    s.Quiet (s.setHealth c h) :=
  of_deferred rfl rfl rfl rfl fun hs => by
    have hnone := hc hs
    obtain ⟨hset, hsleep, hwait, hclear⟩ := hs
    refine ⟨⟨hset, hsleep, hwait, fun d hd => ?_⟩, fun _ => rfl⟩
    obtain ⟨hst, hen, hh, hrest⟩ := hclear d hd
    refine ⟨hst, hen, ?_, hrest⟩
    rw [State.setHealth, ByChip.get_set, if_neg fun hdc : d = c => ?_]
    · exact hh
    · rw [hdc] at hd
      have hd : (s.context c).clearReply.isSome := hd
      simp [hnone] at hd

/-- The start-up controller: no load begins where none ran, and STARTING is left with no load running and not entered from
RUNNING (R184). -/
theorem setStartup {x : Startup} (hload : s.startup.load = none → x.load = none)
    (hrun : x.top = .running → s.startup.top = .running ∨ x.load = none)
    (htop : s.startup.top = .running → s.startup.load = none → x.top = .running) : s.Quiet (s.setStartup x) where
  notice := id
  held _ := rfl
  deferred h := ⟨h.congr rfl rfl rfl rfl hload, fun _ => rfl⟩
  starting h := by
    obtain ⟨hidle, hstart⟩ := h
    exact ⟨fun hx => (hrun hx).elim (fun hs => hload (hidle hs)) id,
      fun hx => hstart fun hs => hx (htop hs (hidle hs))⟩

/-- A change beside the top state and the load. -/
theorem setStartup_same {x : Startup} (htop : x.top = s.startup.top) (hload : x.load = s.startup.load) :
    s.Quiet (s.setStartup x) :=
  setStartup (fun h => hload.trans h) (fun h => .inl (htop.symm.trans h)) fun h _ => htop.trans h

/-! ### Ready lists, notices and frames -/

/-- An entry's REPLY holds no slot and is no notice. -/
theorem pushReply (s : State) (p : Port) (tag : Byte) : s.Quiet (s.pushReady p (.entryReply tag)) :=
  setPort s p ⟨rfl, rfl, by simp [PortUnit.answers, Item.holdsSlot]⟩ (by simp [Item.isNotice])

theorem post (s : State) (p : Port) (x : Notice) : s.Quiet (s.post p x) :=
  of_ports (fun q => s.post_sameSlots p q x) (fun h => h.post p x) (by simp) (by simp) (by simp) (by simp) (by simp)
    fun q hq => (State.entries_of_table (by simp) q).trans hq

theorem postBoth (s : State) (x : Notice) : s.Quiet (s.postBoth x) := (post s .a x).trans (post _ .b x)

theorem postSome (s : State) (x : Option Notice) : s.Quiet (s.postSome x) := by
  cases x with
  | none => exact refl s
  | some n => exact postBoth s n

theorem pump (s : State) (p : Port) : s.Quiet (s.pump p) := by
  unfold State.pump
  dsimp only
  split
  · exact setPort_same s p rfl rfl rfl
  · exact refl s

theorem takeFrame (s : State) (p : Port) (seq : Byte) : s.Quiet (s.takeFrame p seq) := by
  have hconsume : s.Quiet (s.consume p) := setPort_same s p rfl rfl rfl
  refine hconsume.trans ?_
  unfold State.takeFrame State.sequenceCheck
  split
  · refine after (setPort_same _ p rfl rfl rfl) ?_
    split
    · exact refl _
    · exact post _ p _
  · exact setPort_same _ p rfl rfl rfl
  · exact refl _

theorem overrun (s : State) (p : Port) : s.Quiet (s.overrun p) := (post _ p _).after (setPort_same s p rfl rfl rfl)

theorem dropFrame (s : State) (p : Port) (r : DropReason) : s.Quiet (s.dropFrame p r) :=
  (post _ p _).after (setPort_same s p rfl rfl rfl)

theorem receive (s : State) (p : Port) (c : Byte) : s.Quiet (s.receive p c) := by
  unfold State.receive State.judgeFrame
  dsimp only
  split
  · exact refl s
  · exact setPort_same s p rfl rfl rfl
  · split_ifs
    · exact dropFrame s p _
    · exact dropFrame s p _
    · exact setPort_same s p rfl rfl rfl
    · exact dropFrame s p _
    · exact setPort_same s p rfl rfl rfl

theorem character (s : State) (p : Port) (c : Byte) (stop : Bool) : s.Quiet (s.character p c stop) := by
  unfold State.character
  split
  · exact refl s
  · exact (setRxd s p stop).trans (receive _ p c)

theorem gapTimeout (s : State) (p : Port) : s.Quiet (s.gapTimeout p) := by
  unfold State.gapTimeout
  split
  · exact dropFrame s p _
  · exact refl s

theorem rxdHigh (s : State) (p : Port) : s.Quiet (s.rxdHigh p) := by
  unfold State.rxdHigh
  dsimp only
  split
  · exact (setRxd s p true).trans (setPort_same _ p rfl rfl rfl)
  · exact setRxd s p true

/-! ### A deferred answer -/

/-- A deferred reply that is dropped from what is owed and answered in the slot it holds (R175). -/
theorem deferredReply (x : Option Deferred) (k : CtrlKind) (st : Status) (body : List Byte)
    (hports : t.ports = s.ports) (hnotices : t.notices = s.notices) (hstartup : t.startup = s.startup)
    (htable : t.table = s.table)
    (hdeferred : s.DeferredLaw → t.DeferredLaw ∧ ∀ p, t.deferredCount p + deferredOf p x = s.deferredCount p) :
    s.Quiet (t.deferredReply x k st body) := by
  cases x with
  | none => exact of_deferred hports hnotices hstartup htable hdeferred
  | some d =>
    have hport : ∀ p, t.port p = s.port p := fun p => by simp only [State.port, hports]
    have hpush : ∀ p, (t.deferredReply (some d) k st body).port p =
        if p = d.port then { s.port p with ready := (s.port p).ready ++ [.ctrl d.token k st body] } else s.port p := fun p => by
      rw [State.deferredReply, State.pushReady, State.port_setPort, hport, hport]
      split
      · next hp => rw [hp]
      · rfl
    refine ⟨fun h => h.congr hnotices (fun p hd => ?_) fun p => ?_, fun p => ?_, fun h => ⟨?_, fun p => ?_⟩,
      fun h => h.congr hstartup (fun p hd => ?_) fun p hp => (State.entries_of_table htable p).trans hp⟩
    · rw [hpush] at hd
      split at hd <;> exact hd
    · rw [hpush]
      split
      · simp [Item.isNotice]
      · rfl
    · rw [hpush]
      split <;> rfl
    · exact (hdeferred h).1.congr rfl rfl rfl rfl id
    · have hcount : (t.deferredReply (some d) k st body).deferredCount p = t.deferredCount p := rfl
      rw [State.owed, State.owed, hpush, hcount, ← (hdeferred h).2 p]
      by_cases hp : p = d.port
      · simp [hp, PortUnit.answers, deferredOf, Item.holdsSlot]
        omega
      · simp [hp, Ne.symm hp, deferredOf]
    · rw [hpush]
      split <;> exact hd

end State.Quiet

end Sys2Proof.Machine
end

section
/-! What is quiet: the operations of the Request Table, grants and tenure ends, the events of the SDRAM and NAND engines, and
the start-up controller. -/
namespace Sys2Proof.Machine

/-- A NAND profile has no wait limit (R117). -/
theorem Profile.Legal.waitLimit_of_nand {f : Profile} (h : f.Legal) (ht : f.type = .nand) : f.waitLimit = 0 := by
  obtain ⟨-, h⟩ := h
  rw [ht] at h
  exact congrArg Profile.waitLimit h.2

/-- An accepted SDR-SET finds the SDRAM not INITIALISING and no SDR-SLEEP pending (R95). -/
theorem State.judgeSdr_idle {s : State} {d : List Byte} {g : Settings} (h : s.judgeSdr d = .ok g) :
    s.sdram.state ≠ .initialising ∧ s.sdram.sleepPending = false := by
  unfold State.judgeSdr at h
  split_ifs at h with _ hbusy
  rw [not_or, not_or] at hbusy
  exact ⟨hbusy.1, by simpa using hbusy.2.2⟩

/-- A tenure that can meet the WAIT limit has one (R80). -/
theorem State.waitLimit_of_waiting {s : State} {c : Chip} {e : Entry} (h : s.waiting = some (c, e)) :
    (s.profile c).waitLimit ≠ 0 := by
  obtain ⟨t, r, ht, hslot, hr, he, -⟩ := State.waiting_eq_some h
  rw [State.waiting_of_tenure ht hslot hr he] at h
  split at h
  · next hx => exact hx.2
  · cases h

namespace State.Quiet

variable {s t u : State}

/-! ### The Request Table -/

theorem releaseSegments (s : State) (r : Ref) : s.Quiet (s.releaseSegments r) := by
  unfold State.releaseSegments
  split
  · exact after (updateEntry _ r _) (of_eq rfl rfl rfl rfl rfl rfl rfl rfl)
  · exact refl s

theorem dropEntry (s : State) (r : Ref) : s.Quiet (s.dropEntry r) :=
  of_ports (fun _ => .refl _) id rfl rfl rfl rfl rfl fun p hp => by
    unfold State.dropEntry
    rw [State.entries_setEntries]
    split
    · next h => rw [← h, hp]; rfl
    · exact hp

theorem freeEntry (s : State) (r : Ref) : s.Quiet (s.freeEntry r) := after (dropEntry _ r) (releaseSegments s r)

theorem finish (s : State) (r : Ref) (st : Status) : s.Quiet (s.finish r st) := by
  unfold State.finish
  split
  · exact refl s
  · split
    · exact freeEntry s r
    · refine after ((updateEntry _ r _).trans (pushReply _ _ _)) ?_
      split
      · exact releaseSegments s r
      · exact refl s

theorem retireHead (s : State) (c : Chip) (r : Ref) : s.Quiet (s.retireHead c r) := (dequeue s _ r).trans (finish _ r _)

theorem wake (s : State) (now : Nat) : s.Quiet (s.setSdram (s.sdram.wake now)) := by
  unfold Sdram.wake
  split
  · next hdown => exact setSdram_same rfl rfl (fun hinit => by simp [hdown] at hinit) rfl
  · exact refl s

theorem join (s : State) (r : Ref) (k : Slot) : s.Quiet (s.join r k) := by
  unfold State.join
  dsimp only
  cases k with
  | sd =>
    have hu := (setQueue s .sd (s.queue .sd ++ [r])).trans
      (updateEntry _ r (fun e => { e with state := .queued, bypass := some 0 }))
    exact trans (trans hu (wake _ s.now)) (setSdram_same rfl rfl id rfl)
  | chip c =>
    have hu := (setQueue s (.chip c) (s.queue (.chip c) ++ [r])).trans (updateEntry _ r (fun e => { e with state := .queued }))
    dsimp only
    split
    · exact hu.trans (retireHead _ c _)
    · exact hu

theorem releaseHeld (s : State) (p : Port) (e : Entry) : s.Quiet (s.releaseHeld p e) := by
  unfold State.releaseHeld
  split
  · exact join s _ _
  · exact finish s _ _

theorem evalFencesFuel (p : Port) : ∀ (n : Nat) (s : State), s.Quiet (State.evalFencesFuel n s p)
  | 0, s => refl s
  | n + 1, s => by
    unfold State.evalFencesFuel
    split
    · exact (releaseHeld s p _).trans (evalFencesFuel p n _)
    · exact refl s

theorem evalFences (s : State) (p : Port) : s.Quiet (s.evalFences p) := evalFencesFuel p _ s

theorem complete (s : State) (r : Ref) (st : Status) : s.Quiet (s.complete r st) := by
  unfold State.complete
  split
  · exact refl s
  · split
    · exact finish s r st
    · exact (finish s r st).trans (evalFences _ _)

theorem examineFuel (c : Chip) : ∀ (n : Nat) (s : State), s.Quiet (State.examineFuel n s c)
  | 0, s => refl s
  | n + 1, s => by
    unfold State.examineFuel
    split
    · exact ((retireHead s c _).trans (evalFences _ _)).trans (examineFuel c n _)
    · exact refl s

theorem examine (s : State) (c : Chip) : s.Quiet (s.examine c) := examineFuel c _ s

theorem examineHeads (s : State) : s.Quiet s.examineHeads :=
  (((examine s .s1).trans (examine _ .s2)).trans (examine _ .s3)).trans (examine _ .s4)

theorem flushList (k : Slot) : ∀ (l : List Ref) (s : State), s.Quiet (s.flushList k l)
  | [], s => refl s
  | r :: l, s => by
    unfold State.flushList
    refine after (flushList k l _) ?_
    split
    · exact (dequeue s k r).trans (finish _ r _)
    · exact refl s

theorem flush (s : State) (k : Slot) : s.Quiet (s.flush k) := by
  have hfences : ∀ (b : Bool) (p : Port) (u : State), u.Quiet (if b then u.evalFences p else u) := fun b p u => by
    cases b
    · exact refl u
    · exact evalFences u p
  exact ((flushList k _ s).trans (hfences _ .a _)).trans (hfences _ .b _)

/-- An entry is created in RUNNING alone (R170). -/
theorem create (e : Entry) (data : List Byte) (hrun : s.startup.top = .running) : s.Quiet (s.create e data) := by
  have happ : s.Quiet (s.appended e data) :=
    ⟨id, fun _ => rfl, fun h => ⟨h, fun _ => rfl⟩, fun ⟨hload, _⟩ => ⟨hload, fun htop => absurd hrun htop⟩⟩
  rw [State.create_eq]
  split
  · exact happ
  · exact happ.trans (join _ _ _)

theorem cancelEntry (s : State) (e : Entry) : s.Quiet (s.cancelEntry e) := by
  have hcomplete : s.Quiet ((if e.state = .queued then s.dequeue e.slot e.ref else s).complete e.ref .cancelled) := by
    split
    · exact (dequeue s _ _).trans (complete _ _ _)
    · exact complete s _ _
  unfold State.cancelEntry
  dsimp only
  split
  · exact hcomplete.trans (examine _ _)
  · exact hcomplete

/-! ### Grants and tenure ends -/

theorem beginStatic (s : State) (c : Chip) : s.Quiet (s.beginStatic c).1 := by
  unfold State.beginStatic
  split
  · exact refl s
  · split
    · split
      · exact updateEntry s _ _
      · exact refl s
    · exact refl s

/-- The context of an operation that begins was IDLE (R123). -/
theorem beginNandHead {c : Chip} (r : Ref) (e : Entry) (hidle : (s.context c).state = .idle) :
    s.Quiet (s.beginNandHead c r e).1 := by
  have hu := (dequeue s (.chip c) r).trans (updateEntry _ r Entry.activate)
  have hx : ∀ {x : Context}, x.clearReply = (s.context c).clearReply →
      s.Quiet (((s.dequeue (.chip c) r).updateEntry r Entry.activate).setContext c x) := fun hx =>
    hu.trans (setContext_of_not_clears (State.not_clears_of_state (by
      show (s.context c).state ≠ .clearing
      rw [hidle]
      nofun)) (.inr hx))
  unfold State.beginNandHead
  dsimp only
  split
  · refine trans (hx ?_) (of_eq rfl rfl rfl rfl rfl rfl rfl rfl)
    rfl
  · exact hx rfl
  · exact hx rfl
  · exact hx rfl

theorem beginUnload {c : Chip} {x : Context} (hx : s.Quiet (s.setContext c x)) : s.Quiet (s.beginUnload c x).1 := by
  unfold State.beginUnload
  dsimp only
  split <;> exact trans hx (of_eq rfl rfl rfl rfl rfl rfl rfl rfl)

/-- A grant moves a context that clears nothing: a CLEARING one only has its reset made (R134, R137). -/
theorem beginNand (s : State) (c : Chip) : s.Quiet (s.beginNand c).1 := by
  have hmove : ∀ {x : Context}, (s.context c).state ≠ .clearing → x.clearReply = (s.context c).clearReply →
      s.Quiet (s.setContext c x) := fun hst hx => setContext_of_not_clears (State.not_clears_of_state hst) (.inr hx)
  unfold State.beginNand
  dsimp only
  split
  · next hidle =>
    split
    · exact hmove (by simp [hidle]) rfl
    · split
      · split
        · exact beginNandHead _ _ hidle
        · exact refl s
      · exact refl s
  · split
    · exact of_eq rfl rfl rfl rfl rfl rfl rfl rfl
    · exact refl s
  · next hbusy =>
    split
    · exact beginUnload (hmove (by simp [hbusy]) rfl)
    · exact hmove (by simp [hbusy]) rfl
  · exact beginUnload (setContext_same rfl rfl rfl)
  · exact refl s
  · exact refl s
  · exact refl s

theorem bypassAll : ∀ (l : List Ref) (s : State), s.Quiet (l.foldl (fun s x => s.updateEntry x Entry.bypassed) s)
  | [], s => refl s
  | r :: l, s => (updateEntry s r Entry.bypassed).trans (bypassAll l _)

theorem beginSdEntry (s : State) : s.Quiet s.beginSdEntry.1 := by
  unfold State.beginSdEntry
  split
  · refine after (updateEntry _ _ _) ?_
    split
    · exact refl s
    · exact bypassAll _ s
  · exact refl s

theorem beginSd (s : State) : s.Quiet s.beginSd.1 := by
  have hround : s.Quiet s.beginRefresh.1 := setSdram_same rfl rfl id rfl
  unfold State.beginSd
  split_ifs
  · exact refl s
  · exact refl s
  · exact refl s
  · exact hround
  · exact beginSdEntry s
  · exact setSdram_same rfl rfl id rfl
  · exact refl s
  · exact hround

theorem grant (s : State) : s.Quiet s.grant := by
  have hbegin : ∀ k, s.Quiet (s.beginOn k).1 := fun k => by
    unfold State.beginOn
    split
    · split
      · exact beginNand s _
      · exact beginStatic s _
    · exact beginSd s
  unfold State.grant
  split
  · exact refl s
  · split
    · next k _ => exact trans (hbegin k) (of_eq rfl rfl rfl rfl rfl rfl rfl rfl)
    · exact refl s

theorem settle (s : State) : s.Quiet s.settle := ((pump s .a).trans (pump _ .b)).trans (grant _)

theorem endTenure (s : State) (w : Bool) (cs : List BusCycle) : s.Quiet (s.endTenure w cs) := by
  unfold State.endTenure
  split
  · exact refl s
  · next t _ =>
    have hsdram : s.Quiet (s.setSdram
        (if t.slot = .sd then { s.sdram with powerDownTimer := restart s.sdram.powerDownTimer } else s.sdram)) := by
      split <;> exact setSdram_same rfl rfl id rfl
    exact trans hsdram (of_eq rfl rfl rfl rfl rfl rfl rfl rfl)

theorem endSd (s : State) (w : Bool) (x : SdTrace) : s.Quiet (s.endSd w x) :=
  after (endTenure _ _ _) (setSdram_same rfl rfl id rfl)

theorem restartSelfRefresh (s : State) : s.Quiet s.restartSelfRefresh := setSdram_same rfl rfl id rfl

theorem endWork (s : State) (e : Entry) (st : Status) : s.Quiet (s.endWork e st) :=
  (dequeue s _ _).trans (complete _ _ _)

theorem moveChunk (s : State) (t : Tenure) (e : Entry) (xs : List Sample) : s.Quiet (s.moveChunk t e xs) := by
  have hstage : ∀ w, s.Quiet (s.stageChunk e w xs) := fun w => by
    unfold State.stageChunk
    split
    · exact refl s
    · exact stage s _ _ _
  unfold State.moveChunk
  dsimp only
  split
  · exact (hstage _).trans (endTenure _ _ _)
  · exact ((hstage _).trans (endSd _ _ _)).trans (restartSelfRefresh _)

theorem chunkEnd (s : State) (xs : List Sample) : s.Quiet (s.chunkEnd xs) := by
  unfold State.chunkEnd
  dsimp only
  split
  · next t e _ =>
    have hu := (moveChunk s t e xs).trans (updateEntry _ e.ref
      (fun x => { x with progress := some (e.moved + e.chunkLength) }))
    split
    · exact hu.trans (endWork _ _ _)
    · exact hu
  · exact refl s

theorem atomicEnd (s : State) (xs : List Sample) : s.Quiet (s.atomicEnd xs) := by
  unfold State.atomicEnd
  split
  · next t e _ =>
    have hmove : s.Quiet (s.moveAtomic t e xs) := by
      unfold State.moveAtomic
      dsimp only
      split
      · exact (stage s _ _ _).trans (endTenure _ _ _)
      · exact ((stage s _ _ _).trans (endSd _ _ _)).trans (restartSelfRefresh _)
    exact (hmove.trans (updateEntry _ _ _)).trans (endWork _ _ _)
  · exact refl s

/-- A slot whose tenures sample WAIT is not typed NAND, and its context clears nothing (R80, R117). -/
theorem stall {c : Chip} (e : Entry) (k : Nat) (xs : List Sample) (hwait : (s.profile c).waitLimit ≠ 0) :
    s.Quiet (s.stall c e k xs) := by
  have hhealth : s.Quiet (s.setHealth c .stalled) := setHealth s _ fun hs =>
    hs.no_clearReply fun ⟨_, _, _, htype, _⟩ => hwait (hs.2.2.1 c htype)
  have hstage : s.Quiet ((s.setHealth c .stalled).stageWaited (s.profile c) e k xs) := by
    refine hhealth.trans ?_
    unfold State.stageWaited
    split
    · exact refl _
    · exact stage _ _ _ _
  have hgrant := (hstage.trans (endTenure _ (s.waitCycles (s.profile c) e k xs).1
    (s.waitCycles (s.profile c) e k xs).2)).trans (grant _)
  exact (((hgrant.trans (updateEntry _ _ _)).trans (endWork _ e .busTimeout)).trans (flush _ _)).trans (postBoth _ _)

theorem waitLimit (s : State) (k : Nat) (xs : List Sample) : s.Quiet (s.waitLimit k xs) := by
  unfold State.waitLimit
  split
  · next hwaiting =>
    split
    · exact stall _ _ _ (State.waitLimit_of_waiting hwaiting)
    · exact refl s
  · exact refl s

/-! ### The start-up controller -/

theorem tryRun (s : State) : s.Quiet s.tryRun := by
  unfold State.tryRun
  dsimp only
  split
  · next htop hload _ =>
    split
    · exact setStartup id nofun fun hrun => by simp [htop] at hrun
    · exact setStartup id (fun _ => .inr hload) fun _ _ => rfl
  · exact refl s

/-- What ends a copy is the load that runs (R189, R190). -/
theorem copyEnded {l : Load} (hl : s.startup.load = some l) (l' : Load) (x : CopyReason) : s.Quiet (s.copyEnded l' x) := by
  have hloads : ¬s.startup.load = none := by simp [hl]
  unfold State.copyEnded
  dsimp only
  split
  · exact after (tryRun _) (setStartup (fun _ => rfl) nofun fun _ hnone => absurd hnone hloads)
  · split
    · exact after (tryRun _) (setStartup (fun _ => rfl) .inl fun hrun _ => hrun)
    · exact setStartup (fun hnone => absurd hnone hloads) .inl fun hrun _ => hrun

theorem countApplied (s : State) : s.Quiet s.countApplied := setStartup_same rfl rfl

theorem countSkipped (s : State) (n index : Nat) : s.Quiet (s.countSkipped n index) := setStartup_same rfl rfl

theorem advanceWalk (s : State) (size : Nat) : s.Quiet (s.advanceWalk size) := by
  unfold State.advanceWalk
  split
  · exact refl s
  · exact setStartup_same rfl rfl

theorem walkUnknown (s : State) : s.Quiet s.walkUnknown := by
  unfold State.walkUnknown
  split
  · exact refl s
  · split
    · exact after (tryRun _) (after (setStartup_same rfl rfl) (countSkipped s _ _))
    · split
      · exact ((countSkipped s _ _).trans (advanceWalk _ _)).trans (tryRun _)
      · exact refl s

theorem walkStep (t : EntryType) {apply : State → NextEntry → State} (happly : ∀ e, s.Quiet (apply s e)) :
    s.Quiet (s.walkStep t apply) := by
  unfold State.walkStep
  dsimp only
  split
  · exact refl s
  · split
    · exact refl s
    · refine after ((advanceWalk _ _).trans (tryRun _)) ?_
      split
      · exact happly _
      · exact countSkipped s _ _

theorem applyPorts (s : State) (e : NextEntry) : s.Quiet (s.applyPorts e) := by
  unfold State.applyPorts
  split
  · exact after (countApplied _) (after (setPort_same _ .b rfl rfl rfl) (setPort_same s .a rfl rfl rfl))
  · exact countSkipped s _ _

/-- A slot that SLOT-SET may change clears nothing, and its new profile lies in its ranges (R71, R72). -/
theorem applySlot {code : Byte} {d : List Byte} {c : Chip} {f : Profile} (hj : s.judgeSlot code d = .ok (c, f)) :
    s.Quiet (s.applySlot c f) := by
  have hfree : ¬s.Clears c := fun ⟨hstate, _, _, htype, _⟩ => by
    have hbusy : s.slotBusy c = true := by simp [State.slotBusy, htype, hstate]
    unfold State.judgeSlot at hj
    split at hj
    · cases hj
    · split_ifs at hj with _ hidle
      split at hj
      · cases hj
      · obtain ⟨rfl, rfl⟩ := Prod.mk.inj (Except.ok.inj hj)
        exact hidle hbusy
  have hcontext : ∀ x, (s.applySlot c f).context x = if x = c then Context.idle else s.context x := fun x =>
    State.context_setContext _ c x _
  refine of_deferred rfl rfl rfl rfl fun hs => ?_
  have hnone := hs.no_clearReply hfree
  obtain ⟨hset, hsleep, hwait, hclear⟩ := hs
  refine ⟨⟨hset, hsleep, fun x hx => ?_, fun x hx => ?_⟩, State.deferredCount_congr rfl rfl fun x => ?_⟩
  · rw [State.profile_applySlot] at hx ⊢
    split at hx
    · next hxc =>
      rw [if_pos hxc]
      exact (profileOfBlock_legal (State.judgeSlot_eq_ok hj).2).waitLimit_of_nand hx
    · next hxc =>
      rw [if_neg hxc]
      exact hwait x hx
  · rw [hcontext] at hx ⊢
    split at hx
    · cases hx
    · next hxc =>
      rw [if_neg hxc, State.profile_applySlot, if_neg hxc]
      exact hclear x hx
  · rw [hcontext]
    split
    · next hxc => rw [hxc, hnone]; rfl
    · rfl

theorem applySlotEntry (s : State) (e : NextEntry) : s.Quiet (s.applySlotEntry e) := by
  unfold State.applySlotEntry
  split
  · next hj => exact (applySlot hj).trans (countApplied _)
  · exact countSkipped s _ _

theorem applySdramEntry (s : State) (e : NextEntry) : s.Quiet (s.applySdramEntry e) := by
  unfold State.applySdramEntry
  split
  · next hj =>
    refine after (countApplied _) (setSdram fun hs => ?_)
    exact ⟨⟨(hs.no_setReply (State.judgeSdr_idle hj).1).symm, rfl⟩, nofun, hs.2.1⟩
  · exact countSkipped s _ _

theorem applyWindowBlock (s : State) (entry index : Nat) (d : List Byte) : s.Quiet (s.applyWindowBlock entry index d) := by
  unfold State.applyWindowBlock
  split
  · exact (setWindow s _ _).trans (countApplied _)
  · exact countSkipped s _ _

theorem applyWindowEntry (s : State) (e : NextEntry) : s.Quiet (s.applyWindowEntry e) := by
  have hu : ∀ index, s.Quiet (s.supersede index) := fun index => by
    unfold State.supersede
    split
    · exact after (setStartup_same rfl rfl) (countSkipped s _ _)
    · exact refl s
  unfold State.applyWindowEntry
  dsimp only
  split
  · exact after (setStartup_same rfl rfl) (hu _)
  · exact (hu _).trans (applyWindowBlock _ _ _ _)

theorem applyRetireBlocks (code : Byte) : ∀ (l : List Nat) (s : State), s.Quiet (s.applyRetireBlocks code l).1
  | [], s => refl s
  | b :: l, s => by
    unfold State.applyRetireBlocks
    split
    · refine after (applyRetireBlocks code l _) ?_
      split
      · exact refl s
      · exact setRetired s _ _
    · exact applyRetireBlocks code l s

theorem applyRetireEntry (s : State) (e : NextEntry) : s.Quiet (s.applyRetireEntry e) := by
  unfold State.applyRetireEntry State.counted
  split
  · have hu := applyRetireBlocks (at8 e.bytes 2) (retireBlocks e.bytes) s
    dsimp only
    split
    · exact hu.trans (countApplied _)
    · exact hu.trans (countSkipped _ _ _)
  · exact countSkipped s _ _

theorem settleStartup (s : State) : s.Quiet s.settleStartup := by
  have all : ∀ (l : List DeferredWindow) (u : State),
      u.Quiet (l.foldl (fun u x => u.applyWindowBlock x.entry x.index x.block) u) := fun l => by
    induction l with
    | nil => exact refl
    | cons x l ih => exact fun u => (applyWindowBlock u _ _ _).trans (ih _)
  unfold State.settleStartup
  split
  · exact after (tryRun _) (after (setStartup_same rfl rfl) (all _ s))
  · exact refl s

theorem loadChunkEnd (s : State) (xs : List Sample) : s.Quiet (s.loadChunkEnd xs) := by
  unfold State.loadChunkEnd
  dsimp only
  split
  · next l _ hl =>
    have hu : ∀ cs b l', s.Quiet ((s.endTenure false cs).setStartup
        { (s.endTenure false cs).startup with buffer := b, load := some l' }) := fun cs b l' =>
      (endTenure s false cs).trans (setStartup (fun hnone => by simp [hl] at hnone) .inl fun hrun _ => hrun)
    split
    · exact hu _ _ _
    · exact (hu _ _ _).trans (copyEnded rfl _ _)
  · exact refl s

/-! ### The SDRAM engine -/

theorem wakeIfDue (s : State) : s.Quiet s.wakeIfDue := by
  unfold State.wakeIfDue
  split
  · exact wake s _
  · exact refl s

theorem refreshExpiry (s : State) : s.Quiet s.refreshExpiry := by
  unfold State.refreshExpiry
  dsimp only
  split
  · exact refl s
  · split
    · exact after (wake (s.setSdram { s.sdram with refreshTimer := some 0, debt := s.sdram.debt + 1 }) s.now)
        (setSdram_same rfl rfl id rfl)
    · exact after (postBoth _ _) (setSdram_same rfl rfl id rfl)

theorem refreshRoundEnd (s : State) : s.Quiet s.refreshRoundEnd := by
  unfold State.refreshRoundEnd
  split
  · exact endSd s _ _
  · exact refl s

theorem enterPowerDown (s : State) : s.Quiet s.enterPowerDown := by
  unfold State.enterPowerDown
  split
  · next hdown =>
    refine setSdram_same rfl rfl (fun hinit => ?_) rfl
    simp [State.canPowerDown, hinit] at hdown
  · exact refl s

theorem selfRefreshReached (s : State) : s.Quiet s.selfRefreshReached := by
  unfold State.selfRefreshReached
  dsimp only
  split
  · exact after (wakeIfDue _) (setSdram_same rfl rfl id rfl)
  · exact refl s

/-- An SDRAM reply that is owed no more is answered (R97, R104). -/
theorem answerSdram {d : Sdram} {x : Option Deferred} (k : CtrlKind)
    (hd : s.DeferredLaw → (d.setReply.isSome → d.state = .initialising) ∧ (d.sleepReply.isSome → d.sleepPending = true))
    (hx : s.DeferredLaw → ∀ p, deferredOf p d.setReply + deferredOf p d.sleepReply + deferredOf p x =
      deferredOf p s.sdram.setReply + deferredOf p s.sdram.sleepReply) :
    s.Quiet ((s.setSdram d).deferredReply x k .ok []) :=
  deferredReply x k .ok [] rfl rfl rfl rfl fun hs => by
    have howed := hx hs
    obtain ⟨hset, hsleep⟩ := hd hs
    obtain ⟨-, -, hwait, hclear⟩ := hs
    refine ⟨⟨hset, hsleep, hwait, hclear⟩, fun p => ?_⟩
    have hp := howed p
    simp only [State.deferredCount, State.setSdram]
    omega

theorem selfRefreshEntryEnd (s : State) : s.Quiet s.selfRefreshEntryEnd := by
  unfold State.selfRefreshEntryEnd
  dsimp only
  split
  · next n _ =>
    have hu := endSd s true (sdSelfRefreshEntry s.sdStart s.sdram.settings n)
    obtain ⟨x, hx⟩ := s.endSd_sdram true (sdSelfRefreshEntry s.sdStart s.sdram.settings n)
    split
    · next hready =>
      refine hu.trans (answerSdram .sdrSleep (fun hs => ⟨fun hr => ?_, nofun⟩) fun hs p => ?_)
      · have hnone := hs.no_setReply (by rw [hready]; nofun)
        simp [Sdram.asleep, hnone] at hr
      · rw [show s.sdram.sleepReply = _ from (congrArg Sdram.sleepReply hx).symm]
        simp [Sdram.asleep, deferredOf]
    · exact hu
  · exact refl s

theorem selfRefreshExitEnd (s : State) : s.Quiet s.selfRefreshExitEnd := by
  unfold State.selfRefreshExitEnd
  dsimp only
  split
  · have hu := endSd s true (sdSelfRefreshExit s.sdStart s.sdram.settings)
    split
    · next hasleep =>
      exact after (setSdram_same rfl rfl (fun hinit => by simp [hasleep] at hinit) rfl) hu
    · exact hu
  · exact refl s

theorem stabilised (s : State) : s.Quiet s.stabilised := by
  unfold State.stabilised
  split
  · exact setSdram_same rfl rfl id rfl
  · exact refl s

theorem prechargeStepEnd (s : State) : s.Quiet s.prechargeStepEnd := by
  unfold State.prechargeStepEnd
  split
  · exact after (setSdram_same rfl rfl id rfl) (endSd s _ _)
  · exact refl s

theorem refreshStepEnd (s : State) : s.Quiet s.refreshStepEnd := by
  unfold State.refreshStepEnd
  split
  · exact after (setSdram_same rfl rfl id rfl) (endSd s _ _)
  · exact refl s

theorem modeStepEnd (s : State) : s.Quiet s.modeStepEnd := by
  unfold State.modeStepEnd
  dsimp only
  split
  · obtain ⟨x, hx⟩ := s.endSd_sdram true (sdInitMode s.sdStart s.sdram.settings)
    refine after (settleStartup _) (after (answerSdram .sdrSet (fun hs => And.intro (fun hr => nomatch hr) hs.2.1) fun hs p => ?_)
      (endSd s _ _))
    rw [show s.sdram.setReply = _ from (congrArg Sdram.setReply hx).symm]
    simp [Sdram.started, deferredOf, Nat.add_comm]
  · exact refl s

/-! ### NAND slots -/

theorem idleContext {c : Chip} (hc : ¬s.Clears c) : s.Quiet (s.idleContext c) :=
  (setContext_of_not_clears hc (.inl rfl)).trans (examine _ c)

theorem endOperation {c : Chip} {x : Ref} (hx : (s.context c).entry = some x) (r : Ref) (st : Status) :
    s.Quiet (s.endOperation c r st) :=
  (complete s r st).trans (idleContext (State.not_clears_of_entry (r := x) (by
    rwa [State.context, State.complete_nand])))

theorem loadResetDone {l : Load} (hl : s.startup.load = some l) : s.Quiet s.loadResetDone := by
  have hu : s.Quiet (s.setContext .s1 Context.idle) := setContext_of_not_clears (State.not_clears_of_load hl _) (.inl rfl)
  unfold State.loadResetDone
  dsimp only
  split
  · next hl' =>
    split
    · exact hu.trans (copyEnded hl' _ _)
    · exact after (setStartup (fun hnone => absurd (hl'.symm.trans hnone) nofun) .inl fun hrun _ => hrun) hu
  · exact hu

/-- The clear's answer is made in the slot that its reply holds (R137, R175). -/
theorem endClear (s : State) (c : Chip) (h : Health) (st : Status) : s.Quiet (s.endClear c h st) := by
  refine deferredReply _ _ _ _ rfl rfl rfl rfl fun ⟨hset, hsleep, hwait, hclear⟩ =>
    ⟨⟨hset, hsleep, hwait, fun d hd => ?_⟩, fun p => (s.setHealth c h).deferredCount_setContext c Context.idle p⟩
  rw [State.context_setContext] at hd ⊢
  split at hd
  · cases hd
  · next hdc =>
    obtain ⟨hstate, hentry, hhealth, hrest⟩ := hclear d hd
    rw [if_neg hdc]
    refine ⟨hstate, hentry, ?_, hrest⟩
    rw [State.setContext_health, State.setHealth, ByChip.get_set, if_neg hdc]
    exact hhealth

theorem takeRise (s : State) (c : Chip) : s.Quiet (s.takeRise c) := by
  unfold State.takeRise
  split
  · next hrecovering =>
    split
    · next hloads =>
      simp only [Startup.loads, Bool.and_eq_true] at hloads
      obtain ⟨l, hl⟩ := Option.isSome_iff_exists.1 hloads.1
      exact loadResetDone hl
    · exact idleContext (State.not_clears_of_state (by simp [hrecovering]))
  · exact endClear s c _ _
  · exact setContext_same rfl rfl rfl

theorem arm (s : State) (c : Chip) (limit : Nat) (ready : Bool) : s.Quiet (s.arm c limit ready) := by
  have hu : s.Quiet ((s.setReady c ready).setContext c
      { (s.setReady c ready).context c with timer := some ⟨limit, 0⟩, readySeen := false }) :=
    after (setContext_same rfl rfl rfl) (setReady s c ready)
  unfold State.arm
  dsimp only
  split
  · exact hu.trans (takeRise _ c)
  · exact hu

theorem readyRise (s : State) (c : Chip) : s.Quiet (s.readyRise c) := by
  unfold State.readyRise
  dsimp only
  split
  · exact (setReady s c true).trans (takeRise _ c)
  · exact setReady s c true

theorem commandEnd (s : State) (ready : Bool) : s.Quiet (s.commandEnd ready) := by
  unfold State.commandEnd
  dsimp only
  split
  · exact refl s
  · split <;> exact (endTenure s _ _).trans (arm _ _ _ _)

theorem loadingEnd (s : State) (ready : Bool) : s.Quiet (s.loadingEnd ready) := by
  unfold State.loadingEnd
  dsimp only
  split
  · exact refl s
  · next c _ =>
    split
    · exact refl s
    · next e hce =>
      obtain ⟨r, hr, -⟩ := Option.bind_eq_some_iff.1 hce
      have hu : ∀ cs (x : Context), x.clearReply = (s.context c).clearReply →
          s.Quiet (((s.endTenure true cs).updateEntry e.ref Entry.sectorDone).setContext c x) := fun cs x hx => by
        have hsame : ((s.endTenure true cs).updateEntry e.ref Entry.sectorDone).context c = s.context c :=
          State.context_endTenure s true cs c
        exact ((endTenure s true cs).trans (updateEntry _ _ _)).trans
          (setContext_of_not_clears (State.not_clears_of_entry (by rw [hsame]; exact hr)) (.inr (by rw [hsame]; exact hx)))
      split
      · exact after (arm _ _ _ _) (hu _ _ rfl)
      · exact hu _ _ rfl

theorem loadSectorEnd {l : Load} (hl : s.startup.load = some l) (raw : List Byte) : s.Quiet (s.loadSectorEnd l raw) := by
  have hidle : ∀ cs, s.Quiet ((s.endTenure false cs).setContext .s1 Context.idle) := fun cs =>
    (endTenure s false cs).trans
      (setContext_of_not_clears (State.not_clears_of_load (l := l) (by simpa using hl) _) (.inl rfl))
  exact after (copyEnded (l := l) (by simpa [State.setStartup] using hl) _ _)
    (after (setStartup_same rfl rfl) ((hidle _).trans (setEcc _ _ _)))

theorem unloadingEnd (s : State) (bytes : List Byte) : s.Quiet (s.unloadingEnd bytes) := by
  unfold State.unloadingEnd
  dsimp only
  split
  · exact refl s
  · next c _ =>
    split
    · next e hce =>
      obtain ⟨r, hr, -⟩ := Option.bind_eq_some_iff.1 hce
      have hu : ∀ cs n x l j d f,
          s.Quiet ((({ s.endTenure false cs with fresh := n, ecc := x } : State).stage l j d).updateEntry e.ref f) := fun cs n x l j d f =>
        (((endTenure s false cs).trans (setEcc _ n x)).trans (stage _ l j d)).trans (updateEntry _ _ f)
      have hv : ∀ cs n x l j d f k, s.Quiet (((({ s.endTenure false cs with fresh := n, ecc := x } : State).stage l j
          d).updateEntry e.ref f).setContext c { s.context c with left := k }) := fun cs n x l j d f k => by
        have hsame : ((({ s.endTenure false cs with fresh := n, ecc := x } : State).stage l j d).updateEntry
            e.ref f).context c = s.context c := State.context_endTenure s false cs c
        exact (hu cs n x l j d f).trans (setContext_same (by rw [hsame]) (by rw [hsame]) (by rw [hsame]))
      split
      · exact (hv _ _ _ _ _ _ _ _).trans (endOperation (x := r) (by
          rw [State.context_setContext, if_pos rfl]
          exact hr) _ _)
      · exact hv _ _ _ _ _ _ _ _
    · next hl =>
      split
      · exact loadSectorEnd hl _
      · exact refl s
    · exact refl s

theorem autoRetire (s : State) (c : Chip) (block : Nat) : s.Quiet (s.autoRetire c block).1 := by
  rw [State.autoRetire_only]
  exact of_eq rfl rfl rfl rfl rfl rfl rfl rfl

theorem statusEnd (s : State) (b : Byte) : s.Quiet (s.statusEnd b) := by
  unfold State.statusEnd
  dsimp only
  split
  · exact refl s
  · next c _ =>
    split
    · exact refl s
    · next e hce =>
      obtain ⟨r, hr, -⟩ := Option.bind_eq_some_iff.1 hce
      have hr : ((s.endTenure false (statusCycles b)).context c).entry = some r := by
        rwa [State.context_endTenure]
      have hu := endTenure s false (statusCycles b)
      split
      · refine ((hu.trans (autoRetire _ c e.block)).trans (endOperation (x := r) ?_ _ _)).trans (postSome _ _)
        rw [State.autoRetire_only]
        exact hr
      · exact hu.trans (endOperation hr _ _)

theorem idEnd (s : State) (bytes : List Byte) : s.Quiet (s.idEnd bytes) := by
  unfold State.idEnd
  dsimp only
  split
  · exact refl s
  · split
    · exact refl s
    · next hce =>
      obtain ⟨r, hr, -⟩ := Option.bind_eq_some_iff.1 hce
      refine ((stage s _ _ _).trans (endTenure _ _ _)).trans (endOperation (x := r) ?_ _ _)
      rw [State.context_endTenure]
      exact hr

theorem resetEnd (s : State) (ready : Bool) : s.Quiet (s.resetEnd ready) := by
  unfold State.resetEnd
  dsimp only
  split
  · exact refl s
  · exact after (arm _ _ _ _) (after (setContext_same rfl rfl rfl) (endTenure s _ _))

theorem busyTimeout (s : State) (c : Chip) : s.Quiet (s.busyTimeout c) := by
  unfold State.busyTimeout
  dsimp only
  split
  · next hbusy _ _ _ =>
    have hstate : ∀ r, ((s.complete r .nandTimeout).context c).state ≠ .clearing := fun r => by
      rw [State.context, State.complete_nand, ← State.context, hbusy]
      nofun
    exact after (post _ _ _)
      (after (setContext_of_not_clears (State.not_clears_of_state (hstate _)) (.inr rfl)) (complete s _ _))
  · exact refl s

theorem recoveryExpiry (s : State) (c : Chip) : s.Quiet (s.recoveryExpiry c) := by
  unfold State.recoveryExpiry
  dsimp only
  split
  · next h =>
    have hstate : (s.context c).state ≠ .clearing := by simp [h.1]
    have hidle : (s.setHealth c .stalled).Quiet ((s.setHealth c .stalled).setContext c Context.idle) :=
      setContext_of_not_clears (State.not_clears_of_state (s := s.setHealth c .stalled) hstate) (.inl rfl)
    exact (((setHealth s _ fun hs => hs.no_clearReply (State.not_clears_of_state hstate)).trans hidle).trans
      (flush _ _)).trans (postBoth _ _)
  · exact refl s

theorem clearExpiry (s : State) (c : Chip) : s.Quiet (s.clearExpiry c) := by
  unfold State.clearExpiry
  split
  · exact endClear s c _ _
  · exact refl s

theorem loadTimeout (s : State) : s.Quiet s.loadTimeout := by
  unfold State.loadTimeout
  dsimp only
  split
  · next l _ hl _ =>
    split
    · exact loadResetDone hl
    · have hcontext : s.Quiet (s.setContext .s1 (s.context .s1).recover) :=
        setContext_of_not_clears (State.not_clears_of_load hl _) (.inr rfl)
      exact after (postBoth _ _)
        (after (setStartup (fun hnone => absurd (hl.symm.trans hnone) nofun) .inl fun hrun _ => hrun) hcontext)
    · exact refl s
  · exact refl s

/-! ### The clock -/

theorem tick (s : State) : s.Quiet s.tick := by
  have hports : s.Quiet { s with now := s.now + 1, ports := ⟨s.ports.a.tick, s.ports.b.tick⟩ } :=
    of_ports (fun p => by cases p <;> exact ⟨rfl, rfl, rfl⟩)
      (fun h => h.congr rfl (fun p hd => by cases p <;> exact hd) fun p => by cases p <;> rfl) rfl rfl rfl rfl rfl fun _ hp => hp
  have hcounts : s.Quiet
      { s with now := s.now + 1, ports := ⟨s.ports.a.tick, s.ports.b.tick⟩, sdram := s.sdram.tick } :=
    after (setSdram_same (s := { s with now := s.now + 1, ports := ⟨s.ports.a.tick, s.ports.b.tick⟩ }) rfl rfl id rfl) hports
  unfold State.tick
  dsimp only
  split
  · refine hcounts.trans (of_deferred rfl rfl rfl rfl fun ⟨hset, hsleep, hwait, hclear⟩ =>
      ⟨⟨hset, hsleep, hwait, fun c => ?_⟩, fun _ => rfl⟩)
    cases c
    · exact hclear .s1
    · exact hclear .s2
    · exact hclear .s3
    · exact hclear .s4
  · exact hcounts

end State.Quiet

end Sys2Proof.Machine
end

section
/-! The laws of the answers (R156, R159, R160, R174, R175, R170, R184): quiet changes keep them, an answer takes a free slot, a
frame that has left gives its own back, and the resets start them anew. -/
namespace Sys2Proof.Machine

variable {s t : State} {p : Port} {i : Item} {rest : List Item}

/-- The laws of notices, control reply slots, deferred replies and start-up. -/
structure State.AnswerLaws (s : State) : Prop where
  notice : s.NoticeLaw
  slot : s.SlotLaw
  deferred : s.DeferredLaw
  starting : s.StartingLaw

/-- An answer that holds a slot is no notice. -/
theorem Item.isNotice_of_holdsSlot (h : i.holdsSlot = true) : i.isNotice = false := by
  cases i with
  | refusal | ctrl => rfl
  | entryReply | notice => cases h

theorem deferredOf_some (q p : Port) (token : Byte) : deferredOf q (some ⟨p, token⟩) = if q = p then 1 else 0 :=
  if_congr eq_comm rfl rfl

theorem deferredOf_dropFor (q p : Port) (x : Option Deferred) :
    deferredOf q (dropFor p x) = if q = p then 0 else deferredOf q x := by
  cases x with
  | none => simp [dropFor, deferredOf]
  | some d =>
    by_cases hd : d.port = p
    · by_cases hq : q = p
      · simp [dropFor, deferredOf, hd, hq]
      · simp [dropFor, deferredOf, hd, hq, Ne.symm hq]
    · by_cases hq : q = p
      · simp [dropFor, deferredOf, hd, hq]
      · simp [dropFor, deferredOf, hd, hq]

theorem isSome_of_dropFor {x : Option Deferred} (h : (dropFor p x).isSome) : x.isSome := by
  cases x with
  | none => exact h
  | some d => rfl

theorem State.port_answer (s : State) (p q : Port) (i : Item) : (s.answer p i).port q =
    if q = p then { s.port p with held := (s.port p).held + 1, ready := (s.port p).ready ++ [i] } else s.port q := by
  simp only [State.answer, State.holdSlot, State.pushReady, State.port_setPort, if_true]
  split <;> rfl

/-- What a port reset leaves of a port unit (R180). -/
theorem State.port_cleared (s : State) (p q : Port) (cause : PortStart) :
    (s.cleared p cause).port q = if q = p then (s.port p).reset cause else s.port q :=
  s.port_setPort p q _

theorem State.context_cleared (s : State) (p : Port) (cause : PortStart) (c : Chip) :
    (s.cleared p cause).context c = (s.context c).dropReply p := by cases c <;> rfl

theorem State.deferredCount_cleared (s : State) (p q : Port) (cause : PortStart) :
    (s.cleared p cause).deferredCount q = if q = p then 0 else s.deferredCount q := by
  have hcount : (s.cleared p cause).deferredCount q =
      deferredOf q (dropFor p s.sdram.setReply) + deferredOf q (dropFor p s.sdram.sleepReply) +
        deferredOf q (dropFor p s.nand.s1.clearReply) + deferredOf q (dropFor p s.nand.s2.clearReply) +
        deferredOf q (dropFor p s.nand.s3.clearReply) + deferredOf q (dropFor p s.nand.s4.clearReply) := rfl
  rw [hcount]
  simp only [deferredOf_dropFor]
  split <;> rfl

theorem State.entries_cleared (s : State) (p q : Port) (cause : PortStart) (h : s.entries q = []) :
    (s.cleared p cause).entries q = [] := by
  have hentries : (s.cleared p cause).entries q =
      if q = p then (s.entries p).filterMap Entry.afterPortReset else s.entries q := State.entries_setEntries _ p q _
  rw [hentries]
  split
  · next hq => rw [← hq, h]; rfl
  · exact h

/-- The item at the front of a ready list, which is no notice, leaves it (R176). -/
theorem State.NoticeLaw.setPort_tail (h : s.NoticeLaw) (hready : (s.port p).ready = i :: rest) (hi : i.isNotice = false)
    {u : PortUnit} (hstate : u.state = (s.port p).state) (hrest : u.ready = rest) : (s.setPort p u).NoticeLaw := by
  refine h.congr rfl (fun q hd => ?_) fun q => ?_
  · rw [State.port_setPort] at hd
    split at hd
    · next hq => rw [hq, ← hstate]; exact hd
    · exact hd
  · rw [State.port_setPort]
    split
    · next hq => simp [hrest, hq, hready, hi]
    · rfl

namespace State.AnswerLaws

theorem quiet (h : s.AnswerLaws) (g : s.Quiet t) : t.AnswerLaws where
  notice := g.notice h.notice
  slot q := by
    obtain ⟨hheld, hle⟩ := h.slot q
    have howed : t.owed q = s.owed q := (g.deferred h.deferred).2 q
    rw [g.held]
    exact ⟨hheld.trans howed.symm, hle⟩
  deferred := (g.deferred h.deferred).1
  starting := g.starting h.starting

/-! ### Slots taken and given back -/

/-- A free slot is taken for one more answer or deferred reply (R174, R175). -/
theorem takeSlot (h : s.AnswerLaws) (hroom : (s.port p).held < 8)
    (hheld : ∀ q, (t.port q).held = (s.port q).held + if q = p then 1 else 0)
    (howed : ∀ q, t.owed q = s.owed q + if q = p then 1 else 0) : t.SlotLaw := fun q => by
  obtain ⟨heq, hle⟩ := h.slot q
  refine ⟨?_, ?_⟩
  · have hs : (s.port q).held = s.owed q := heq
    rw [hheld, hs, ← howed]
    rfl
  · rw [hheld]
    split
    · next hq => rw [hq]; omega
    · exact hle

theorem answer (h : s.AnswerLaws) (hroom : (s.port p).held < 8) (hi : i.holdsSlot = true) : (s.answer p i).AnswerLaws where
  notice := by
    refine h.notice.congr (by simp) (fun q hd => ?_) fun q => ?_
    · rw [State.port_answer] at hd
      split at hd
      · next hq => rw [hq]; exact hd
      · exact hd
    · rw [State.port_answer]
      split
      · next hq => simp [hq, Item.isNotice_of_holdsSlot hi]
      · rfl
  slot := by
    refine h.takeSlot hroom (fun q => ?_) fun q => ?_
    · rw [State.port_answer]
      split
      · next hq => rw [hq]
      · rfl
    · have hcount : (s.answer p i).deferredCount q = s.deferredCount q :=
        State.deferredCount_congr (by simp) (by simp) (fun c => by simp [State.context]) q
      rw [State.owed, State.owed, hcount, State.port_answer]
      split
      · next hq =>
        simp only [PortUnit.answers, List.countP_append, List.countP_singleton, hi, if_true, hq]
        omega
      · rfl
  deferred := h.deferred.congr (by simp) (by simp) (by simp) (by simp) fun hl => by simpa using hl
  starting := by
    refine h.starting.congr (by simp) (fun q hd => ?_) fun q hq => (State.entries_of_table (by simp) q).trans hq
    rw [State.port_answer]
    split
    · next hq => rw [← hq]; exact hd
    · exact hd

theorem slotAnswer (h : s.AnswerLaws) (hi : i.holdsSlot = true) : (s.slotAnswer p i).AnswerLaws := by
  unfold State.slotAnswer State.slotFree
  split
  · next hfree => exact h.answer (of_decide_eq_true hfree) hi
  · exact h.quiet (.overrun s p)

/-- One more reply is deferred, in a free slot (R175). -/
theorem deferReply (h : s.AnswerLaws) (hroom : (s.port p).held < 8) (hports : t.ports = s.ports)
    (hnotices : t.notices = s.notices) (hstartup : t.startup = s.startup) (htable : t.table = s.table)
    (hdeferred : t.DeferredLaw) (hcount : ∀ q, t.deferredCount q = s.deferredCount q + if q = p then 1 else 0) :
    (t.holdSlot p).AnswerLaws := by
  have hport : ∀ q, (t.holdSlot p).port q = if q = p then { s.port p with held := (s.port p).held + 1 } else s.port q :=
    fun q => by
      have hsame : ∀ x, t.port x = s.port x := fun x => by simp only [State.port, hports]
      rw [State.holdSlot, State.port_setPort, hsame, hsame]
  have hstate : ∀ q, ((t.holdSlot p).port q).state = (s.port q).state := fun q => by
    rw [hport]
    split
    · next hq => rw [hq]
    · rfl
  have hready : ∀ q, ((t.holdSlot p).port q).ready = (s.port q).ready := fun q => by
    rw [hport]
    split
    · next hq => rw [hq]
    · rfl
  refine ⟨h.notice.congr (by simpa using hnotices) (fun q hd => hstate q ▸ hd) fun q => by rw [hready],
    h.takeSlot hroom (fun q => ?_) fun q => ?_,
    hdeferred.congr (by simp) (by simp) (by simp) (by simp) fun hl => by simpa using hl,
    h.starting.congr (by simpa using hstartup) (fun q hd => (hstate q).trans hd)
      fun q hq => (State.entries_of_table (by simpa using htable) q).trans hq⟩
  · rw [hport]
    split
    · next hq => rw [hq]
    · rfl
  · have hsame : (t.holdSlot p).deferredCount q = t.deferredCount q := rfl
    rw [State.owed, State.owed, hsame, hcount, PortUnit.answers, hready, PortUnit.answers, Nat.add_assoc]

/-- An answer that has left TXD gives its slot back (R174). -/
theorem giveSlot (h : s.AnswerLaws) (hready : (s.port p).ready = i :: rest) (hi : i.holdsSlot = true) {u : PortUnit}
    (hstate : u.state = (s.port p).state) (hrest : u.ready = rest) (hheld : u.held = (s.port p).held - 1) :
    (s.setPort p u).AnswerLaws where
  notice := h.notice.setPort_tail hready (Item.isNotice_of_holdsSlot hi) hstate hrest
  slot q := by
    obtain ⟨heq, hle⟩ := h.slot q
    have hsame : (s.setPort p u).deferredCount q = s.deferredCount q := rfl
    rw [State.port_setPort, hsame]
    split
    · next hq =>
      subst hq
      rw [hready, List.countP_cons_of_pos hi] at heq
      rw [hrest, hheld]
      omega
    · exact ⟨heq, hle⟩
  deferred := h.deferred.congr rfl rfl rfl rfl id
  starting := by
    refine h.starting.congr rfl (fun q hd => ?_) fun _ hq => hq
    rw [State.port_setPort]
    split
    · next hq => rw [hstate, ← hq]; exact hd
    · exact hd

/-! ### Resets -/

/-- A full reset leaves no notice, no slot held and no reply owed; a load that it begins runs in STARTING (R184). -/
theorem fullReset (s : State) (cause : Cause) (pins : Pins) : (s.fullReset cause pins).AnswerLaws where
  notice q := by cases q <;> exact ⟨Nat.zero_le _, Nat.zero_le _, rfl, fun _ => rfl, fun _ => rfl, nofun⟩
  slot q := by
    have hcontext : (Context.boot pins.boot).clearReply = none := by
      unfold Context.boot
      split <;> rfl
    have hcount : (s.fullReset cause pins).deferredCount q = deferredOf q (Context.boot pins.boot).clearReply := by
      exact (Nat.zero_add _ :)
    rw [hcount, hcontext]
    cases q <;> exact ⟨rfl, Nat.zero_le _⟩
  deferred := by
    refine ⟨nofun, nofun, fun c hc => ?_, fun c hc => ?_⟩
    · cases c with
      | s1 => exact (Profile.boot_legal pins.boot).waitLimit_of_nand hc
      | s2 | s3 | s4 => rfl
    · cases c with
      | s1 =>
        have hboot : (Context.boot pins.boot).clearReply.isSome := hc
        unfold Context.boot at hboot
        split at hboot <;> cases hboot
      | s2 | s3 | s4 => cases hc
  starting := by
    rw [State.StartingLaw, State.fullReset_startup]
    refine ⟨fun hrun => ?_, fun _ q => by cases q <;> exact ⟨rfl, rfl⟩⟩
    have hboot : pins.boot.toNat = 0 := by
      by_contra hne
      simp [Startup.afterReset, hne] at hrun
    simp [Startup.afterReset, hboot]

/-- A port reset drops what the port is owed and frees its slots (R175, R180). -/
theorem cleared (h : s.AnswerLaws) (p : Port) (cause : PortStart) : (s.cleared p cause).AnswerLaws where
  notice := State.noticeLaw_iff.2 fun q => by
    have hnotices : (s.cleared p cause).notices.get q =
        if q = p then (s.notices.get p).reset else s.notices.get q := ByPort.get_set _ _ _ _
    rw [hnotices, State.port_cleared]
    split
    · exact ⟨⟨Nat.zero_le _, Nat.zero_le _, rfl, fun _ => rfl, nofun⟩, fun _ => rfl⟩
    · exact ⟨h.notice.waits q, h.notice.idle q⟩
  slot q := by
    rw [State.port_cleared, State.deferredCount_cleared]
    split
    · exact ⟨rfl, Nat.zero_le _⟩
    · exact h.slot q
  deferred := by
    obtain ⟨hset, hsleep, hwait, hclear⟩ := h.deferred
    refine ⟨fun hd => hset (isSome_of_dropFor hd), fun hd => hsleep (isSome_of_dropFor hd), hwait, fun c hd => ?_⟩
    rw [State.context_cleared] at hd ⊢
    exact hclear c (isSome_of_dropFor hd)
  starting := h.starting.congr rfl (fun q hd => by
    rw [State.port_cleared]
    split
    · rfl
    · exact hd) fun q hq => s.entries_cleared p q cause hq

theorem portResetStep (h : s.AnswerLaws) (p : Port) (cause : PortStart) : (s.portResetStep p cause).AnswerLaws := by
  refine quiet ?_ (.examineHeads _)
  rw [State.portReset_eq]
  split
  · exact fullReset _ _ _
  · exact (h.cleared p cause).quiet (.post _ _ _)

theorem breakTaken (h : s.AnswerLaws) (p : Port) : (s.breakTaken p).AnswerLaws := by
  unfold State.breakTaken
  dsimp only
  split
  · exact h
  · have hlow := (h.quiet (.setRxd s p false)).quiet
      (.setPort_same (u := { (s.setRxd p false).port p with receiver := .inBreak }) _ p rfl rfl rfl)
    split
    · exact hlow.portResetStep p _
    · exact hlow

/-! ### A frame has left -/

/-- The notice that has left makes room for the next (R159, R161). -/
theorem noticeSent (h : s.AnswerLaws) {n : BitVec 16} {x : Notice} (hready : (s.port p).ready = .notice n x :: rest)
    {u : PortUnit} (hstate : u.state = (s.port p).state) (hrest : u.ready = rest) (hheld : u.held = (s.port p).held) :
    (((s.setPort p u).setNotices p
      { s.notices.get p with onList := (s.notices.get p).onList - 1 }).moveNotice p).AnswerLaws := by
  have hslots : (s.port p).SameSlots u := ⟨hstate, hheld, by
    rw [PortUnit.answers, PortUnit.answers, hready, hrest]
    exact (List.countP_cons_of_neg (by simp [Item.holdsSlot])).symm⟩
  refine h.quiet (State.Quiet.of_ports (fun q => (s.setPort_sameSlots p q hslots).trans
    (State.moveNotice_sameSlots ((s.setPort p u).setNotices p _) p q)) (fun hnotice => ?_) (State.moveNotice_sdram _ _)
    (State.moveNotice_nand _ _) (State.moveNotice_health _ _) (congrArg Arbiter.profiles (State.moveNotice_arbiter _ _))
    (State.moveNotice_startup _ _) fun q hq => (State.entries_of_table (State.moveNotice_table _ _) q).trans hq)
  refine State.moveNotice_law (fun q hq => ?_) ?_
  · rw [State.notices_setNotices, if_neg hq, State.port_setNotices, State.port_setPort, if_neg hq]
    exact ⟨hnotice.waits q, hnotice.idle q⟩
  · rw [State.notices_setNotices, if_pos rfl, State.port_setNotices, State.port_setPort, if_pos rfl]
    obtain ⟨hqueued, hlisted, hcounted, hdown, hlost⟩ := hnotice.waits p
    refine ⟨hqueued, by dsimp only; omega, ?_, fun hd => hdown (hstate ▸ hd), hlost⟩
    rw [hready, List.countP_cons_of_pos rfl] at hcounted
    rw [hrest]
    dsimp only
    omega

theorem frameSent (h : s.AnswerLaws) (p : Port) : (s.frameSent p).AnswerLaws := by
  unfold State.frameSent
  split
  · next i rest _ hready =>
    have hsent : ∀ i' : Item, (s.port p).ready = i' :: rest → i'.holdsSlot = true →
        ((s.setPort p { s.port p with tx := none, ready := rest }).setPort p
          { (s.setPort p { s.port p with tx := none, ready := rest }).port p with
            held := ((s.setPort p { s.port p with tx := none, ready := rest }).port p).held - 1 }).AnswerLaws :=
      fun i' hready hi => by
        rw [State.setPort_setPort, State.port_setPort, if_pos rfl]
        exact h.giveSlot hready hi rfl rfl rfl
    cases i with
    | entryReply tag =>
      refine (h.quiet (.setPort (u := { s.port p with tx := none, ready := rest }) s p ⟨rfl, rfl, ?_⟩ ?_)).quiet
        (.freeEntry _ _)
      · rw [PortUnit.answers, PortUnit.answers, hready]
        exact (List.countP_cons_of_neg (by simp [Item.holdsSlot])).symm
      · rw [hready]
        exact (List.countP_cons_of_neg (by simp [Item.isNotice])).symm
    | refusal tag st => exact hsent _ hready rfl
    | ctrl token k st body =>
      unfold State.itemSent
      dsimp only
      split
      · exact fullReset _ _ _
      · exact hsent _ hready rfl
    | notice n x => exact h.noticeSent hready (u := { s.port p with tx := none, ready := rest }) rfl rfl rfl
  · exact h

end State.AnswerLaws

end Sys2Proof.Machine
end

section
/-! The laws of the answers through every message and every step: a request is admitted or refused, a control message is
answered in the slot that its port has free, and all else is quiet (R170, R174, R175). -/
namespace Sys2Proof.Machine

variable {s t : State} {p : Port}

/-- Where a control message reaches its owner: in RUNNING, with a control reply slot of its port free (R170, R174). -/
structure State.Owns (s : State) (p : Port) : Prop where
  laws : s.AnswerLaws
  free : (s.port p).held < 8
  running : s.startup.top = .running

namespace State.Owns

/-- What is quiet may come before the answer. -/
theorem replyAfter (h : s.Owns p) (g : s.Quiet t) (token : Byte) (k : CtrlKind) (st : Status) (body : List Byte) :
    (t.reply p token k st body).AnswerLaws :=
  (h.laws.quiet g).answer (by rw [g.held]; exact h.free) rfl

theorem reply (h : s.Owns p) (token : Byte) (k : CtrlKind) (st : Status) (body : List Byte) :
    (s.reply p token k st body).AnswerLaws :=
  h.replyAfter (.refl s) token k st body

theorem winSetAct (h : s.Owns p) (d : List Byte) : (s.winSetAct p d).AnswerLaws := by
  unfold State.winSetAct
  dsimp only
  split
  · exact h.replyAfter (.setWindow s _ _) _ _ _ _
  · exact h.reply _ _ _ _

theorem winGetAct (h : s.Owns p) (d : List Byte) : (s.winGetAct p d).AnswerLaws := by
  unfold State.winGetAct
  split <;> exact h.reply _ _ _ _

theorem slotSetAct (h : s.Owns p) (d : List Byte) : (s.slotSetAct p d).AnswerLaws := by
  unfold State.slotSetAct
  split
  · next hj => exact h.replyAfter (.applySlot hj) _ _ _ _
  · exact h.reply _ _ _ _

theorem slotGetAct (h : s.Owns p) (d : List Byte) : (s.slotGetAct p d).AnswerLaws := by
  unfold State.slotGetAct
  split <;> exact h.reply _ _ _ _

/-- The clear of a STALLED slot owes its reply from here on; no earlier clear of the slot can still owe one (R137). -/
theorem beginClear (h : s.Owns p) {c : Chip} (token : Byte) (htype : (s.profile c).type = .nand)
    (hstalled : s.health.get c = .stalled) : (s.beginClear p c token).AnswerLaws := by
  have hnone : (s.context c).clearReply = none :=
    h.laws.deferred.no_clearReply fun ⟨_, _, hh, _⟩ => by simp [hstalled] at hh
  have hload : s.startup.load = none := h.laws.starting.1 h.running
  refine h.laws.deferReply h.free rfl rfl rfl rfl ?_ fun q => ?_
  · obtain ⟨hset, hsleep, hwait, hclear⟩ := h.laws.deferred
    refine ⟨hset, hsleep, hwait, fun d hd => ?_⟩
    rw [State.context_setContext] at hd ⊢
    split at hd
    · next hdc =>
      subst hdc
      rw [if_pos rfl]
      exact ⟨rfl, rfl, by simp [State.setHealth], htype, hload⟩
    · next hdc =>
      obtain ⟨hstate, hentry, hhealth, hrest⟩ := hclear d hd
      rw [if_neg hdc]
      refine ⟨hstate, hentry, ?_, hrest⟩
      rw [State.setContext_health, State.setHealth, ByChip.get_set, if_neg hdc]
      exact hhealth
  · have hcount := (s.setHealth c .clearing).deferredCount_setContext c
      { Context.idle with state := .clearing, op := some .reset, clearReply := some ⟨p, token⟩ } q
    have hsame : ((s.setHealth c .clearing).context c).clearReply = none := hnone
    rw [hsame, deferredOf_some] at hcount
    exact hcount

theorem slotClearAct (h : s.Owns p) (d : List Byte) : (s.slotClearAct p d).AnswerLaws := by
  unfold State.slotClearAct
  dsimp only
  split
  · exact h.reply _ _ _ _
  · split
    · next htype =>
      split
      · exact h.reply _ _ _ _
      · exact h.reply _ _ _ _
      · next hstalled => exact h.beginClear _ htype hstalled
    · next htype =>
      exact h.replyAfter (.setHealth s _ fun hs => hs.no_clearReply fun ⟨_, _, _, hnand, _⟩ => htype hnand) _ _ _ _

/-- An accepted SDR-SET finds no other one unanswered (R95). -/
theorem sdrSetAct (h : s.Owns p) (d : List Byte) : (s.sdrSetAct p d).AnswerLaws := by
  unfold State.sdrSetAct
  split
  · next g hj =>
    have hnone := h.laws.deferred.no_setReply (State.judgeSdr_idle hj).1
    refine h.laws.deferReply h.free rfl rfl rfl rfl ?_ fun q => ?_
    · obtain ⟨-, hsleep, hwait, hclear⟩ := h.laws.deferred
      exact ⟨fun _ => rfl, hsleep, hwait, hclear⟩
    · simp only [State.deferredCount, State.applySdr, State.setSdram, hnone, deferredOf_some]
      simp only [deferredOf]
      omega
  · exact h.reply _ _ _ _

/-- An accepted SDR-SLEEP finds no other one pending (R104). -/
theorem sdrSleepAct (h : s.Owns p) (d : List Byte) : (s.sdrSleepAct p d).AnswerLaws := by
  have hawake : (if s.sdram.sleepPending || !(s.queue .sd).isEmpty then s.reply p (answerToken d) .sdrSleep .busy []
      else ((s.setSdram { s.sdram with sleepPending := true, sleepReply := some ⟨p, answerToken d⟩ }).holdSlot
        p).wakeIfDue).AnswerLaws := by
    split
    · exact h.reply _ _ _ _
    · next hbusy =>
      rw [Bool.or_eq_true, not_or, Bool.not_eq_true] at hbusy
      have hnone := h.laws.deferred.no_sleepReply hbusy.1
      refine AnswerLaws.quiet ?_ (.wakeIfDue _)
      refine h.laws.deferReply h.free rfl rfl rfl rfl ?_ fun q => ?_
      · obtain ⟨hset, -, hwait, hclear⟩ := h.laws.deferred
        exact ⟨hset, fun _ => rfl, hwait, hclear⟩
      · simp only [State.deferredCount, State.setSdram, hnone, deferredOf_some]
        simp only [deferredOf]
        omega
  unfold State.sdrSleepAct
  dsimp only
  split
  · exact h.reply _ _ _ _
  · exact h.reply _ _ _ _
  · exact h.reply _ _ _ _
  · exact hawake
  · exact hawake

theorem retireAddAct (h : s.Owns p) (d : List Byte) : (s.retireAddAct p d).AnswerLaws := by
  unfold State.retireAddAct
  dsimp only
  split
  · refine h.replyAfter ?_ _ _ _ _
    split
    · exact .refl s
    · exact (Quiet.setRetired s _ _).trans (.examine _ _)
  · exact h.reply _ _ _ _

theorem retireDropAct (h : s.Owns p) (d : List Byte) : (s.retireDropAct p d).AnswerLaws := by
  unfold State.retireDropAct
  dsimp only
  split
  · exact h.reply _ _ _ _
  · split
    · exact h.replyAfter (.setRetired s _ _) _ _ _ _
    · exact h.reply _ _ _ _

theorem retireListAct (h : s.Owns p) (d : List Byte) : (s.retireListAct p d).AnswerLaws := by
  unfold State.retireListAct
  split <;> exact h.reply _ _ _ _

theorem cancelAct (h : s.Owns p) (d : List Byte) : (s.cancelAct p d).AnswerLaws := by
  unfold State.cancelAct
  dsimp only
  split
  · exact h.reply _ _ _ _
  · split
    · exact h.replyAfter (.cancelEntry s _) _ _ _ _
    · exact h.replyAfter (.cancelEntry s _) _ _ _ _
    · exact h.reply _ _ _ _
    · exact h.reply _ _ _ _
    · exact h.reply _ _ _ _

theorem bridgeResetAct (h : s.Owns p) (d : List Byte) : (s.bridgeResetAct p d).AnswerLaws := by
  unfold State.bridgeResetAct
  split
  · exact h.replyAfter (t := { s with bridgeReset := some p }) (.of_eq rfl rfl rfl rfl rfl rfl rfl rfl) _ _ _ _
  · exact h.reply _ _ _ _

/-- A DOWN port becomes UP, with no notice waiting, and answers (R171). -/
theorem helloDown (h : s.Owns p) (seq : Byte) (d : List Byte) : (s.helloDown p seq d).AnswerLaws := by
  have hready : ∀ q, ((s.setPort p { s.port p with state := .up, expected := some (seq + 1) }).port q).ready =
      (s.port q).ready := fun q => by
    rw [State.port_setPort]
    split
    · next hq => rw [hq]
    · rfl
  have hheld : ∀ q, ((s.setPort p { s.port p with state := .up, expected := some (seq + 1) }).port q).held =
      (s.port q).held := fun q => by
    rw [State.port_setPort]
    split
    · next hq => rw [hq]
    · rfl
  refine AnswerLaws.answer ⟨?_, fun q => ?_, h.laws.deferred.congr rfl rfl rfl rfl id,
    h.laws.starting.1, fun htop => absurd h.running htop⟩ (by rw [hheld]; exact h.free) rfl
  · refine h.laws.notice.congr rfl (fun q hd => ?_) fun q => by rw [hready]
    rw [State.port_setPort] at hd
    split at hd
    · cases hd
    · exact hd
  · rw [hheld, hready]
    exact h.laws.slot q

end State.Owns

namespace State.AnswerLaws

/-! ### Messages -/

theorem settle (h : s.AnswerLaws) : s.settle.AnswerLaws := h.quiet (.settle s)

theorem takeMessage (h : s.AnswerLaws) {p : Port} {kind seq : Byte} {d : List Byte} {deal : State → State}
    (hdeal : ∀ {u : State}, u.AnswerLaws → (deal u).AnswerLaws) : (s.takeMessage p kind seq d deal).settle.AnswerLaws := by
  refine settle ?_
  unfold State.takeMessage
  split
  · exact h
  · exact hdeal (h.quiet (.takeFrame s p seq))

theorem dealRequest (h : s.AnswerLaws) (k : ReqKind) (p : Port) (d : List Byte) : (s.dealRequest k p d).AnswerLaws := by
  unfold State.dealRequest State.admitRequest
  split
  · exact h.slotAnswer rfl
  · exact h.slotAnswer rfl
  · next hrun _ =>
    split
    · exact h.slotAnswer rfl
    · split
      · exact h.quiet (.create _ _ hrun)
      · exact h.slotAnswer rfl

theorem dealControl (h : s.AnswerLaws) (k : CtrlKind) (p : Port) (d : List Byte) {owner : State → State}
    (howner : s.Owns p → (owner s).AnswerLaws) : (s.dealControl k p d owner).AnswerLaws := by
  unfold State.dealControl State.stopped
  split
  · exact h.slotAnswer rfl
  · exact h.slotAnswer rfl
  · next hrun _ =>
    by_cases hfree : s.slotFree p = true
    · have how : s.Owns p := ⟨h, of_decide_eq_true hfree, hrun⟩
      rw [if_neg (by simp [hfree])]
      split
      · next hstop =>
        split_ifs at hstop <;> obtain rfl := Option.some.inj hstop
        · exact how.reply _ _ _ _
        · exact how.reply _ _ _ _
      · exact howner how
    · rw [if_pos (by simpa using hfree)]
      exact h.quiet (.overrun s p)

theorem takeControl (h : s.AnswerLaws) (k : CtrlKind) (p : Port) (seq : Byte) (d : List Byte) {owner : State → State}
    (howner : ∀ {u : State}, u.Owns p → (owner u).AnswerLaws) : (s.takeControl k p seq d owner).settle.AnswerLaws :=
  h.takeMessage fun hu => hu.dealControl k p d howner

theorem dealHello (h : s.AnswerLaws) (p : Port) (seq : Byte) (d : List Byte) : (s.dealHello p seq d).AnswerLaws := by
  unfold State.dealHello
  split
  · next hrun _ =>
    split
    · exact h.slotAnswer rfl
    · split
      · next hfree => exact Owns.helloDown ⟨h, of_decide_eq_true hfree, hrun⟩ seq d
      · exact h.quiet (.overrun s p)
  · exact h.dealControl _ p d fun how => how.reply _ _ _ _

theorem dealPortReset (h : s.AnswerLaws) (p : Port) (d : List Byte) : (s.dealPortReset p d).AnswerLaws := by
  unfold State.dealPortReset
  split
  · exact h.slotAnswer rfl
  · exact h.slotAnswer rfl
  · split
    · exact h.slotAnswer rfl
    · exact h.portResetStep p _

/-! ### Every command, every step -/

theorem exec (h : s.AnswerLaws) (i : Instr) : ∃ t, Machine.exec i s = .next t ∧ t.AnswerLaws := by
  cases i with
  | powerOn pins => exact ⟨_, rfl, (fullReset s _ _).settle⟩
  | resetPin pins => exact ⟨_, rfl, (fullReset s _ _).settle⟩
  | characterReceived p c stop => exact ⟨_, rfl, (h.quiet (.character s p c stop)).settle⟩
  | frameGapTimeout p => exact ⟨_, rfl, (h.quiet (.gapTimeout s p)).settle⟩
  | linkBreak p => exact ⟨_, rfl, (h.breakTaken p).settle⟩
  | rxdRise p => exact ⟨_, rfl, (h.quiet (.rxdHigh s p)).settle⟩
  | holdChange p level =>
    exact ⟨_, rfl, (h.quiet (t := s.setHold p level) (.of_eq rfl rfl rfl rfl rfl rfl rfl rfl)).settle⟩
  | frameSent p => exact ⟨_, rfl, (h.frameSent p).settle⟩
  | read p seq d => exact ⟨_, rfl, h.takeMessage fun hu => hu.dealRequest .read p d⟩
  | write p seq d => exact ⟨_, rfl, h.takeMessage fun hu => hu.dealRequest .write p d⟩
  | cset p seq d => exact ⟨_, rfl, h.takeMessage fun hu => hu.dealRequest .cset p d⟩
  | swap p seq d => exact ⟨_, rfl, h.takeMessage fun hu => hu.dealRequest .swap p d⟩
  | fadd p seq d => exact ⟨_, rfl, h.takeMessage fun hu => hu.dealRequest .fadd p d⟩
  | pgRead p seq d => exact ⟨_, rfl, h.takeMessage fun hu => hu.dealRequest .pgRead p d⟩
  | pgProg p seq d => exact ⟨_, rfl, h.takeMessage fun hu => hu.dealRequest .pgProg p d⟩
  | blkErase p seq d => exact ⟨_, rfl, h.takeMessage fun hu => hu.dealRequest .blkErase p d⟩
  | nandId p seq d => exact ⟨_, rfl, h.takeMessage fun hu => hu.dealRequest .nandId p d⟩
  | hello p seq d => exact ⟨_, rfl, h.takeMessage fun hu => hu.dealHello p seq d⟩
  | info p seq d => exact ⟨_, rfl, h.takeControl .info p seq d fun hu => hu.reply _ _ _ _⟩
  | status p seq d => exact ⟨_, rfl, h.takeControl .status p seq d fun hu => hu.reply _ _ _ _⟩
  | winSet p seq d => exact ⟨_, rfl, h.takeControl .winSet p seq d fun hu => hu.winSetAct d⟩
  | winGet p seq d => exact ⟨_, rfl, h.takeControl .winGet p seq d fun hu => hu.winGetAct d⟩
  | slotSet p seq d => exact ⟨_, rfl, h.takeControl .slotSet p seq d fun hu => hu.slotSetAct d⟩
  | slotGet p seq d => exact ⟨_, rfl, h.takeControl .slotGet p seq d fun hu => hu.slotGetAct d⟩
  | slotClear p seq d => exact ⟨_, rfl, h.takeControl .slotClear p seq d fun hu => hu.slotClearAct d⟩
  | sdrSet p seq d => exact ⟨_, rfl, h.takeControl .sdrSet p seq d fun hu => hu.sdrSetAct d⟩
  | sdrGet p seq d => exact ⟨_, rfl, h.takeControl .sdrGet p seq d fun hu => hu.reply _ _ _ _⟩
  | sdrSleep p seq d => exact ⟨_, rfl, h.takeControl .sdrSleep p seq d fun hu => hu.sdrSleepAct d⟩
  | retireAdd p seq d => exact ⟨_, rfl, h.takeControl .retireAdd p seq d fun hu => hu.retireAddAct d⟩
  | retireDrop p seq d => exact ⟨_, rfl, h.takeControl .retireDrop p seq d fun hu => hu.retireDropAct d⟩
  | retireList p seq d => exact ⟨_, rfl, h.takeControl .retireList p seq d fun hu => hu.retireListAct d⟩
  | cancel p seq d => exact ⟨_, rfl, h.takeControl .cancel p seq d fun hu => hu.cancelAct d⟩
  | portReset p seq d => exact ⟨_, rfl, h.takeMessage fun hu => hu.dealPortReset p d⟩
  | bridgeReset p seq d => exact ⟨_, rfl, h.takeControl .bridgeReset p seq d fun hu => hu.bridgeResetAct d⟩
  | chunkEnd xs =>
    refine ⟨_, rfl, settle (h.quiet ?_)⟩
    split
    · exact .loadChunkEnd s xs
    · exact .chunkEnd s xs
  | atomicEnd xs => exact ⟨_, rfl, (h.quiet (.atomicEnd s xs)).settle⟩
  | waitLimitReached k xs => exact ⟨_, rfl, (h.quiet (.waitLimit s k xs)).settle⟩
  | nandCommandEnd ready => exact ⟨_, rfl, (h.quiet (.commandEnd s ready)).settle⟩
  | loadingTenureEnd ready => exact ⟨_, rfl, (h.quiet (.loadingEnd s ready)).settle⟩
  | unloadingTenureEnd bytes => exact ⟨_, rfl, (h.quiet (.unloadingEnd s bytes)).settle⟩
  | statusTenureEnd b => exact ⟨_, rfl, (h.quiet (.statusEnd s b)).settle⟩
  | idTenureEnd bytes => exact ⟨_, rfl, (h.quiet (.idEnd s bytes)).settle⟩
  | resetTenureEnd ready => exact ⟨_, rfl, (h.quiet (.resetEnd s ready)).settle⟩
  | nandReadyRise c => exact ⟨_, rfl, (h.quiet (.readyRise s c)).settle⟩
  | nandTimeout c => exact ⟨_, rfl, (h.quiet (.busyTimeout s c)).settle⟩
  | recoveryResetExpiry c => exact ⟨_, rfl, (h.quiet (.recoveryExpiry s c)).settle⟩
  | clearResetExpiry c => exact ⟨_, rfl, (h.quiet (.clearExpiry s c)).settle⟩
  | loadBusyTimeout => exact ⟨_, rfl, (h.quiet (.loadTimeout s)).settle⟩
  | refreshExpiry => exact ⟨_, rfl, (h.quiet (.refreshExpiry s)).settle⟩
  | refreshRoundEnd => exact ⟨_, rfl, (h.quiet (.refreshRoundEnd s)).settle⟩
  | powerdownEntry => exact ⟨_, rfl, (h.quiet (.enterPowerDown s)).settle⟩
  | selfRefreshTimer => exact ⟨_, rfl, (h.quiet (.selfRefreshReached s)).settle⟩
  | selfRefreshEntryEnd => exact ⟨_, rfl, (h.quiet (.selfRefreshEntryEnd s)).settle⟩
  | selfRefreshExitEnd => exact ⟨_, rfl, (h.quiet (.selfRefreshExitEnd s)).settle⟩
  | stabilisationWaitEnd => exact ⟨_, rfl, (h.quiet (.stabilised s)).settle⟩
  | prechargeStepEnd => exact ⟨_, rfl, (h.quiet (.prechargeStepEnd s)).settle⟩
  | refreshStepEnd => exact ⟨_, rfl, (h.quiet (.refreshStepEnd s)).settle⟩
  | modeStepEnd => exact ⟨_, rfl, (h.quiet (.modeStepEnd s)).settle⟩
  | setupPortsEntry => exact ⟨_, rfl, (h.quiet (.walkStep .ports (.applyPorts s))).settle⟩
  | setupSlotEntry => exact ⟨_, rfl, (h.quiet (.walkStep .slot (.applySlotEntry s))).settle⟩
  | setupSdramEntry => exact ⟨_, rfl, (h.quiet (.walkStep .sdram (.applySdramEntry s))).settle⟩
  | setupWindowEntry => exact ⟨_, rfl, (h.quiet (.walkStep .window (.applyWindowEntry s))).settle⟩
  | setupRetireEntry => exact ⟨_, rfl, (h.quiet (.walkStep .retire (.applyRetireEntry s))).settle⟩
  | setupUnknownEntry => exact ⟨_, rfl, (h.quiet (.walkUnknown s)).settle⟩

end State.AnswerLaws

/-- Settles O60: every command keeps the laws of notices, slots, deferred replies and start-up, and so does an MCLK in which
none is taken. -/
theorem everyStepKeepsNoticesAndReplySlots : Obligations.EveryStepKeepsNoticesAndReplySlots := by
  intro s t hstep hnotice hslot hdeferred hstarting
  have hs : s.AnswerLaws := ⟨hnotice, hslot, hdeferred, hstarting⟩
  suffices ht : t.AnswerLaws from ⟨ht.notice, ht.slot, ht.deferred, ht.starting⟩
  unfold Machine.step at hstep
  split at hstep
  · obtain rfl := Host.Outcome.next.inj hstep
    exact hs.quiet (.tick s)
  · next i rest _ =>
    obtain ⟨u, hu, hlaw⟩ :=
      (hs.quiet (t := { s with pending := rest }) (.of_eq rfl rfl rfl rfl rfl rfl rfl rfl)).exec i
    rw [hu] at hstep
    exact Host.Outcome.next.inj hstep ▸ hlaw

end Sys2Proof.Machine
end

section
/-! The queue of commands and the clock (R96, R98, R112, R130, R164, R166, R177; log entries 1, 17). -/
namespace Sys2Proof.Machine

variable {s : State}

/-- An MCLK that ends a microsecond moves the counts of both timebases (R164). -/
theorem State.tick_at_microsecond (h : (s.now + 1) % s.straps.mclkPerMicrosecond = 0) :
    s.tick = ({ s with now := s.now + 1, ports := ⟨s.ports.a.tick, s.ports.b.tick⟩, sdram := s.sdram.tick } :
      State).microsecond := if_pos h

/-- Any other MCLK moves the counts in MCLK alone. -/
theorem State.tick_between (h : (s.now + 1) % s.straps.mclkPerMicrosecond ≠ 0) :
    s.tick = { s with now := s.now + 1, ports := ⟨s.ports.a.tick, s.ports.b.tick⟩, sdram := s.sdram.tick } := if_neg h

/-- Settles O1: the front command is the one that runs, and with none waiting the counts move as the MCLK ends a microsecond
or not. -/
theorem stepTakesTheFrontCommand : Obligations.StepTakesTheFrontCommand := by
  refine ⟨fun c s rest h => by rw [step, h], ?_⟩
  intro s h microsecond upTo line idle busy d
  have hstep : step s = .next s.tick := by rw [step, h]
  rw [hstep]
  by_cases hm : microsecond
  · rw [State.tick_at_microsecond hm]
    simp only [idle, busy, hm, if_true, true_and]
    rfl
  · rw [State.tick_between hm]
    simp only [idle, busy, hm, if_false, false_and]
    rfl

end Sys2Proof.Machine
end

section
/-! The transmitter: the start of a frame and the levels of TXD (R164, R165, R169, R177, R198). -/
namespace Sys2Proof.Machine

variable {s : State} {p : Port}

/-- An IDLE transmitter with HOLD# high begins the oldest item (R177), which takes the transmit sequence (R169). -/
theorem State.pump_begins (htx : (s.port p).tx = none) (hhold : s.pins.hold.get p = true) {i : Item} {rest : List Item}
    (hready : (s.port p).ready = i :: rest) :
    s.pump p = s.setPort p { s.port p with
      tx := some { seq := (s.port p).txSeq, elapsed := 0,
                   frame := frameBytes (s.port p).txSeq (s.itemPayload p i).1 (s.itemPayload p i).2 }
      txSeq := (s.port p).txSeq + 1 } := by
  unfold State.pump
  simp only [htx, hhold, hready]

/-- A transmitter that is SENDING, held, or without an item begins nothing. -/
theorem State.pump_rests (h : (s.port p).tx ≠ none ∨ s.pins.hold.get p = false ∨ (s.port p).ready = []) :
    s.pump p = s := by
  unfold State.pump
  dsimp only
  split
  · next htx hready hhold => simp [htx, hready, hhold] at h
  · rfl

/-- The bit rate by the BAUD strap (R164). -/
theorem Straps.bitRate_eq (x : Straps) :
    x.bitRate = if x.baud = 0 then 500 else if x.baud = 1 then 2000 else if x.baud = 2 then 6000 else 12000 := by
  have hrate : ∀ baud : BitVec 2, (match baud.toNat with | 0 => 500 | 1 => 2000 | 2 => 6000 | _ => 12000) =
      if baud = 0 then 500 else if baud = 1 then 2000 else if baud = 2 then 6000 else 12000 := by decide
  exact hrate x.baud

/-- While bit `10 n + i` of a frame is in progress TXD has the level of bit `i` of character `n` (R164). -/
theorem Sending.level_in_character {x : Straps} {t : Sending} {n i : Nat} {c : Byte} (hc : t.frame[n]? = some c)
    (hi : i < 10) (hbits : t.bitsSent x = 10 * n + i) :
    t.level x = if i = 0 then false else if i = 9 then true else c.getLsbD (i - 1) := by
  rw [Sending.level, hbits, frameBits_get t.frame n hi, hc, Option.bind_some, characterBits_get c hi, Option.getD_some]

/-- After the last stop bit of a frame TXD is high (R164). -/
theorem Sending.level_after_frame {x : Straps} {t : Sending} (h : 10 * t.frame.length ≤ t.bitsSent x) :
    t.level x = true := by
  have hsplit := Nat.div_add_mod (t.bitsSent x) 10
  rw [Sending.level, ← hsplit, frameBits_get t.frame _ (Nat.mod_lt _ (by decide)),
    List.getElem?_eq_none ((Nat.le_div_iff_mul_le (by decide)).2 (by omega))]
  rfl

/-- The ten levels of a character are taken as the character with a good stop bit (R164). -/
theorem characterOf_characterBits : ∀ c : Byte, characterOf (characterBits c) = (c, true) := by decide

/-- Settles O5: the transmitter by its state, HOLD# and its ready list, the payload of each kind of item, and TXD by the bit
in progress. -/
theorem transmitterBeginsTheOldestItem : Obligations.TransmitterBeginsTheOldestItem := by
  intro s p
  refine ⟨fun ⟨htx, hhold⟩ i rest hready => State.pump_begins htx hhold hready, State.pump_rests, fun _ _ => rfl,
    fun _ _ _ _ => rfl, fun n x => ?_, ?_, characterOf_characterBits⟩
  · rw [List.append_assoc]
    rfl
  · intro perMicrosecond perMillisecond bit
    refine ⟨fun htx => State.txd_idle htx, fun t ht => ?_⟩
    have htxd : s.txd p = t.level s.straps := by rw [State.txd, ht]
    have hsent : t.bitsSent s.straps = t.elapsed * perMillisecond / bit := by
      rw [Sending.bitsSent, Straps.bitRate_eq, Nat.mul_comm s.straps.mclkPerMicrosecond]
      rfl
    have hbit : 0 < bit := by
      simp only [bit, perMicrosecond]
      split <;> decide
    rw [htxd]
    refine ⟨fun n i c hc hi hlo hhi => ?_, fun hend => ?_⟩
    · exact Sending.level_in_character hc hi (hsent.trans (Nat.div_eq_of_lt_le hlo hhi))
    · exact Sending.level_after_frame (hsent ▸ (Nat.le_div_iff_mul_le hbit).2 hend)

end Sys2Proof.Machine
end

section
/-! The end of a frame on TXD: the item leaves its list and its end effects are taken (R19, R161, R174, R177). -/
namespace Sys2Proof.Machine

variable {s : State} {p : Port}

/-- With nothing being sent the row changes nothing (log entry 3). -/
theorem State.frameSent_idle (htx : (s.port p).tx = none) : s.frameSent p = s := by
  unfold State.frameSent
  rw [htx]

theorem State.frameSent_of_ready (htx : (s.port p).tx ≠ none) {i : Item} {rest : List Item}
    (hready : (s.port p).ready = i :: rest) :
    s.frameSent p = (s.setPort p { s.port p with tx := none, ready := rest }).itemSent p i := by
  obtain ⟨x, hx⟩ := Option.ne_none_iff_exists'.1 htx
  unfold State.frameSent
  rw [hx, hready]

/-- Entries changed only where they are taken out leave the others as they were. -/
theorem filter_map_at (tag : Byte) (f : Entry → Entry) (hf : ∀ e, (f e).tag = e.tag) (es : List Entry) :
    (es.map (fun e => if e.tag = tag then f e else e)).filter (fun e => e.tag != tag) =
      es.filter (fun e => e.tag != tag) := by
  induction es with
  | nil => rfl
  | cons e es ih =>
    by_cases he : e.tag = tag
    · simpa [he, hf] using ih
    · simpa [he] using ih

/-- The freeing of an entry: it leaves its port's list and its segments go back to the pool (R19, R51). -/
theorem State.freeEntry_of_find {r : Ref} {e : Entry} (h : s.find r = some e) :
    s.freeEntry r = { s with
      table := s.table.set r.port ((s.entries r.port).filter (fun x => x.tag != r.tag))
      pool := s.pool.release r.port e.segments } := by
  unfold State.freeEntry State.releaseSegments State.dropEntry
  rw [h]
  dsimp only
  rw [State.entries_updateEntry, if_pos rfl, filter_map_at r.tag (fun e => { e with segments := [] }) fun _ => rfl]
  simp only [State.updateEntry, State.setEntries, ByPort.set_set]
  rfl

/-- Settles O14: the item's end effects by its kind, after it has left the list. -/
theorem frameSentTakesItsEndEffects : Obligations.FrameSentTakesItsEndEffects := by
  intro s p
  have hrow : exec (.frameSent p) s = .next (s.frameSent p).settle := rfl
  rw [hrow]
  refine ⟨fun htx => by rw [State.frameSent_idle htx], fun i rest htx hready => ?_⟩
  rw [State.frameSent_of_ready htx hready]
  intro u
  refine ⟨fun tag e hi he => ?_, fun tag st hi => ?_, fun token k st body hi hk => ?_, fun n x hi => ?_⟩ <;> subst hi
  · have hfree : u.freeEntry ⟨p, tag⟩ = _ := State.freeEntry_of_find (s := u) he
    rw [State.itemSent, hfree]
    rfl
  · rfl
  · exact congrArg (fun v : State => Host.Outcome.next v.settle) (if_neg hk)
  · rfl

end Sys2Proof.Machine
end

section
/-! The receiver: what becomes of each character, and the judging of a whole frame (R164–R167, R198). -/
namespace Sys2Proof.Machine

variable {s : State} {p : Port} {c : Byte} {stop : Bool}

/-! ### A frame's bytes and its fields (R198) -/

/-- The two bytes of a number below 65536 read back as the number (R197). -/
theorem leValue_leBytes_two {n : Nat} (h : n < 65536) (rest : List Byte) :
    field (leBytes 2 n ++ rest) 0 2 = n := by
  change (byte n).toNat + 256 * ((byte (n / 256)).toNat + 256 * 0) = n
  simp only [byte, BitVec.toNat_ofNat]
  omega

theorem frameBody_length (seq kind : Byte) (payload : List Byte) :
    (frameBody seq kind payload).length = 4 + payload.length := by
  simp only [frameBody, leBytes, List.length_append, List.length_cons, List.length_nil]

/-- LEN and the CRC of a whole frame, and what stands between them. -/
theorem frame_fields {seq kind x y : Byte} {payload : List Byte} (h : payload.length ≤ 4352) :
    let d := frameBody seq kind payload ++ [x, y];
    field d 0 2 = payload.length ∧ d.take (4 + payload.length) = frameBody seq kind payload ∧
      field d (4 + payload.length) 2 = x.toNat + 256 * y.toNat ∧ at8 d 3 = kind ∧ at8 d 2 = seq ∧
      (d.drop 4).take payload.length = payload := by
  intro d
  have hlen := frameBody_length seq kind payload
  refine ⟨?_, ?_, ?_, rfl, rfl, ?_⟩
  · have hd : d = leBytes 2 payload.length ++ ([seq, kind] ++ payload ++ [x, y]) := by
      simp only [d, frameBody, List.append_assoc]
    rw [hd, leValue_leBytes_two (by omega)]
  · rw [← hlen, List.take_left']
    rfl
  · rw [field, ← hlen, List.drop_left' rfl]
    rfl
  · change (payload ++ [x, y]).take payload.length = payload
    exact List.take_left' rfl

/-- The judging of a frame whose last CRC byte has come, in the order of R167. -/
theorem State.judgeFrame_of_frame {seq kind x : Byte} {payload : List Byte} (h : payload.length ≤ 4352) :
    s.judgeFrame p (frameBody seq kind payload ++ [x, c]) =
      if (crc16 (frameBody seq kind payload)).toNat ≠ x.toNat + 256 * c.toNat then s.dropFrame p .crc
      else if kind ∉ knownKinds then s.dropFrame p .kind
      else s.setPort p { s.port p with
        receiver := .hunting, arrived := (s.port p).arrived ++ [⟨kind, seq, payload⟩] } := by
  obtain ⟨hlen, hbody, hcrc, hkind, hseq, hpayload⟩ := frame_fields (seq := seq) (kind := kind) (x := x) (y := c) h
  unfold State.judgeFrame
  dsimp only
  rw [hlen, hbody, hcrc, hkind, hseq, hpayload]

/-! ### One character -/

/-- In BREAK, and while the line has stayed low, a character is not received (R164, R166). -/
theorem State.character_ignored (h : (s.port p).receiver = .inBreak ∨ s.pins.rxd.get p = false) :
    s.character p c stop = s := if_pos h

theorem State.character_received (hbreak : (s.port p).receiver ≠ .inBreak) (hline : s.pins.rxd.get p = true) :
    s.character p c stop = (s.setRxd p stop).receive p c :=
  if_neg fun h => h.elim hbreak fun hlow => by simp [hlow] at hline

theorem State.receive_hunting (h : (s.port p).receiver = .hunting) :
    s.receive p c = s.setPort p { s.port p with
      gapTime := 0, receiver := if c = 0xC3 then .inFrame [] else .hunting } := by
  unfold State.receive
  simp only [h]

/-- A byte of a frame: a LEN above the limit drops it, its last byte has it judged, any other is kept (R166). -/
theorem State.receive_inFrame {b : List Byte} (h : (s.port p).receiver = .inFrame b) :
    s.receive p c =
      if (b ++ [c]).length = 2 ∧ 4352 < field (b ++ [c]) 0 2 then s.dropFrame p .length
      else if 2 ≤ (b ++ [c]).length ∧ (b ++ [c]).length = field (b ++ [c]) 0 2 + 6 then s.judgeFrame p (b ++ [c])
      else s.setPort p { s.port p with gapTime := 0, receiver := .inFrame (b ++ [c]) } := by
  unfold State.receive
  simp only [h]

/-- The LEN field once two bytes have come. -/
theorem field_len_append {b : List Byte} (h : 2 ≤ b.length) (c : Byte) :
    field (b ++ [c]) 0 2 = (at8 b 0).toNat + 256 * (at8 b 1).toNat := by
  match b, h with
  | x :: y :: rest, _ => rfl

theorem State.receive_long {a : Byte} (h : (s.port p).receiver = .inFrame [a]) (hlen : 4352 < a.toNat + 256 * c.toNat) :
    s.receive p c = s.dropFrame p .length := by
  rw [State.receive_inFrame h, if_pos ⟨rfl, hlen⟩]

/-- With its last CRC byte a frame is judged. -/
theorem State.receive_last {seq kind x : Byte} {payload : List Byte} (hlen : payload.length ≤ 4352)
    (h : (s.port p).receiver = .inFrame (frameBody seq kind payload ++ [x])) :
    s.receive p c = s.judgeFrame p (frameBody seq kind payload ++ [x, c]) := by
  have hd : frameBody seq kind payload ++ [x] ++ [c] = frameBody seq kind payload ++ [x, c] := List.append_assoc _ _ _
  have hlength : (frameBody seq kind payload ++ [x, c]).length = payload.length + 6 := by
    simp only [List.length_append, frameBody_length, List.length_cons, List.length_nil]
    omega
  obtain ⟨hfield, -⟩ := frame_fields (seq := seq) (kind := kind) (x := x) (y := c) hlen
  rw [State.receive_inFrame h, hd, hfield, hlength, if_neg (by omega), if_pos (by omega)]

/-- Any other byte of a frame is kept. -/
theorem State.receive_kept {b : List Byte} (h : (s.port p).receiver = .inFrame b)
    (hb : b.length = 0 ∨ (b.length = 1 ∧ (at8 b 0).toNat + 256 * c.toNat ≤ 4352) ∨
      (2 ≤ b.length ∧ b.length + 1 < (at8 b 0).toNat + 256 * (at8 b 1).toNat + 6)) :
    s.receive p c = s.setPort p { s.port p with gapTime := 0, receiver := .inFrame (b ++ [c]) } := by
  have hlength : (b ++ [c]).length = b.length + 1 := List.length_append
  rw [State.receive_inFrame h, hlength]
  rcases hb with hnone | ⟨hone, hlen⟩ | ⟨htwo, hlen⟩
  · rw [if_neg (by omega), if_neg (by omega)]
  · obtain ⟨a, rfl⟩ := List.length_eq_one_iff.1 hone
    have hfield : field ([a] ++ [c]) 0 2 = a.toNat + 256 * c.toNat := rfl
    have hlen : a.toNat + 256 * c.toNat ≤ 4352 := hlen
    rw [hfield, if_neg (by omega), if_neg (by simp)]
  · rw [field_len_append htwo, if_neg (by omega), if_neg (by omega)]

/-- Settles O10: a character by the state of the receiver and of its line, and a whole frame by the order of R167. -/
theorem receiverTakesCharacters : Obligations.ReceiverTakesCharacters := by
  intro s p c stop r hunts
  have hrow : exec (.characterReceived p c stop) s = .next (s.character p c stop).settle := rfl
  rw [hrow]
  refine ⟨fun h => by rw [State.character_ignored (.inl h)], fun h => by rw [State.character_ignored (.inr h)],
    fun hline => ?_⟩
  have received : ∀ {x}, (s.port p).receiver = x → x ≠ .inBreak → s.character p c stop = r.receive p c := fun hx hne =>
    State.character_received (hx ▸ hne) hline
  refine ⟨fun h => ?_, fun a h hlen => ?_, fun seq kind payload x hlen h => ?_, fun b h hb => ?_⟩
  · rw [received h nofun, State.receive_hunting (s := r) h]
    rfl
  · rw [received h nofun, State.receive_long (s := r) h hlen]
    rfl
  · rw [received h nofun, State.receive_last (s := r) hlen h, State.judgeFrame_of_frame hlen]
    refine ⟨fun hcrc => ?_, fun hcrc hkind => ?_, fun hcrc hkind => ?_⟩
    · rw [if_pos (Ne.symm hcrc)]
      rfl
    · rw [if_neg (not_not.2 hcrc.symm), if_pos hkind]
      rfl
    · rw [if_neg (not_not.2 hcrc.symm), if_neg (not_not.2 hkind)]
      rfl
  · rw [received h nofun, State.receive_kept (s := r) h hb]
    rfl

end Sys2Proof.Machine
end

section
/-! The line events and the order of the frames (R166–R168, R177–R180; log entries 3, 8, 21, 27). -/
namespace Sys2Proof.Machine

variable {s : State} {p : Port} {seq : Byte} {d : List Byte}

/-! ### The rows of the messages -/

/-- A request row is a message row of its KIND. -/
theorem exec_requestOf (k : ReqKind) (p : Port) (seq : Byte) (d : List Byte) (s : State) :
    exec (requestOf k p seq d) s = .next (s.takeMessage p k.code seq d fun u => u.dealRequest k p d).settle := by
  cases k <;> rfl

/-- So is a control row. -/
theorem exec_controlOf (k : CtrlKind) (p : Port) (seq : Byte) (d : List Byte) (s : State) :
    ∃ deal, exec (controlOf k p seq d) s = .next (s.takeMessage p k.code seq d deal).settle := by
  cases k <;> exact ⟨_, rfl⟩

theorem exec_portReset (ht : s.Takes p CtrlKind.portReset.code seq d) :
    exec (.portReset p seq d) s = .next ((s.takeFrame p seq).dealPortReset p d).settle := by
  have hrow : exec (.portReset p seq d) s = .next (s.takePortReset p seq d).settle := rfl
  rw [hrow, State.takePortReset, State.takeMessage_in_turn ht]

/-- On a served port PORT-RESET with a payload resets the port, and the queue heads are examined behind it (R178). -/
theorem exec_portReset_of_serves (ht : s.Takes p CtrlKind.portReset.code seq d) (hs : s.Serves p) (hd : d ≠ []) :
    exec (.portReset p seq d) s = .next ((s.takeFrame p seq).portResetStep p .message).settle := by
  obtain ⟨htop, hport⟩ := hs.takeFrame seq
  have hdeal : (s.takeFrame p seq).dealPortReset p d = (s.takeFrame p seq).portResetStep p .message := by
    unfold State.dealPortReset
    simp only [htop, hport, if_neg hd]
  rw [exec_portReset ht, hdeal]

/-! ### The line events -/

theorem State.gapTimeout_of_inFrame {b : List Byte} (h : (s.port p).receiver = .inFrame b) :
    s.gapTimeout p = s.dropFrame p .timeout := by
  unfold State.gapTimeout
  rw [h]

/-- Outside a frame a gap changes nothing (log entry 3). -/
theorem State.gapTimeout_between (h : (s.port p).receiver = .hunting ∨ (s.port p).receiver = .inBreak) :
    s.gapTimeout p = s := by
  unfold State.gapTimeout
  rcases h with h | h <;> rw [h]

theorem State.breakTaken_of_inBreak (h : (s.port p).receiver = .inBreak) : s.breakTaken p = s := if_pos h

/-- A break that begins puts the receiver in BREAK, and resets an UP port (R179). -/
theorem State.breakTaken_begins (h : (s.port p).receiver ≠ .inBreak) :
    let broken := (s.setRxd p false).setPort p { s.port p with receiver := .inBreak }
    s.breakTaken p = match (s.port p).state with | .up => broken.portResetStep p .brk | .down => broken := by
  have hstate : (((s.setRxd p false).setPort p { s.port p with receiver := .inBreak }).port p).state =
      (s.port p).state := by
    rw [State.port_setPort, if_pos rfl]
  rw [← hstate]
  exact if_neg h

/-- Settles O12: each line event by the receiver and the state of its port. -/
theorem lineEventsActOnTheirPort : Obligations.LineEventsActOnTheirPort := by
  intro s p examined
  have hgap : exec (.frameGapTimeout p) s = .next (s.gapTimeout p).settle := rfl
  have hrise : exec (.rxdRise p) s = .next (s.rxdHigh p).settle := rfl
  have hbreak : exec (.linkBreak p) s = .next (s.breakTaken p).settle := rfl
  rw [hgap, hrise, hbreak]
  refine ⟨fun b h => by rw [State.gapTimeout_of_inFrame h, State.dropFrame],
    fun h => by rw [State.gapTimeout_between h], ⟨fun h => ?_, fun h => ?_⟩,
    fun h => by rw [State.breakTaken_of_inBreak h], fun h => ⟨fun hdown => ?_, fun hup => ?_⟩, fun seq d ht hs hd => ?_,
    fun level => rfl⟩
  · exact congrArg (fun u : State => Host.Outcome.next u.settle) (if_pos h)
  · exact congrArg (fun u : State => Host.Outcome.next u.settle) (if_neg h)
  · rw [State.breakTaken_begins h, hdown]
    rfl
  · rw [State.breakTaken_begins h, hup]
    rfl
  · rw [exec_portReset_of_serves ht hs hd]
    rfl

/-- On a DOWN port SEQ is not examined (R168). -/
theorem State.takeFrame_of_down (hdown : (s.port p).state = .down) :
    s.takeFrame p seq = s.setPort p { s.port p with arrived := (s.port p).arrived.tail } := by
  have hconsumed : ((s.consume p).port p).state = .down := by
    rw [State.consume, State.port_setPort, if_pos rfl]
    exact hdown
  unfold State.takeFrame State.sequenceCheck
  simp only [hconsumed]
  rfl

/-- Settles O16: the sequence check by the port's state and its expectation, and the rows out of their turn. -/
theorem sequenceNumbersAreChecked : Obligations.SequenceNumbersAreChecked := by
  intro s p seq u
  have hport : u.port p = { s.port p with arrived := (s.port p).arrived.tail } := by
    rw [State.port_setPort, if_pos rfl]
  have htake : s.takeFrame p seq = u.sequenceCheck p seq := rfl
  refine ⟨State.takeFrame_of_down, fun hup hx => ?_, fun x hup hx hne => ?_, fun d => ⟨fun k hk => ?_, fun k hk => ?_⟩⟩
  · rw [htake]
    unfold State.sequenceCheck
    simp only [hport, hup, hx, if_pos]
  · rw [htake]
    unfold State.sequenceCheck
    simp only [hport, hup, hx, if_neg hne]
  · rw [exec_requestOf, State.takeMessage_out_of_turn hk]
  · obtain ⟨deal, hrow⟩ := exec_controlOf k p seq d s
    rw [hrow, State.takeMessage_out_of_turn hk]

end Sys2Proof.Machine
end

section
/-! What the port unit answers itself, through a control reply slot (R170, R173, R174, R201). -/
namespace Sys2Proof.Machine

variable {s : State} {p : Port} {seq : Byte} {d : List Byte} {k : CtrlKind}

/-- A row that is answered through a slot, by the slots that the port holds. -/
theorem next_slotAnswer {i : Item} {o : Host.Outcome State Fault Refusal}
    (h : o = .next ((s.takeFrame p seq).slotAnswer p i).settle) :
    let u := s.takeFrame p seq;
    ((s.port p).held < 8 → o = .next (u.setPort p { u.port p with
      held := (u.port p).held + 1, ready := (u.port p).ready ++ [i] }).settle) ∧
    (8 ≤ (s.port p).held → o = .next (u.overrun p).settle) := by
  intro u
  have hheld : (u.port p).held = (s.port p).held := State.takeFrame_held s p p seq
  refine ⟨fun hfree => ?_, fun hfull => ?_⟩
  · rw [h, State.slotAnswer_of_free i (hheld ▸ hfree)]
  · rw [h, State.slotAnswer_of_full i (hheld ▸ hfull)]

/-! ### How a control message is dealt with -/

theorem State.dealControl_of_starting {step : StartStep} (owner : State → State) (h : s.startup.top = .starting step) :
    s.dealControl k p d owner = s.slotAnswer p (.ctrl (at8 d 0) k .starting []) := by
  unfold State.dealControl
  simp only [h]
  rfl

theorem State.dealControl_of_down (owner : State → State) (htop : s.startup.top = .running)
    (hdown : (s.port p).state = .down) :
    s.dealControl k p d owner = s.slotAnswer p (.ctrl (at8 d 0) k .notUp []) := by
  unfold State.dealControl
  simp only [htop, hdown]
  rfl

/-- On a served port the free-slot test comes first (R174). -/
theorem State.dealControl_of_full (owner : State → State) (hs : s.Serves p) (hfull : 8 ≤ (s.port p).held) :
    s.dealControl k p d owner = s.overrun p := by
  obtain ⟨htop, hup⟩ := hs
  have hslot : s.slotFree p = false := by simpa [State.slotFree] using hfull
  unfold State.dealControl State.stopped
  simp only [htop, hup, hslot, if_true]

theorem State.dealControl_of_free (owner : State → State) (hs : s.Serves p) (hfree : (s.port p).held < 8) :
    s.dealControl k p d owner =
      if d.length ≠ k.size then s.slotAnswer p (.ctrl (at8 d 0) k .badArg [])
      else if k.needsRight = true ∧ (s.port p).config = false then
        s.slotAnswer p (.ctrl (at8 d 0) k .denied (if k = .winSet then [at8 d 1] else []))
      else owner s := by
  obtain ⟨htop, hup⟩ := hs
  have hslot : s.slotFree p = true := by simpa [State.slotFree] using hfree
  have hanswer : ∀ st body, s.slotAnswer p (.ctrl (at8 d 0) k st body) = s.reply p (answerToken d) k st body :=
    fun st body => if_pos hslot
  unfold State.dealControl State.stopped
  simp only [htop, hup, hslot, hanswer, Bool.true_eq_false, if_false]
  by_cases hlen : d.length ≠ k.size
  · simp only [if_pos hlen]
  · simp only [if_neg hlen, Bool.and_eq_true, Bool.not_eq_true']
    by_cases hright : k.needsRight = true ∧ (s.port p).config = false
    · simp only [if_pos hright]
      rfl
    · simp only [if_neg hright]

/-- A message of another length than its own (R201). -/
theorem State.dealControl_of_length (owner : State → State) (hs : s.Serves p) (hlen : d.length ≠ k.size) :
    s.dealControl k p d owner = s.slotAnswer p (.ctrl (at8 d 0) k .badArg []) := by
  rcases Nat.lt_or_ge (s.port p).held 8 with hfree | hfull
  · rw [State.dealControl_of_free owner hs hfree, if_pos hlen]
  · rw [State.dealControl_of_full owner hs hfull, State.slotAnswer_of_full _ hfull]

/-- A message that needs the CONFIG right, from a port without it (R173). -/
theorem State.dealControl_of_denied (owner : State → State) (hs : s.Serves p) (hlen : d.length = k.size)
    (hk : k.needsRight = true) (hconfig : (s.port p).config = false) :
    s.dealControl k p d owner =
      s.slotAnswer p (.ctrl (at8 d 0) k .denied (if k = .winSet then [at8 d 1] else [])) := by
  rcases Nat.lt_or_ge (s.port p).held 8 with hfree | hfull
  · rw [State.dealControl_of_free owner hs hfree, if_neg (not_not.2 hlen), if_pos ⟨hk, hconfig⟩]
  · rw [State.dealControl_of_full owner hs hfull, State.slotAnswer_of_full _ hfull]

/-! ### The two messages with a way of their own -/

/-- HELLO has its own way on a DOWN port in RUNNING alone (R170, R171). -/
theorem State.dealHello_eq_dealControl (h : ¬(s.startup.top = .running ∧ (s.port p).state = .down)) :
    s.dealHello p seq d = s.dealControl .hello p d fun u => u.helloUp p d := by
  unfold State.dealHello
  split
  · next htop hdown => exact absurd ⟨htop, hdown⟩ h
  · rfl

theorem State.dealHello_of_down (htop : s.startup.top = .running) (hdown : (s.port p).state = .down) :
    s.dealHello p seq d =
      if d = [] then s.slotAnswer p (.ctrl (at8 d 0) .hello .notUp [])
      else if s.slotFree p then s.helloDown p seq d
      else s.overrun p := by
  unfold State.dealHello
  simp only [htop, hdown]
  rfl

/-- PORT-RESET has its own way with a payload on a served port alone (R178). -/
theorem State.dealPortReset_eq_dealControl (h : ¬(s.Serves p ∧ d ≠ [])) :
    s.dealPortReset p d = s.dealControl .portReset p d id := by
  unfold State.dealPortReset
  split
  · next step htop => exact (State.dealControl_of_starting id htop).symm
  · next htop hdown => exact (State.dealControl_of_down id htop hdown).symm
  · next htop hup =>
    have hd : d = [] := not_not.1 fun hne => h ⟨⟨htop, hup⟩, hne⟩
    rw [if_pos hd, State.dealControl_of_length id ⟨htop, hup⟩ (by rw [hd]; decide)]
    rfl

theorem exec_hello (ht : s.Takes p CtrlKind.hello.code seq d) :
    exec (.hello p seq d) s = .next ((s.takeFrame p seq).dealHello p seq d).settle := by
  have hrow : exec (.hello p seq d) s = .next (s.takeHello p seq d).settle := rfl
  rw [hrow, State.takeHello, State.takeMessage_in_turn ht]

/-- Every other control row has an owner that it reaches through the tests of the port unit. -/
theorem exec_owned (hhello : k ≠ .hello) (hreset : k ≠ .portReset) :
    ∃ owner, exec (controlOf k p seq d) s = .next (s.takeControl k p seq d owner).settle := by
  cases k
  case hello => exact absurd rfl hhello
  case portReset => exact absurd rfl hreset
  all_goals exact ⟨_, rfl⟩

/-- HELLO and PORT-RESET apart, where they have a way of their own, every control message meets the same tests. -/
theorem exec_control (ht : s.Takes p k.code seq d)
    (hhello : k = .hello → ¬(s.startup.top = .running ∧ (s.port p).state = .down))
    (hreset : k = .portReset → ¬(s.Serves p ∧ d ≠ [])) :
    ∃ owner, exec (controlOf k p seq d) s = .next ((s.takeFrame p seq).dealControl k p d owner).settle := by
  have hstate := (s.takeFrame_standing p p seq).state
  by_cases hk : k = .hello
  · subst hk
    refine ⟨fun u => u.helloUp p d, (exec_hello ht).trans ?_⟩
    rw [State.dealHello_eq_dealControl (by simpa only [State.takeFrame_startup, hstate] using hhello rfl)]
  · by_cases hk' : k = .portReset
    · subst hk'
      refine ⟨id, (exec_portReset ht).trans ?_⟩
      rw [State.dealPortReset_eq_dealControl
        (by simpa only [State.Serves, State.takeFrame_startup, hstate] using hreset rfl)]
    · obtain ⟨owner, hrow⟩ := exec_owned (s := s) (p := p) (seq := seq) (d := d) hk hk'
      exact ⟨owner, by rw [hrow, State.takeControl, State.takeMessage_in_turn ht]⟩

/-! ### The statement -/

theorem State.dealRequest_of_starting {step : StartStep} (k : ReqKind) (h : s.startup.top = .starting step) :
    s.dealRequest k p d = s.slotAnswer p (.refusal (answerTag d) .starting) := by
  unfold State.dealRequest
  simp only [h]

theorem State.dealRequest_of_down (k : ReqKind) (htop : s.startup.top = .running) (hdown : (s.port p).state = .down) :
    s.dealRequest k p d = s.slotAnswer p (.refusal (answerTag d) .notUp) := by
  unfold State.dealRequest
  simp only [htop, hdown]

/-- A request shorter than tag and flags (R170). -/
theorem State.dealRequest_of_short (k : ReqKind) (hs : s.Serves p) (hd : d.length < 2) :
    s.dealRequest k p d = s.slotAnswer p (.refusal 0 .badArg) := by
  obtain ⟨htop, hup⟩ := hs
  unfold State.dealRequest
  simp only [htop, hup, if_pos hd]

/-- Settles O17: a request and a control message by the top state, the port's state, the length and the right, each through a
slot; a full set of slots ahead of them. -/
theorem portUnitAnswersWhatItStops : Obligations.PortUnitAnswersWhatItStops := by
  intro s p seq d answers overruns tag
  have hstate : ((s.takeFrame p seq).port p).state = (s.port p).state := (s.takeFrame_standing p p seq).state
  have htop : (s.takeFrame p seq).startup.top = s.startup.top := by rw [State.takeFrame_startup]
  have hconfig : ((s.takeFrame p seq).port p).config = (s.port p).config := (s.takeFrame_standing p p seq).config
  have hheld : ((s.takeFrame p seq).port p).held = (s.port p).held := State.takeFrame_held s p p seq
  have request : ∀ (k : ReqKind) i, (s.takeFrame p seq).dealRequest k p d = (s.takeFrame p seq).slotAnswer p i →
      answers k.code (requestOf k p seq d) i := fun k i hdeal ht =>
    next_slotAnswer (by rw [exec_requestOf, State.takeMessage_in_turn ht, hdeal])
  have control : ∀ (k : CtrlKind) i, (k = .hello → ¬(s.startup.top = .running ∧ (s.port p).state = .down)) →
      (k = .portReset → ¬(s.Serves p ∧ d ≠ [])) →
      (∀ owner, (s.takeFrame p seq).dealControl k p d owner = (s.takeFrame p seq).slotAnswer p i) →
      answers k.code (controlOf k p seq d) i := fun k i hhello hreset hdeal ht => by
    obtain ⟨owner, hrow⟩ := exec_control ht hhello hreset
    exact next_slotAnswer (by rw [hrow, hdeal])
  refine ⟨fun step h => ⟨fun k => ?_, fun k => ?_⟩, fun hrun hdown => ⟨fun k => ?_, fun k hk => ?_⟩,
    fun hs hd k => ?_, fun hs k hlen hreset => ?_, fun hs k hlen hk hright => ?_, fun hs k hk ht hfull => ?_,
    fun hrun hdown ht hfull => ?_⟩
  · exact request k _ (State.dealRequest_of_starting k (htop.trans h))
  · refine control k _ (fun _ ⟨hrun, _⟩ => ?_) (fun _ ⟨⟨hrun, _⟩, _⟩ => ?_) fun owner =>
      State.dealControl_of_starting owner (htop.trans h)
    all_goals rw [h] at hrun; cases hrun
  · exact request k _ (State.dealRequest_of_down k (htop.trans hrun) (hstate.trans hdown))
  · refine control k _ (fun h => absurd h hk) (fun _ ⟨⟨_, hup⟩, _⟩ => ?_) fun owner =>
      State.dealControl_of_down owner (htop.trans hrun) (hstate.trans hdown)
    rw [hdown] at hup
    cases hup
  · exact request k _ (State.dealRequest_of_short k (hs.takeFrame seq) hd)
  · refine control k _ (fun _ ⟨_, hdown⟩ => ?_) (fun h ⟨_, hne⟩ => hne (hreset h)) fun owner =>
      State.dealControl_of_length owner (hs.takeFrame seq) hlen
    rw [hs.2] at hdown
    cases hdown
  · refine control k _ (fun h => ?_) (fun h => ?_) fun owner =>
      State.dealControl_of_denied owner (hs.takeFrame seq) hlen hk (hconfig.trans hright)
    all_goals rw [h] at hk; cases hk
  · have hup : ¬(s.startup.top = .running ∧ (s.port p).state = .down) := fun ⟨_, hdown⟩ => by
      rw [hs.2] at hdown
      cases hdown
    obtain ⟨owner, hrow⟩ := exec_control ht (fun _ => hup) fun h => absurd h hk
    rw [hrow, State.dealControl_of_full owner (hs.takeFrame seq) (hheld.symm ▸ hfull)]
    rfl
  · rw [exec_hello ht, State.dealHello_of_down (htop.trans hrun) (hstate.trans hdown)]
    have hslot : (s.takeFrame p seq).slotFree p = false := by simpa [State.slotFree] using hfull
    rw [hslot, State.slotAnswer_of_full _ (hheld.symm ▸ hfull)]
    simp only [Bool.false_eq_true, if_false, ite_self]
    rfl

end Sys2Proof.Machine
end

section
/-! The messages that read: INFO, STATUS, WIN-GET, SLOT-GET, SDR-GET and RETIRE-LIST (R28, R38, R74, R105, R141, R172, R202;
log entries 30, 34). -/
namespace Sys2Proof.Machine

variable {s : State} {p : Port} {seq : Byte}

/-! ### What taking the frame of a query leaves -/

theorem State.setPort_overruns {u : PortUnit} (hu : u.overruns = (s.port p).overruns) (q : Port) :
    ((s.setPort p u).port q).overruns = (s.port q).overruns := by
  rw [State.port_setPort]
  split
  · next hq => rw [hq, hu]
  · rfl

theorem State.post_overruns (s : State) (p : Port) (x : Notice) (q : Port) :
    ((s.post p x).port q).overruns = (s.port q).overruns := by
  have hmove : ∀ u : State, ((u.moveNotice p).port q).overruns = (u.port q).overruns := fun u => by
    unfold State.moveNotice
    dsimp only
    split
    · exact u.setPort_overruns (p := p) (by rfl) q
    · rfl
  unfold State.post
  dsimp only
  split
  · rfl
  · split
    · exact hmove _
    · rfl

/-- Taking a frame counts no overrun (R168, R174). -/
@[simp] theorem State.takeFrame_overruns (s : State) (p q : Port) (seq : Byte) :
    ((s.takeFrame p seq).port q).overruns = (s.port q).overruns := by
  have hconsume : ((s.consume p).port q).overruns = (s.port q).overruns := s.setPort_overruns (p := p) (by rfl) q
  have hexpect : ∀ u : State, ((u.setPort p { u.port p with expected := some (seq + 1) }).port q).overruns =
      (u.port q).overruns := fun u => u.setPort_overruns (p := p) (by rfl) q
  unfold State.takeFrame State.sequenceCheck
  split
  · refine (hexpect _).trans (.trans ?_ hconsume)
    split
    · rfl
    · exact State.post_overruns ..
  · exact (hexpect _).trans hconsume
  · exact hconsume

@[simp] theorem State.takeFrame_windows (s : State) (p : Port) (seq : Byte) : (s.takeFrame p seq).windows = s.windows := by
  rw [State.takeFrame_only]

@[simp] theorem State.takeFrame_straps (s : State) (p : Port) (seq : Byte) : (s.takeFrame p seq).straps = s.straps := by
  rw [State.takeFrame_only]

@[simp] theorem State.takeFrame_entries (s : State) (p q : Port) (seq : Byte) :
    (s.takeFrame p seq).entries q = s.entries q := by
  rw [State.takeFrame_only]
  rfl

theorem State.nandSlot_takeFrame (s : State) (p : Port) (seq x : Byte) :
    (s.takeFrame p seq).nandSlot x = s.nandSlot x := by
  rw [State.takeFrame_only]
  rfl

/-! ### The counts of a STATUS body -/

/-- Every entry is in one of the five states (R15–R19). -/
theorem length_eq_sum_of_states (es : List Entry) :
    (es.filter (fun e => e.state == .held)).length + (es.filter (fun e => e.state == .queued)).length +
      (es.filter (fun e => e.state == .active)).length + (es.filter (fun e => e.state == .replying)).length +
      (es.filter (fun e => e.state == .orphaned)).length = es.length := by
  induction es with
  | nil => rfl
  | cons e es ih =>
    simp only [List.filter_cons, List.length_cons]
    cases e.state <;> simp <;> omega

theorem length_leBytes (n x : Nat) : (leBytes n x).length = n := by
  induction n generalizing x with
  | zero => rfl
  | succ n ih => rw [leBytes, List.length_cons, ih]

/-- The free segments and both holdings make 64 (R27). -/
theorem State.PoolLaw.total (h : s.PoolLaw) :
    s.pool.free.length + s.pool.holding.a + s.pool.holding.b = 64 := by
  obtain ⟨hperm, -, hholding, -⟩ := h
  have hlength := hperm.length_eq
  rw [List.length_append, List.length_append, List.length_range, ← hholding .a, ← hholding .b] at hlength
  exact (Nat.add_assoc _ _ _).trans hlength

/-- The STATUS body on the state that taking the frame leaves: only the notices may have changed with a SEQ-GAP (R168). -/
theorem State.statusBody_takeFrame (s : State) (p : Port) (seq : Byte) :
    let u := s.takeFrame p seq
    u.statusBody p = s.entryCounts .a ++ s.entryCounts .b ++
      [byte s.pool.free.length, byte s.pool.holding.a, byte s.pool.holding.b] ++
      s.slotStatus .s1 ++ s.slotStatus .s2 ++ s.slotStatus .s3 ++ s.slotStatus .s4 ++
      [s.sdram.state.code, byte s.sdram.debt] ++ leBytes 2 s.sdram.overruns ++
      [byte u.notices.a.queue.length] ++ leBytes 2 u.notices.a.lost ++
      [byte u.notices.b.queue.length] ++ leBytes 2 u.notices.b.lost ++
      leBytes 2 (s.port .a).overruns ++ leBytes 2 (s.port .b).overruns ++
      [byte ((s.port .a).held + if Port.a = p then 1 else 0), byte ((s.port .b).held + if Port.b = p then 1 else 0)] := by
  intro u
  have hcounts : ∀ q, u.entryCounts q = s.entryCounts q := fun q => by
    simp only [u, State.entryCounts, State.countIn, State.takeFrame_entries]
  have hslot : ∀ c, u.slotStatus c = s.slotStatus c := fun c => by
    simp only [u, State.slotStatus, State.takeFrame_profile, State.takeFrame_health]
  have hports : ∀ q, (u.port q).overruns = (s.port q).overruns := fun q => State.takeFrame_overruns s p q seq
  have ha : u.ports.a.overruns = _ := hports .a
  have hb : u.ports.b.overruns = _ := hports .b
  simp only [State.statusBody, hcounts, hslot, ha, hb]
  simp only [u, State.takeFrame_pool, State.takeFrame_sdram, State.takeFrame_held]

/-! ### What each query answers -/

section
variable {token x : Byte} {c : Chip}

theorem State.winGetAct_of_window {w : Window} (hw : s.windows[x.toNat]? = some w) :
    s.winGetAct p [token, x] = s.reply p token .winGet .ok (x :: w.block) := by
  have hindex : s.windows[(at8 [token, x] 1).toNat]? = some w := hw
  unfold State.winGetAct
  rw [hindex]
  rfl

/-- An index above 7 (R38). -/
theorem State.winGetAct_beyond (hx : s.windows.length ≤ x.toNat) :
    s.winGetAct p [token, x] = s.reply p token .winGet .badArg [] := by
  have hindex : s.windows[(at8 [token, x] 1).toNat]? = none := List.getElem?_eq_none hx
  unfold State.winGetAct
  rw [hindex]
  rfl

theorem State.slotGetAct_of_chip (hc : chipOfCode x = some c) :
    s.slotGetAct p [token, x] =
      s.reply p token .slotGet .ok ([x] ++ (s.profile c).block ++ [(s.health.get c).code]) := by
  have hchip : chipOfCode (at8 [token, x] 1) = some c := hc
  unfold State.slotGetAct
  rw [hchip]
  rfl

/-- A code that names none of S1 to S4 (R74). -/
theorem State.slotGetAct_unknown (hc : chipOfCode x = none) :
    s.slotGetAct p [token, x] = s.reply p token .slotGet .badArg [] := by
  have hchip : chipOfCode (at8 [token, x] 1) = none := hc
  unfold State.slotGetAct
  rw [hchip]
  rfl

theorem State.retireListAct_of_slot (hc : s.nandSlot x = some c) :
    s.retireListAct p [token, x] = s.reply p token .retireList .ok
      ([x, byte (s.retired.get c).length] ++ (s.retired.get c).flatMap (leBytes 2)) := by
  have hslot : s.nandSlot (at8 [token, x] 1) = some c := hc
  unfold State.retireListAct
  rw [hslot]
  rfl

/-- Any other slot code (R141). -/
theorem State.retireListAct_of_no_slot (hc : s.nandSlot x = none) :
    s.retireListAct p [token, x] = s.reply p token .retireList .badArg [] := by
  have hslot : s.nandSlot (at8 [token, x] 1) = none := hc
  unfold State.retireListAct
  rw [hslot]
  rfl

end

/-! ### The statement -/

/-- Settles O33: each query on the state that taking its frame leaves, whose windows, slots, lists and counts are those of
the state before. -/
theorem queriesAnswerAndChangeNothing : Obligations.QueriesAnswerAndChangeNothing := by
  intro s p seq token x answers count counts slot slots notices body
  have query : ∀ {k d st reply} (owner : State → State),
      exec (controlOf k p seq d) s = .next (s.takeControl k p seq d owner).settle →
      owner (s.takeFrame p seq) = (s.takeFrame p seq).reply p token k st reply → answers k d st reply :=
    fun owner hrow howner hreaches => by rw [hrow, State.takeControl_of_reaches hreaches owner, howner]
  have hbody : (s.takeFrame p seq).statusBody p = body := by
    have hcounts : ∀ q, counts q = s.entryCounts q := fun q => by
      simp only [counts, count, State.entryCounts, State.countIn, List.countP_eq_length_filter]
    simp only [body, hcounts, State.statusBody_takeFrame, List.append_assoc]
    rfl
  have hslot : ∀ c, chipOfCode x = some c → (s.takeFrame p seq).nandSlot x =
      if (s.profile c).type = .nand then some c else none := fun c hc => by
    rw [State.nandSlot_takeFrame, State.nandSlot_of_chip hc]
  refine ⟨query _ rfl ?_, ?_, fun q => length_eq_sum_of_states _, State.PoolLaw.total, query _ rfl ?_,
    fun w hw => query _ rfl (State.winGetAct_of_window (by rwa [State.takeFrame_windows])),
    fun hx => query _ rfl (State.winGetAct_beyond (by rwa [State.takeFrame_windows])),
    fun c hc => ⟨query _ rfl ?_, fun ht => query _ rfl ?_, fun ht => query _ rfl ?_⟩,
    fun hx => ⟨query _ rfl (State.slotGetAct_unknown hx),
      query _ rfl (State.retireListAct_of_no_slot (State.nandSlot_unknown hx))⟩, query _ rfl ?_⟩
  · exact congrArg ((s.takeFrame p seq).reply p token .status .ok) hbody
  · simp only [body, counts, slot, notices, List.length_append, List.length_cons, List.length_nil, length_leBytes]
  · simp only [State.infoAct, State.infoBody, State.takeFrame_straps]
    rfl
  · rw [State.slotGetAct_of_chip hc, State.takeFrame_profile, State.takeFrame_health]
  · rw [State.retireListAct_of_slot ((hslot c hc).trans (if_pos ht)), State.takeFrame_retired]
  · exact State.retireListAct_of_no_slot ((hslot c hc).trans (if_neg ht))
  · simp only [State.sdrGetAct, State.takeFrame_sdram]
    rfl

end Sys2Proof.Machine
end

section
/-! The port reset by its seven steps (R25, R43, R53, R156, R175, R180; log entries 9, 27). -/
namespace Sys2Proof.Machine

variable {s t : State} {p q : Port}

/-! ### The steps on entries, queues, segments and deferred replies -/

theorem Entry.afterPortReset_isNone (e : Entry) :
    e.afterPortReset.isNone = decide (e.state = .held ∨ e.state = .queued ∨ e.state = .replying) := by
  unfold Entry.afterPortReset
  cases e.state <;> rfl

/-- An entry that a port reset does not free is worked on, and it becomes or stays ORPHANED (R25). -/
theorem Entry.afterPortReset_eq (e : Entry) :
    e.afterPortReset = if e.state = .held ∨ e.state = .queued ∨ e.state = .replying then none
      else some { e with state := .orphaned } := by
  split
  · next hfreed => exact Option.isNone_iff_eq_none.1 (e.afterPortReset_isNone.trans (decide_eq_true hfreed))
  · next hkept =>
    refine Entry.afterPortReset_of_works ?_
    cases hst : e.state <;> simp_all [EntryState.works]

/-- What a port reset leaves of the port's entries: those it does not free, each ORPHANED. -/
theorem filterMap_afterPortReset (es : List Entry) :
    es.filterMap Entry.afterPortReset =
      (es.filter (fun e => !decide (e.state = .held ∨ e.state = .queued ∨ e.state = .replying))).map
        (fun e => { e with state := .orphaned }) := by
  induction es with
  | nil => rfl
  | cons e es ih =>
    rw [List.filterMap_cons, Entry.afterPortReset_eq, List.filter_cons]
    by_cases hfreed : e.state = .held ∨ e.state = .queued ∨ e.state = .replying <;> simp [hfreed, ih]

theorem resetSegments_eq (es : List Entry) :
    resetSegments es =
      (es.filter (fun e => decide (e.state = .held ∨ e.state = .queued ∨ e.state = .replying))).flatMap Entry.segments := by
  simp only [resetSegments, Entry.afterPortReset_isNone]

/-- The deferred replies of the other port stay (R175). -/
theorem dropFor_eq_filter (p : Port) (d : Option Deferred) : dropFor p d = d.filter (fun x => decide (x.port ≠ p)) := by
  cases d with
  | none => rfl
  | some x => by_cases hx : x.port = p <;> simp [dropFor, Option.filter, hx]

theorem mem_foldl_insertAsc (n : Nat) (segments l : List Nat) :
    n ∈ segments.foldl (fun l m => insertAsc m l) l ↔ n ∈ l ∨ n ∈ segments := by
  induction segments generalizing l with
  | nil => simp
  | cons m segments ih =>
    rw [List.foldl_cons, ih, mem_insertAsc, List.mem_cons]
    tauto

/-! ### A post to one port -/

/-- A post leaves the unit and the notices of the other port (R157, R159). -/
theorem State.post_other (x : Notice) (h : q ≠ p) :
    (s.post p x).port q = s.port q ∧ (s.post p x).notices.get q = s.notices.get q := by
  have hmove : ∀ u : State, (u.moveNotice p).port q = u.port q ∧ (u.moveNotice p).notices.get q = u.notices.get q :=
    fun u => by
      unfold State.moveNotice
      dsimp only
      split
      · exact ⟨(u.port_setPort p q _).trans (if_neg h), (ByPort.get_set _ _ _ _).trans (if_neg h)⟩
      · exact ⟨rfl, rfl⟩
  unfold State.post
  dsimp only
  split
  · exact ⟨rfl, rfl⟩
  · split
    · obtain ⟨hport, hnotices⟩ := hmove { s with notices := _ }
      exact ⟨hport, hnotices.trans ((ByPort.get_set _ _ _ _).trans (if_neg h))⟩
    · exact ⟨rfl, (ByPort.get_set _ _ _ _).trans (if_neg h)⟩

/-- What a post does to its port is decided by the unit and the notices of the port alone. -/
theorem State.post_congr (x : Notice) (hport : t.port p = s.port p) (hnotices : t.notices.get p = s.notices.get p) :
    (t.post p x).port p = (s.post p x).port p ∧ (t.post p x).notices.get p = (s.post p x).notices.get p := by
  have hmove : ∀ u v : State, v.port p = u.port p → v.notices.get p = u.notices.get p →
      (v.moveNotice p).port p = (u.moveNotice p).port p ∧
        (v.moveNotice p).notices.get p = (u.moveNotice p).notices.get p := fun u v hport hnotices => by
    unfold State.moveNotice
    simp only [hport, hnotices]
    split
    · have hset : ∀ w : State, ∀ x, (w.setPort p x).port p = x := fun w x => (w.port_setPort p p x).trans (if_pos rfl)
      exact ⟨(hset v _).trans (hset u _).symm, by simp only [ByPort.get_set, if_true]⟩
    · exact ⟨hport, hnotices⟩
  unfold State.post
  simp only [hport, hnotices]
  split
  · exact ⟨hport, hnotices⟩
  · split
    · exact hmove _ _ hport (by simp only [ByPort.get_set, if_true])
    · exact ⟨hport, by simp only [ByPort.get_set, if_true]⟩

/-! ### The steps together -/

section
variable (s : State) (p : Port) (cause : PortStart)

/-- With no bridge reset of the port pending a port reset is its own part and the notice to the other port (R180, R181). -/
theorem State.portReset_of_not_pending (h : s.bridgeReset ≠ some p) :
    s.portReset p cause = (s.cleared p cause).post p.other (.peerReset p cause) := by
  rw [State.portReset_eq, if_neg h]

theorem State.table_cleared :
    (s.cleared p cause).table = s.table.set p ((s.entries p).filterMap Entry.afterPortReset) := rfl

theorem State.pool_cleared : (s.cleared p cause).pool = s.pool.release p (resetSegments (s.entries p)) := rfl

theorem State.arbiter_cleared : (s.cleared p cause).arbiter = (s.resetEntries p).arbiter := rfl

theorem State.sdram_cleared : (s.cleared p cause).sdram =
    { s.sdram with setReply := dropFor p s.sdram.setReply, sleepReply := dropFor p s.sdram.sleepReply } := rfl

theorem State.notices_cleared (q : Port) : (s.cleared p cause).notices.get q =
    if q = p then (s.notices.get p).reset else s.notices.get q := ByPort.get_set _ _ _ _

/-- An entry after a port reset was there before, was not freed, and is ORPHANED (R25). -/
theorem mem_filterMap_afterPortReset {es : List Entry} (e : Entry) :
    e ∈ es.filterMap Entry.afterPortReset ↔ ∃ o ∈ es, ¬(o.state = .held ∨ o.state = .queued ∨ o.state = .replying) ∧
      e = { o with state := .orphaned } := by
  simp only [filterMap_afterPortReset, List.mem_map, List.mem_filter, Bool.not_eq_true', decide_eq_false_iff_not, and_assoc,
    eq_comm (a := e)]

theorem mem_resetSegments (es : List Entry) (n : Nat) :
    n ∈ resetSegments es ↔
      ∃ e ∈ es, (e.state = .held ∨ e.state = .queued ∨ e.state = .replying) ∧ n ∈ e.segments := by
  simp only [resetSegments_eq, List.mem_flatMap, List.mem_filter, decide_eq_true_iff, and_assoc]

end

/-- The blocks that a port reset works on, and those that it leaves to the steps of its own part (R180). -/
theorem State.portReset_blocks (s : State) (p : Port) (cause : PortStart) (h : s.bridgeReset ≠ some p) :
    let t := s.portReset p cause;
    t.table = s.table.set p ((s.entries p).filterMap Entry.afterPortReset) ∧
      t.pool = s.pool.release p (resetSegments (s.entries p)) ∧
      t.arbiter = (s.resetEntries p).arbiter ∧
      t.sdram = { s.sdram with setReply := dropFor p s.sdram.setReply, sleepReply := dropFor p s.sdram.sleepReply } ∧
      ∀ c, t.context c = (s.context c).dropReply p := by
  intro t
  have ht : t = _ := s.portReset_of_not_pending p cause h
  refine ⟨?_, ?_, ?_, ?_, fun c => ?_⟩
  · rw [ht, State.post_table, State.table_cleared]
  · rw [ht, State.post_pool, State.pool_cleared]
  · rw [ht, State.post_arbiter, State.arbiter_cleared]
  · rw [ht, State.post_sdram, State.sdram_cleared]
  · rw [ht, State.context, State.post_nand]
    exact s.context_cleared p cause c

/-- The units and the notices after a port reset: the port's own are cleared, and the other port has PEER-RESET posted. -/
theorem State.portReset_ports (s : State) (p : Port) (cause : PortStart) (h : s.bridgeReset ≠ some p) :
    let t := s.portReset p cause
    let peer := s.post p.other (.peerReset p cause);
    t.port p = (s.port p).reset cause ∧ t.notices.get p = (s.notices.get p).reset ∧
      t.port p.other = peer.port p.other ∧ t.notices.get p.other = peer.notices.get p.other := by
  intro t peer
  have ht : t = _ := s.portReset_of_not_pending p cause h
  obtain ⟨hport, hnotices⟩ := (s.cleared p cause).post_other (p := p.other) (q := p) (.peerReset p cause) p.ne_other
  obtain ⟨hpeer, hpeerNotices⟩ := State.post_congr (s := s) (t := s.cleared p cause) (p := p.other) (.peerReset p cause)
    ((s.port_cleared p p.other cause).trans (if_neg p.other_ne))
    ((s.notices_cleared p cause p.other).trans (if_neg p.other_ne))
  rw [ht, hport, hnotices, hpeer, hpeerNotices, State.port_cleared, State.notices_cleared, if_pos rfl, if_pos rfl]
  exact ⟨rfl, rfl, rfl, rfl⟩

/-! ### The statement -/

/-- Settles O13: the steps on the port's entries, segments, queue places and deferred replies, on its unit and its notices, and
what the other port keeps but for PEER-RESET. -/
theorem portResetTakesItsSevenSteps : Obligations.PortResetTakesItsSevenSteps := by
  refine ⟨fun s p cause h => ?_, fun s p cause _ h => ?_⟩ <;>
    obtain ⟨htable, hpool, harbiter, hsdram, hcontext⟩ := s.portReset_blocks p cause h
  · intro freed left t kept
    refine ⟨?_, ?_, harbiter, ?_, fun c => ?_⟩
    · rw [htable, filterMap_afterPortReset]
    · rw [hpool, resetSegments_eq]
    · rw [hsdram, dropFor_eq_filter, dropFor_eq_filter]
    · rw [hcontext, Context.dropReply, dropFor_eq_filter]
  · intro t freed
    obtain ⟨hport, hnotices, hpeer, hpeerNotices⟩ := s.portReset_ports p cause h
    have ht : t = _ := s.portReset_of_not_pending p cause h
    have hentries : ∀ q, t.entries q = if q = p then (s.entries p).filterMap Entry.afterPortReset else s.entries q :=
      fun q => by
        rw [State.entries, htable, ByPort.get_set]
        rfl
    have hholding : t.pool.holding.get p.other = s.pool.holding.get p.other := by
      rw [hpool]
      exact (ByPort.get_set _ _ _ _).trans (if_neg p.other_ne)
    have hdeferred : ∀ q, t.deferredCount q = if q = p then 0 else s.deferredCount q := fun q => by
      rw [← s.deferredCount_cleared p q cause]
      exact State.deferredCount_congr (congrArg Sdram.setReply hsdram) (congrArg Sdram.sleepReply hsdram)
        (fun c => by rw [hcontext, State.context_cleared]) q
    refine ⟨fun e => ?_, (hentries _).trans (if_neg p.other_ne), fun k => ?_, fun n => ?_, hholding,
      congrArg unusedReserve hholding, (congrArg Pool.bytes hpool :), (hdeferred p).trans (if_pos rfl),
      (hdeferred _).trans (if_neg p.other_ne), hport, State.txd_idle (congrArg PortUnit.tx hport), hnotices, hpeer,
      hpeerNotices, ?_, (congrArg Arbiter.profiles harbiter :), (congrArg Arbiter.tenure harbiter :), ?_, ?_,
      (congrArg Sdram.state hsdram :), (congrArg Sdram.rows hsdram :), (congrArg Sdram.debt hsdram :),
      (congrArg Sdram.sleepPending hsdram :), ?_⟩
    · rw [hentries, if_pos rfl, mem_filterMap_afterPortReset]
    · rw [State.queue, harbiter]
      exact s.queue_resetEntries p k
    · rw [hpool, ← mem_resetSegments]
      exact mem_foldl_insertAsc n _ _
    · rw [ht, State.post_windows]
      rfl
    · rw [ht, State.post_health]
      rfl
    · rw [ht, State.post_retired]
      rfl
    · rw [ht, State.post_startup]
      rfl

end Sys2Proof.Machine
end

section
/-! The footing of the bridge: what the resets, HELLO and the PORTS entry alone move. It is the straps, the clock, the reset
cause, the commands that wait, and each port's state and CONFIG right (R164, R170, R172, R173, R192). -/
namespace Sys2Proof.Machine

structure Footing where
  straps : Straps
  now : Nat
  cause : Cause
  pending : List Instr
  states : ByPort PortState
  rights : ByPort Bool

def State.footing (s : State) : Footing where
  straps := s.straps
  now := s.now
  cause := s.startup.cause
  pending := s.pending
  states := ⟨(s.port .a).state, (s.port .b).state⟩
  rights := ⟨(s.port .a).config, (s.port .b).config⟩

namespace State

variable {s t u : State}

theorem states_footing (s : State) (p : Port) : s.footing.states.get p = (s.port p).state := by cases p <;> rfl

theorem rights_footing (s : State) (p : Port) : s.footing.rights.get p = (s.port p).config := by cases p <;> rfl

/-! ### Places in the state -/

/-- Port units of the same standing and all else outside the blocks kept. -/
theorem footing_of_ports (h : t = { s with ports := t.ports, notices := t.notices })
    (hports : ∀ p, (s.port p).SameStanding (t.port p)) : t.footing = s.footing := by
  have hfooting : t.footing = { s.footing with
      states := ⟨(t.port .a).state, (t.port .b).state⟩, rights := ⟨(t.port .a).config, (t.port .b).config⟩ } := by
    rw [h]
    rfl
  rw [hfooting, (hports .a).state, (hports .a).config, (hports .b).state, (hports .b).config]
  rfl

theorem footing_setPort {p : Port} {x : PortUnit} (hstate : x.state = (s.port p).state)
    (hconfig : x.config = (s.port p).config) : (s.setPort p x).footing = s.footing := by
  cases p <;> simp only [footing, setPort, port, ByPort.set, ByPort.get] at hstate hconfig ⊢ <;> rw [hstate, hconfig]

theorem footing_setStartup {x : Startup} (h : x.cause = s.startup.cause) : (s.setStartup x).footing = s.footing := by
  unfold footing setStartup
  rw [h]
  rfl

theorem footing_updateEntry (r : Ref) (f : Entry → Entry) : (s.updateEntry r f).footing = s.footing := rfl

theorem footing_freeEntry (r : Ref) : (s.freeEntry r).footing = s.footing := by
  rw [freeEntry_only]
  rfl

/-! ### Ready lists, notices and frames -/

theorem footing_post (p : Port) (x : Notice) : (s.post p x).footing = s.footing :=
  footing_of_ports (s.post_only p x) fun q => s.post_standing p q x

theorem footing_postBoth (x : Notice) : (s.postBoth x).footing = s.footing := (footing_post ..).trans (footing_post ..)

theorem footing_postSome (x : Option Notice) : (s.postSome x).footing = s.footing := by
  cases x with
  | none => rfl
  | some n => exact footing_postBoth n

theorem footing_moveNotice (p : Port) : (s.moveNotice p).footing = s.footing := by
  unfold moveNotice
  dsimp only
  split
  · exact footing_setPort (s := s) (p := p) rfl rfl
  · rfl

theorem footing_pushReady (p : Port) (i : Item) : (s.pushReady p i).footing = s.footing := footing_setPort rfl rfl

theorem footing_holdSlot (p : Port) : (s.holdSlot p).footing = s.footing := footing_setPort rfl rfl

theorem footing_overrun (p : Port) : (s.overrun p).footing = s.footing :=
  (footing_post ..).trans (footing_setPort rfl rfl)

theorem footing_reply (p : Port) (token : Byte) (k : CtrlKind) (st : Status) (d : List Byte) :
    (s.reply p token k st d).footing = s.footing :=
  (footing_pushReady ..).trans (footing_holdSlot ..)

theorem footing_slotAnswer (p : Port) (i : Item) : (s.slotAnswer p i).footing = s.footing := by
  unfold slotAnswer
  split
  · exact (footing_pushReady ..).trans (footing_holdSlot ..)
  · exact footing_overrun ..

theorem footing_deferredReply (d : Option Deferred) (k : CtrlKind) (st : Status) (body : List Byte) :
    (s.deferredReply d k st body).footing = s.footing := by
  cases d with
  | none => rfl
  | some x => exact footing_pushReady ..

theorem footing_takeFrame (p : Port) (seq : Byte) : (s.takeFrame p seq).footing = s.footing :=
  footing_of_ports (s.takeFrame_only p seq) fun q => s.takeFrame_standing p q seq

theorem footing_pump (p : Port) : (s.pump p).footing = s.footing := by
  unfold pump
  dsimp only
  split
  · exact footing_setPort rfl rfl
  · rfl

theorem footing_dropFrame (p : Port) (r : DropReason) : (s.dropFrame p r).footing = s.footing :=
  (footing_post ..).trans (footing_setPort rfl rfl)

theorem footing_receive (p : Port) (c : Byte) : (s.receive p c).footing = s.footing := by
  unfold receive judgeFrame
  dsimp only
  split
  · rfl
  · exact footing_setPort rfl rfl
  · split_ifs
    · exact footing_dropFrame ..
    · exact footing_dropFrame ..
    · exact footing_setPort rfl rfl
    · exact footing_dropFrame ..
    · exact footing_setPort rfl rfl

theorem footing_character (p : Port) (c : Byte) (stop : Bool) : (s.character p c stop).footing = s.footing := by
  unfold character
  split
  · rfl
  · exact footing_receive ..

theorem footing_gapTimeout (p : Port) : (s.gapTimeout p).footing = s.footing := by
  unfold gapTimeout
  split
  · exact footing_dropFrame ..
  · rfl

theorem footing_rxdHigh (p : Port) : (s.rxdHigh p).footing = s.footing := by
  unfold rxdHigh
  dsimp only
  split
  · exact footing_setPort (s := s.setRxd p true) rfl rfl
  · rfl

/-! ### The Request Table -/

theorem footing_finish (r : Ref) (st : Status) : (s.finish r st).footing = s.footing := by
  unfold finish
  split
  · rfl
  · split
    · exact footing_freeEntry r
    · refine (footing_pushReady ..).trans ((footing_updateEntry ..).trans ?_)
      split
      · rw [releaseSegments_only]
        rfl
      · rfl

theorem footing_retireHead (c : Chip) (r : Ref) : (s.retireHead c r).footing = s.footing := footing_finish ..

theorem footing_join (r : Ref) (k : Slot) : (s.join r k).footing = s.footing := by
  unfold join
  dsimp only
  cases k with
  | sd => rfl
  | chip c =>
    dsimp only
    split
    · exact footing_retireHead ..
    · rfl

theorem footing_releaseHeld (p : Port) (e : Entry) : (s.releaseHeld p e).footing = s.footing := by
  unfold releaseHeld
  split
  · exact footing_join ..
  · exact footing_finish ..

theorem footing_evalFencesFuel (p : Port) (n : Nat) : (evalFencesFuel n s p).footing = s.footing := by
  induction n generalizing s with
  | zero => rfl
  | succ n ih =>
    unfold evalFencesFuel
    split
    · exact ih.trans (footing_releaseHeld ..)
    · rfl

theorem footing_evalFences (p : Port) : (s.evalFences p).footing = s.footing := footing_evalFencesFuel ..

theorem footing_complete (r : Ref) (st : Status) : (s.complete r st).footing = s.footing := by
  unfold complete
  split
  · rfl
  · split
    · exact footing_finish ..
    · exact (footing_evalFences _).trans (footing_finish ..)

theorem footing_examineFuel (c : Chip) (n : Nat) : (examineFuel n s c).footing = s.footing := by
  induction n generalizing s with
  | zero => rfl
  | succ n ih =>
    unfold examineFuel
    split
    · exact ih.trans ((footing_evalFences _).trans (footing_retireHead ..))
    · rfl

theorem footing_examine (c : Chip) : (s.examine c).footing = s.footing := footing_examineFuel ..

theorem footing_examineHeads : s.examineHeads.footing = s.footing :=
  (footing_examine _).trans ((footing_examine _).trans ((footing_examine _).trans (footing_examine _)))

theorem footing_flushList (k : Slot) (l : List Ref) : (s.flushList k l).footing = s.footing := by
  induction l generalizing s with
  | nil => rfl
  | cons r l ih =>
    unfold flushList
    refine ih.trans ?_
    split
    · exact footing_finish ..
    · rfl

theorem footing_flush (k : Slot) : (s.flush k).footing = s.footing := by
  have hfences : ∀ (b : Bool) (p : Port) (u : State), (if b then u.evalFences p else u).footing = u.footing := fun b p u => by
    cases b
    · rfl
    · exact footing_evalFences p
  exact (hfences _ .b _).trans ((hfences _ .a _).trans (footing_flushList k _))

theorem footing_create (e : Entry) (data : List Byte) : (s.create e data).footing = s.footing := by
  rw [create_eq]
  split
  · rfl
  · exact footing_join ..

theorem footing_dealRequest (k : ReqKind) (p : Port) (d : List Byte) : (s.dealRequest k p d).footing = s.footing := by
  unfold dealRequest admitRequest
  split
  · exact footing_slotAnswer ..
  · exact footing_slotAnswer ..
  · split
    · exact footing_slotAnswer ..
    · split
      · exact footing_create ..
      · exact footing_slotAnswer ..

theorem footing_cancelEntry (e : Entry) : (s.cancelEntry e).footing = s.footing := by
  have hcomplete : ((if e.state = .queued then s.dequeue e.slot e.ref else s).complete e.ref .cancelled).footing =
      s.footing := by
    split
    · exact footing_complete ..
    · exact footing_complete ..
  unfold cancelEntry
  dsimp only
  split
  · exact (footing_examine _).trans hcomplete
  · exact hcomplete

/-! ### Grants and the ends of tenures -/

theorem footing_grant : s.grant.footing = s.footing := by
  rw [grant_only]
  rfl

theorem footing_settle : s.settle.footing = s.footing :=
  footing_grant.trans ((footing_pump _).trans (footing_pump _))

theorem footing_endTenure (w : Bool) (cs : List BusCycle) : (s.endTenure w cs).footing = s.footing := by
  rw [endTenure_only]
  rfl

theorem footing_endSd (w : Bool) (x : SdTrace) : (s.endSd w x).footing = s.footing := footing_endTenure ..

theorem footing_endWork (e : Entry) (st : Status) : (s.endWork e st).footing = s.footing := footing_complete ..

theorem footing_stageChunk (e : Entry) (w : Nat) (xs : List Sample) : (s.stageChunk e w xs).footing = s.footing := by
  unfold stageChunk
  split <;> rfl

theorem footing_moveChunk (t : Tenure) (e : Entry) (xs : List Sample) : (s.moveChunk t e xs).footing = s.footing := by
  unfold moveChunk
  dsimp only
  split
  · exact (footing_endTenure ..).trans (footing_stageChunk ..)
  · exact (footing_endSd (s := s.stageChunk e _ xs) ..).trans (footing_stageChunk ..)

theorem footing_chunkEnd (xs : List Sample) : (s.chunkEnd xs).footing = s.footing := by
  unfold chunkEnd
  dsimp only
  split
  · split
    · exact (footing_endWork ..).trans (footing_moveChunk ..)
    · exact footing_moveChunk ..
  · rfl

theorem footing_moveAtomic (t : Tenure) (e : Entry) (xs : List Sample) : (s.moveAtomic t e xs).footing = s.footing := by
  unfold moveAtomic
  dsimp only
  split
  · exact footing_endTenure ..
  · exact footing_endSd (s := s.stage ..) ..

theorem footing_atomicEnd (xs : List Sample) : (s.atomicEnd xs).footing = s.footing := by
  unfold atomicEnd
  split
  · exact (footing_endWork ..).trans (footing_moveAtomic ..)
  · rfl

theorem footing_stall (c : Chip) (e : Entry) (k : Nat) (xs : List Sample) : (s.stall c e k xs).footing = s.footing := by
  have hstage : ((s.setHealth c .stalled).stageWaited (s.profile c) e k xs).footing = s.footing := by
    unfold stageWaited
    split <;> rfl
  have hgrant := footing_grant.trans ((footing_endTenure (s.waitCycles (s.profile c) e k xs).1
    (s.waitCycles (s.profile c) e k xs).2).trans hstage)
  exact (footing_postBoth _).trans ((footing_flush _).trans ((footing_endWork e .busTimeout).trans hgrant))

theorem footing_waitLimit (k : Nat) (xs : List Sample) : (s.waitLimit k xs).footing = s.footing := by
  unfold waitLimit
  split
  · split
    · exact footing_stall ..
    · rfl
  · rfl

/-! ### Start-up -/

theorem footing_tryRun : s.tryRun.footing = s.footing := by
  unfold tryRun
  dsimp only
  split
  · split <;> exact footing_setStartup rfl
  · rfl

theorem footing_copyEnded (l : Load) (x : CopyReason) : (s.copyEnded l x).footing = s.footing := by
  unfold copyEnded
  dsimp only
  split
  · exact footing_tryRun.trans (footing_setStartup rfl)
  · split
    · exact footing_tryRun.trans (footing_setStartup rfl)
    · exact footing_setStartup rfl

theorem footing_countApplied : s.countApplied.footing = s.footing := footing_setStartup rfl

theorem footing_countSkipped (n index : Nat) : (s.countSkipped n index).footing = s.footing := footing_setStartup rfl

theorem footing_advanceWalk (size : Nat) : (s.advanceWalk size).footing = s.footing := by
  unfold advanceWalk
  split
  · rfl
  · exact footing_setStartup rfl

theorem footing_walkUnknown : s.walkUnknown.footing = s.footing := by
  unfold walkUnknown
  split
  · rfl
  · split
    · exact footing_tryRun.trans ((footing_setStartup rfl).trans (footing_countSkipped ..))
    · split
      · exact footing_tryRun.trans ((footing_advanceWalk _).trans (footing_countSkipped ..))
      · rfl

/-- The PORTS entry writes the rights and nothing else (R192). -/
theorem footing_applyPorts (e : NextEntry) : ∃ r, (s.applyPorts e).footing = { s.footing with rights := r } := by
  unfold applyPorts
  split
  · next ra rb _ _ => exact ⟨⟨ra, rb⟩, footing_countApplied.trans rfl⟩
  · exact ⟨_, footing_countSkipped ..⟩

theorem footing_applySlotEntry (e : NextEntry) : (s.applySlotEntry e).footing = s.footing := by
  unfold applySlotEntry
  split
  · exact footing_countApplied
  · exact footing_countSkipped ..

theorem footing_applySdramEntry (e : NextEntry) : (s.applySdramEntry e).footing = s.footing := by
  unfold applySdramEntry
  split
  · exact footing_countApplied
  · exact footing_countSkipped ..

theorem footing_applyWindowBlock (entry index : Nat) (d : List Byte) :
    (s.applyWindowBlock entry index d).footing = s.footing := by
  unfold applyWindowBlock
  split
  · exact footing_countApplied
  · exact footing_countSkipped ..

theorem footing_supersede (index : Nat) : (s.supersede index).footing = s.footing := by
  unfold supersede
  split
  · exact (footing_setStartup rfl).trans (footing_countSkipped ..)
  · rfl

theorem footing_applyWindowEntry (e : NextEntry) : (s.applyWindowEntry e).footing = s.footing := by
  unfold applyWindowEntry
  dsimp only
  split
  · exact (footing_setStartup rfl).trans (footing_supersede _)
  · exact (footing_applyWindowBlock ..).trans (footing_supersede _)

theorem footing_applyDeferred : s.applyDeferred.footing = s.footing := by
  have all : ∀ (l : List DeferredWindow) (u : State),
      (l.foldl (fun u x => u.applyWindowBlock x.entry x.index x.block) u).footing = u.footing := fun l => by
    induction l with
    | nil => exact fun _ => rfl
    | cons x l ih => exact fun u => (ih _).trans (footing_applyWindowBlock ..)
  exact (footing_setStartup rfl).trans (all _ s)

theorem footing_settleStartup : s.settleStartup.footing = s.footing := by
  unfold settleStartup
  split
  · exact footing_tryRun.trans footing_applyDeferred
  · rfl

theorem footing_applyRetireBlocks (code : Byte) (l : List Nat) : (s.applyRetireBlocks code l).1.footing = s.footing := by
  induction l generalizing s with
  | nil => rfl
  | cons b l ih =>
    unfold applyRetireBlocks
    split
    · refine ih.trans ?_
      split <;> rfl
    · exact ih

theorem footing_applyRetireEntry (e : NextEntry) : (s.applyRetireEntry e).footing = s.footing := by
  unfold applyRetireEntry counted
  split
  · dsimp only
    split
    · exact footing_countApplied.trans (footing_applyRetireBlocks ..)
    · exact (footing_countSkipped ..).trans (footing_applyRetireBlocks ..)
  · exact footing_countSkipped ..

/-- A walk row leaves what its entry leaves: the walk goes on without moving the footing. -/
theorem footing_walkStep (q : Footing → Prop) (k : EntryType) {apply : State → NextEntry → State} (hs : q s.footing)
    (happly : ∀ e, q (apply s e).footing) : q (s.walkStep k apply).footing := by
  unfold walkStep
  dsimp only
  split
  · exact hs
  · split
    · exact hs
    · rw [footing_tryRun, footing_advanceWalk]
      split
      · exact happly _
      · rwa [footing_countSkipped]

theorem footing_loadChunkEnd (xs : List Sample) : (s.loadChunkEnd xs).footing = s.footing := by
  have hu : ∀ cs (x : Startup), x.cause = (s.endTenure false cs).startup.cause →
      ((s.endTenure false cs).setStartup x).footing = s.footing := fun cs x hx =>
    (footing_setStartup hx).trans (footing_endTenure ..)
  unfold loadChunkEnd
  dsimp only
  split
  · split
    · exact hu _ _ rfl
    · exact (footing_copyEnded ..).trans (hu _ _ rfl)
  · rfl

/-! ### NAND slots -/

theorem footing_idleContext (c : Chip) : (s.idleContext c).footing = s.footing := footing_examine c

theorem footing_endOperation (c : Chip) (r : Ref) (st : Status) : (s.endOperation c r st).footing = s.footing :=
  (footing_idleContext c).trans (footing_complete r st)

theorem footing_loadResetDone : s.loadResetDone.footing = s.footing := by
  unfold loadResetDone
  dsimp only
  split
  · split
    · exact footing_copyEnded ..
    · exact footing_setStartup (s := s.setContext .s1 Context.idle) rfl
  · rfl

theorem footing_endClear (c : Chip) (x : Health) (st : Status) : (s.endClear c x st).footing = s.footing :=
  footing_deferredReply ..

theorem footing_takeRise (c : Chip) : (s.takeRise c).footing = s.footing := by
  unfold takeRise
  split
  · split
    · exact footing_loadResetDone
    · exact footing_idleContext c
  · exact footing_endClear ..
  · rfl

theorem footing_arm (c : Chip) (limit : Nat) (ready : Bool) : (s.arm c limit ready).footing = s.footing := by
  unfold arm
  dsimp only
  split
  · exact footing_takeRise c
  · rfl

theorem footing_readyRise (c : Chip) : (s.readyRise c).footing = s.footing := by
  unfold readyRise
  dsimp only
  split
  · exact footing_takeRise c
  · rfl

theorem footing_commandEnd (ready : Bool) : (s.commandEnd ready).footing = s.footing := by
  unfold commandEnd
  dsimp only
  split
  · rfl
  · split <;> exact (footing_arm ..).trans (footing_endTenure ..)

theorem footing_loadingEnd (ready : Bool) : (s.loadingEnd ready).footing = s.footing := by
  unfold loadingEnd
  dsimp only
  split
  · rfl
  · split
    · rfl
    · split
      · exact (footing_arm ..).trans (footing_endTenure ..)
      · exact footing_endTenure ..

theorem footing_loadSectorEnd (l : Load) (raw : List Byte) : (s.loadSectorEnd l raw).footing = s.footing := by
  unfold loadSectorEnd
  exact (footing_copyEnded ..).trans ((footing_setStartup rfl).trans (footing_endTenure ..))

theorem footing_unloadingEnd (bytes : List Byte) : (s.unloadingEnd bytes).footing = s.footing := by
  unfold unloadingEnd
  dsimp only
  split
  · rfl
  · split
    · split
      · exact (footing_endOperation ..).trans (footing_endTenure ..)
      · exact footing_endTenure ..
    · split
      · exact footing_loadSectorEnd ..
      · rfl
    · rfl

theorem footing_autoRetire (c : Chip) (b : Nat) : (s.autoRetire c b).1.footing = s.footing := by
  rw [autoRetire_only]
  rfl

theorem footing_statusEnd (b : Byte) : (s.statusEnd b).footing = s.footing := by
  unfold statusEnd
  dsimp only
  split
  · rfl
  · split
    · rfl
    · split
      · exact (footing_postSome _).trans ((footing_endOperation ..).trans ((footing_autoRetire ..).trans
          (footing_endTenure ..)))
      · exact (footing_endOperation ..).trans (footing_endTenure ..)

theorem footing_idEnd (bytes : List Byte) : (s.idEnd bytes).footing = s.footing := by
  unfold idEnd
  dsimp only
  split
  · rfl
  · split
    · rfl
    · exact (footing_endOperation ..).trans (footing_endTenure ..)

theorem footing_resetEnd (ready : Bool) : (s.resetEnd ready).footing = s.footing := by
  unfold resetEnd
  dsimp only
  split
  · rfl
  · exact (footing_arm ..).trans (footing_endTenure ..)

theorem footing_busyTimeout (c : Chip) : (s.busyTimeout c).footing = s.footing := by
  unfold busyTimeout
  dsimp only
  split
  · exact (footing_post ..).trans (footing_complete ..)
  · rfl

theorem footing_recoveryExpiry (c : Chip) : (s.recoveryExpiry c).footing = s.footing := by
  unfold recoveryExpiry
  dsimp only
  split
  · exact (footing_postBoth _).trans (footing_flush _)
  · rfl

theorem footing_clearExpiry (c : Chip) : (s.clearExpiry c).footing = s.footing := by
  unfold clearExpiry
  split
  · exact footing_endClear ..
  · rfl

theorem footing_loadTimeout : s.loadTimeout.footing = s.footing := by
  unfold loadTimeout
  dsimp only
  split
  · split
    · exact footing_loadResetDone
    · exact (footing_postBoth _).trans (footing_setStartup rfl)
    · rfl
  · rfl

/-! ### SDRAM events -/

theorem footing_wakeIfDue : s.wakeIfDue.footing = s.footing := by
  unfold wakeIfDue
  split <;> rfl

theorem footing_refreshExpiry : s.refreshExpiry.footing = s.footing := by
  unfold refreshExpiry
  dsimp only
  split
  · rfl
  · split
    · rfl
    · exact footing_postBoth _

theorem footing_refreshRoundEnd : s.refreshRoundEnd.footing = s.footing := by
  unfold refreshRoundEnd
  split
  · exact footing_endSd ..
  · rfl

theorem footing_enterPowerDown : s.enterPowerDown.footing = s.footing := by
  unfold enterPowerDown
  split <;> rfl

theorem footing_selfRefreshReached : s.selfRefreshReached.footing = s.footing := by
  unfold selfRefreshReached
  dsimp only
  split
  · exact footing_wakeIfDue
  · rfl

theorem footing_selfRefreshEntryEnd : s.selfRefreshEntryEnd.footing = s.footing := by
  unfold selfRefreshEntryEnd
  dsimp only
  split
  · split
    · exact (footing_deferredReply ..).trans (footing_endSd ..)
    · exact footing_endSd ..
  · rfl

theorem footing_selfRefreshExitEnd : s.selfRefreshExitEnd.footing = s.footing := by
  unfold selfRefreshExitEnd
  dsimp only
  split
  · split <;> exact footing_endSd ..
  · rfl

theorem footing_stabilised : s.stabilised.footing = s.footing := by
  unfold stabilised
  split <;> rfl

theorem footing_prechargeStepEnd : s.prechargeStepEnd.footing = s.footing := by
  unfold prechargeStepEnd
  split
  · exact footing_endSd ..
  · rfl

theorem footing_refreshStepEnd : s.refreshStepEnd.footing = s.footing := by
  unfold refreshStepEnd
  split
  · exact footing_endSd ..
  · rfl

theorem footing_modeStepEnd : s.modeStepEnd.footing = s.footing := by
  unfold modeStepEnd
  dsimp only
  split
  · exact footing_settleStartup.trans ((footing_deferredReply ..).trans (footing_endSd ..))
  · rfl

/-! ### Control messages -/

theorem footing_winSetAct (p : Port) (d : List Byte) : (s.winSetAct p d).footing = s.footing := by
  unfold winSetAct
  dsimp only
  split <;> exact footing_reply ..

theorem footing_winGetAct (p : Port) (d : List Byte) : (s.winGetAct p d).footing = s.footing := by
  unfold winGetAct
  split <;> exact footing_reply ..

theorem footing_slotSetAct (p : Port) (d : List Byte) : (s.slotSetAct p d).footing = s.footing := by
  unfold slotSetAct
  split <;> exact footing_reply ..

theorem footing_slotGetAct (p : Port) (d : List Byte) : (s.slotGetAct p d).footing = s.footing := by
  unfold slotGetAct
  split <;> exact footing_reply ..

theorem footing_slotClearAct (p : Port) (d : List Byte) : (s.slotClearAct p d).footing = s.footing := by
  unfold slotClearAct beginClear
  dsimp only
  split
  · exact footing_reply ..
  · split
    · split
      · exact footing_reply ..
      · exact footing_reply ..
      · exact footing_holdSlot ..
    · exact footing_reply ..

theorem footing_sdrSetAct (p : Port) (d : List Byte) : (s.sdrSetAct p d).footing = s.footing := by
  unfold sdrSetAct
  split
  · exact footing_holdSlot ..
  · exact footing_reply ..

theorem footing_sdrSleepAct (p : Port) (d : List Byte) : (s.sdrSleepAct p d).footing = s.footing := by
  have hsleep : (if s.sdram.sleepPending || !(s.queue .sd).isEmpty then s.reply p (answerToken d) .sdrSleep .busy []
      else ((s.setSdram { s.sdram with sleepPending := true, sleepReply := some ⟨p, answerToken d⟩ }).holdSlot
        p).wakeIfDue).footing = s.footing := by
    split
    · exact footing_reply ..
    · exact footing_wakeIfDue.trans (footing_holdSlot _)
  unfold sdrSleepAct
  dsimp only
  split
  · exact footing_reply ..
  · exact footing_reply ..
  · exact footing_reply ..
  · exact hsleep
  · exact hsleep

theorem footing_retireAddAct (p : Port) (d : List Byte) : (s.retireAddAct p d).footing = s.footing := by
  unfold retireAddAct
  dsimp only
  split
  · refine (footing_reply ..).trans ?_
    split
    · rfl
    · exact footing_examine _
  · exact footing_reply ..

theorem footing_retireDropAct (p : Port) (d : List Byte) : (s.retireDropAct p d).footing = s.footing := by
  unfold retireDropAct
  dsimp only
  split
  · exact footing_reply ..
  · split <;> exact footing_reply ..

theorem footing_retireListAct (p : Port) (d : List Byte) : (s.retireListAct p d).footing = s.footing := by
  unfold retireListAct
  split <;> exact footing_reply ..

theorem footing_cancelAct (p : Port) (d : List Byte) : (s.cancelAct p d).footing = s.footing := by
  unfold cancelAct
  dsimp only
  split
  · exact footing_reply ..
  · split
    · exact (footing_reply ..).trans (footing_cancelEntry _)
    · exact (footing_reply ..).trans (footing_cancelEntry _)
    · exact footing_reply ..
    · exact footing_reply ..
    · exact footing_reply ..

theorem footing_bridgeResetAct (p : Port) (d : List Byte) : (s.bridgeResetAct p d).footing = s.footing := by
  unfold bridgeResetAct
  split <;> exact footing_reply ..

theorem footing_of_stopped {k : CtrlKind} {p : Port} {d : List Byte} (h : s.stopped k p d = some u) :
    u.footing = s.footing := by
  unfold stopped at h
  split_ifs at h <;> obtain rfl := Option.some.inj h
  · exact footing_overrun p
  · exact footing_reply ..
  · exact footing_reply ..

theorem footing_dealControl (k : CtrlKind) (p : Port) (d : List Byte) {owner : State → State}
    (howner : (owner s).footing = s.footing) : (s.dealControl k p d owner).footing = s.footing := by
  unfold dealControl
  split
  · exact footing_slotAnswer ..
  · exact footing_slotAnswer ..
  · split
    · next hstop => exact footing_of_stopped hstop
    · exact howner

theorem footing_takeMessage {p : Port} {kind seq : Byte} {d : List Byte} {deal : State → State}
    (hdeal : (deal (s.takeFrame p seq)).footing = (s.takeFrame p seq).footing) :
    (s.takeMessage p kind seq d deal).footing = s.footing := by
  unfold takeMessage
  split
  · rfl
  · exact hdeal.trans (footing_takeFrame p seq)

theorem footing_takeControl (k : CtrlKind) (p : Port) (seq : Byte) (d : List Byte) {owner : State → State}
    (howner : ∀ u : State, (owner u).footing = u.footing) : (s.takeControl k p seq d owner).footing = s.footing :=
  footing_takeMessage (footing_dealControl k p d (howner _))

end State

end Sys2Proof.Machine
end

section
/-! What a command makes of the footing, and that it ends settled (R61, R62, R170–R173, R177, R180–R183, R192; log entries 10,
14, 17). -/
namespace Sys2Proof.Machine

variable {s t u : State}

/-! ### Settled states -/

/-- A pumped transmitter is not idle beside an item with HOLD# high (R177). -/
theorem State.pump_settled (s : State) (p : Port) (htx : ((s.pump p).port p).tx = none)
    (hhold : (s.pump p).pins.hold.get p = true) : ((s.pump p).port p).ready = [] := by
  rw [State.pump_pins] at hhold
  by_cases hbegin : (s.port p).tx = none ∧ (s.port p).ready ≠ []
  · obtain ⟨hidle, hready⟩ := hbegin
    obtain ⟨i, rest, hready⟩ := List.exists_cons_of_ne_nil hready
    rw [State.pump_begins hidle hhold hready, State.port_setPort, if_pos rfl] at htx
    cases htx
  · by_cases hready : (s.port p).ready = []
    · rwa [State.pump_rests (.inr (.inr hready))]
    · have hsending : (s.port p).tx ≠ none := fun hidle => hbegin ⟨hidle, hready⟩
      rw [State.pump_rests (.inl hsending)] at htx
      exact absurd htx hsending

/-- A pump leaves the other port's unit. -/
theorem State.pump_other {p q : Port} (s : State) (h : q ≠ p) : (s.pump p).port q = s.port q := by
  unfold State.pump
  dsimp only
  split
  · rw [State.port_setPort, if_neg h]
  · rfl

/-- The bus is granted where a slot is a candidate (R61, R62). -/
theorem State.grant_settled (s : State) (h : s.grant.arbiter.tenure = none) : s.grant.winner = none := by
  cases htenure : s.arbiter.tenure with
  | some x =>
    have hgrant : s.grant = s := by
      unfold State.grant
      rw [htenure]
    rw [hgrant, htenure] at h
    cases h
  | none =>
    cases hwinner : s.winner with
    | some k =>
      rw [State.grant_of_winner htenure hwinner] at h
      cases h
    | none =>
      have hgrant : s.grant = s := by
        unfold State.grant
        simp only [htenure, hwinner]
      rw [hgrant, hwinner]

/-- What follows every event leaves a settled state. -/
theorem State.settle_settled (s : State) : s.settle.Settled := by
  have hports : ∀ p, s.settle.port p = ((s.pump .a).pump .b).port p := fun p => by
    rw [State.settle, State.port, State.grant_ports]
    rfl
  have hpins : s.settle.pins = ((s.pump .a).pump .b).pins := by rw [State.settle, State.grant_pins]
  refine ⟨fun p => ?_, State.grant_settled _⟩
  rw [hports, hpins]
  cases p with
  | a =>
    rw [State.pump_other (s.pump .a) (by decide), State.pump_pins]
    exact s.pump_settled .a
  | b => exact (s.pump .a).pump_settled .b

/-! ### The resets -/

/-- The footing that a full reset leaves (R164, R172, R173, R183; log entry 17). -/
def Footing.afterReset (pins : Pins) (cause : Cause) (pending : List Instr) : Footing where
  straps := ⟨pins.boot, pins.baud, pins.mclksel⟩
  now := 0
  cause := cause
  pending := pending
  states := ⟨.down, .down⟩
  rights := ⟨true, false⟩

/-- The footing that a port reset leaves (R180). -/
def Footing.portDown (f : Footing) (p : Port) : Footing := { f with states := f.states.set p .down }

theorem State.footing_fullReset (cause : Cause) (pins : Pins) :
    (s.fullReset cause pins).footing = Footing.afterReset pins cause s.pending := rfl

theorem State.footing_cleared (p : Port) (cause : PortStart) :
    (s.cleared p cause).footing = s.footing.portDown p := by cases p <;> rfl

/-! ### The course of a command -/

/-- What a command can make of the footing before the state settles. -/
inductive State.Course (s : State) (c : Instr) (u : State) : Prop
  | kept (h : u.footing = s.footing)
  | rights (r : ByPort Bool) (hc : c = .setupPortsEntry) (h : u.footing = { s.footing with rights := r })
  | greeted (p : Port) (seq : Byte) (d : List Byte) (hc : c = .hello p seq d) (hd : d ≠ [])
      (htop : s.startup.top = .running) (hheld : (s.port p).held < 8)
      (h : u.footing = { s.footing with states := s.footing.states.set p .up })
  | portReset (p : Port) (h : u.footing = s.footing.portDown p)
  | fullReset (cause : Cause) (hc : s.TakesFullReset c cause)
      (h : u.footing = Footing.afterReset u.pins cause s.pending)

namespace State.Course

variable {c : Instr} {p : Port} {seq : Byte} {d : List Byte}

/-- A course from a state of the same footing. -/
theorem portResetStep (cause : PortStart) (hfooting : t.footing = s.footing)
    (hreset : t.bridgeReset = some p → s.TakesFullReset c (.message p)) : s.Course c (t.portResetStep p cause) := by
  have hpending : t.pending = s.pending := congrArg Footing.pending hfooting
  by_cases hb : t.bridgeReset = some p
  · refine .fullReset (.message p) (hreset hb) ?_
    obtain ⟨pins, hfull⟩ : ∃ pins, t.portReset p cause = ((t.cleared p cause).post p.other (.peerReset p cause)).fullReset
        (.message p) pins := ⟨_, by rw [State.portReset_eq, if_pos hb, State.messageReset]⟩
    have hpins : (t.portResetStep p cause).pins = pins := by
      rw [State.portResetStep, State.examineHeads, State.examine_pins, State.examine_pins, State.examine_pins,
        State.examine_pins, hfull, State.fullReset_pins]
    rw [hpins, State.portResetStep, State.footing_examineHeads, hfull, State.footing_fullReset, State.post_pending]
    exact congrArg (Footing.afterReset pins (.message p)) hpending
  · refine .portReset p ?_
    rw [State.portResetStep, State.footing_examineHeads, State.portReset_eq, if_neg hb, State.footing_post,
      State.footing_cleared, hfooting]

theorem breakTaken (s : State) (p : Port) : s.Course (.linkBreak p) (s.breakTaken p) := by
  by_cases hbreak : (s.port p).receiver = .inBreak
  · rw [State.breakTaken_of_inBreak hbreak]
    exact .kept rfl
  · have hbroken : ((s.setRxd p false).setPort p { s.port p with receiver := .inBreak }).footing = s.footing :=
      State.footing_setPort (s := s.setRxd p false) rfl rfl
    rw [State.breakTaken_begins hbreak]
    split
    · next hup => exact portResetStep .brk hbroken fun hb => .inr (.inr ⟨p, rfl, hb, .inr (.inr ⟨rfl, hup, hbreak⟩)⟩)
    · exact .kept hbroken

theorem takePortReset (s : State) (p : Port) (seq : Byte) (d : List Byte) :
    s.Course (.portReset p seq d) (s.takePortReset p seq d) := by
  have hframe : (s.takeFrame p seq).footing = s.footing := State.footing_takeFrame p seq
  by_cases ht : s.Takes p CtrlKind.portReset.code seq d
  · rw [State.takePortReset, State.takeMessage_in_turn ht]
    unfold State.dealPortReset
    split
    · exact .kept ((State.footing_slotAnswer ..).trans hframe)
    · exact .kept ((State.footing_slotAnswer ..).trans hframe)
    · next htop hup =>
      rw [State.takeFrame_startup] at htop
      rw [(s.takeFrame_standing p p seq).state] at hup
      split
      · exact .kept ((State.footing_slotAnswer ..).trans hframe)
      · next hd =>
        refine portResetStep .message hframe fun hb => ?_
        rw [State.takeFrame_bridgeReset] at hb
        exact .inr (.inr ⟨p, rfl, hb, .inr (.inl ⟨seq, d, rfl, ht, ⟨htop, hup⟩, hd⟩)⟩)
  · rw [State.takePortReset, State.takeMessage_out_of_turn ht]
    exact .kept rfl

theorem frameSent (s : State) (p : Port) : s.Course (.frameSent p) (s.frameSent p) := by
  unfold State.frameSent
  split
  · next i rest htx hready =>
    have hrest : (s.setPort p { s.port p with tx := none, ready := rest }).footing = s.footing :=
      State.footing_setPort rfl rfl
    have hfreed : ∀ v : State, (v.setPort p { v.port p with held := (v.port p).held - 1 }).footing = v.footing :=
      fun v => State.footing_setPort rfl rfl
    cases i with
    | entryReply tag => exact .kept ((State.footing_freeEntry _).trans hrest)
    | refusal tag st => exact .kept ((hfreed _).trans hrest)
    | notice n x => exact .kept ((State.footing_moveNotice p).trans hrest)
    | ctrl token k st body =>
      unfold State.itemSent
      dsimp only
      split
      · next hb =>
        obtain ⟨rfl, rfl, hb⟩ := hb
        exact .fullReset (.message p)
          (.inr (.inr ⟨p, rfl, hb, .inl ⟨rfl, by simp [htx], token, body, rest, hready⟩⟩)) rfl
      · exact .kept ((hfreed _).trans hrest)
  · exact .kept rfl

/-- HELLO brings a DOWN port UP in RUNNING with a payload and a free slot, and is answered otherwise (R170, R171). -/
theorem takeHello (s : State) (p : Port) (seq : Byte) (d : List Byte) :
    s.Course (.hello p seq d) (s.takeHello p seq d) := by
  have hframe : (s.takeFrame p seq).footing = s.footing := State.footing_takeFrame p seq
  by_cases ht : s.Takes p CtrlKind.hello.code seq d
  · rw [State.takeHello, State.takeMessage_in_turn ht]
    by_cases hdown : (s.takeFrame p seq).startup.top = .running ∧ ((s.takeFrame p seq).port p).state = .down
    · obtain ⟨htop, hstate⟩ := hdown
      rw [State.dealHello_of_down htop hstate]
      rw [State.takeFrame_startup] at htop
      split
      · exact .kept ((State.footing_slotAnswer ..).trans hframe)
      · next hd =>
        split
        · next hfree =>
          have hheld : (s.port p).held < 8 := by simpa [State.slotFree] using hfree
          refine .greeted p seq d rfl hd htop hheld ?_
          rw [State.helloDown, State.footing_reply, ← hframe]
          cases p <;> rfl
        · exact .kept ((State.footing_overrun p).trans hframe)
    · rw [State.dealHello_eq_dealControl hdown]
      exact .kept ((State.footing_dealControl _ _ _ (State.footing_reply ..)).trans hframe)
  · rw [State.takeHello, State.takeMessage_out_of_turn ht]
    exact .kept rfl

/-- A row of the setup record other than PORTS keeps the footing. -/
theorem walkStep (k : EntryType) {apply : State → NextEntry → State} (happly : ∀ e, (apply s e).footing = s.footing) :
    s.Course c (s.walkStep k apply) :=
  .kept (State.footing_walkStep (· = s.footing) k rfl happly)

theorem walkPorts (s : State) : s.Course .setupPortsEntry (s.walkStep .ports State.applyPorts) := by
  obtain ⟨r, hr⟩ := State.footing_walkStep (s := s) (fun f => ∃ r, f = { s.footing with rights := r }) .ports
    ⟨s.footing.rights, rfl⟩ fun e => State.footing_applyPorts e
  exact .rights r rfl hr

/-! ### Every command -/

theorem request (s : State) (k : ReqKind) (p : Port) (seq : Byte) (d : List Byte) :
    s.Course c (s.takeRequest k p seq d) :=
  .kept (State.footing_takeMessage (State.footing_dealRequest k p d))

theorem control (s : State) (k : CtrlKind) (p : Port) (seq : Byte) (d : List Byte) {owner : State → State}
    (howner : ∀ u : State, (owner u).footing = u.footing) : s.Course c (s.takeControl k p seq d owner) :=
  .kept (State.footing_takeControl k p seq d howner)

theorem chunkEnd (s : State) (xs : List Sample) :
    s.Course c (if s.inTenure .loadChunk then s.loadChunkEnd xs else s.chunkEnd xs) := by
  split
  · exact .kept (State.footing_loadChunkEnd xs)
  · exact .kept (State.footing_chunkEnd xs)

/-- Every command runs one course and then settles. -/
theorem exec (c : Instr) (s : State) : ∃ u, Machine.exec c s = .next u.settle ∧ s.Course c u := by
  cases c with
  | powerOn pins => exact ⟨_, rfl, .fullReset .power (.inl ⟨rfl, pins, rfl⟩) rfl⟩
  | resetPin pins => exact ⟨_, rfl, .fullReset .pin (.inr (.inl ⟨rfl, pins, rfl⟩)) rfl⟩
  | characterReceived p c stop => exact ⟨_, rfl, .kept (State.footing_character p c stop)⟩
  | frameGapTimeout p => exact ⟨_, rfl, .kept (State.footing_gapTimeout p)⟩
  | linkBreak p => exact ⟨_, rfl, breakTaken s p⟩
  | rxdRise p => exact ⟨_, rfl, .kept (State.footing_rxdHigh p)⟩
  | holdChange p level => exact ⟨_, rfl, .kept rfl⟩
  | frameSent p => exact ⟨_, rfl, frameSent s p⟩
  | read p seq d => exact ⟨_, rfl, request s .read p seq d⟩
  | write p seq d => exact ⟨_, rfl, request s .write p seq d⟩
  | cset p seq d => exact ⟨_, rfl, request s .cset p seq d⟩
  | swap p seq d => exact ⟨_, rfl, request s .swap p seq d⟩
  | fadd p seq d => exact ⟨_, rfl, request s .fadd p seq d⟩
  | pgRead p seq d => exact ⟨_, rfl, request s .pgRead p seq d⟩
  | pgProg p seq d => exact ⟨_, rfl, request s .pgProg p seq d⟩
  | blkErase p seq d => exact ⟨_, rfl, request s .blkErase p seq d⟩
  | nandId p seq d => exact ⟨_, rfl, request s .nandId p seq d⟩
  | hello p seq d => exact ⟨_, rfl, takeHello s p seq d⟩
  | info p seq d => exact ⟨_, rfl, control s .info p seq d fun _ => State.footing_reply ..⟩
  | status p seq d => exact ⟨_, rfl, control s .status p seq d fun _ => State.footing_reply ..⟩
  | winSet p seq d => exact ⟨_, rfl, control s .winSet p seq d fun _ => State.footing_winSetAct p d⟩
  | winGet p seq d => exact ⟨_, rfl, control s .winGet p seq d fun _ => State.footing_winGetAct p d⟩
  | slotSet p seq d => exact ⟨_, rfl, control s .slotSet p seq d fun _ => State.footing_slotSetAct p d⟩
  | slotGet p seq d => exact ⟨_, rfl, control s .slotGet p seq d fun _ => State.footing_slotGetAct p d⟩
  | slotClear p seq d => exact ⟨_, rfl, control s .slotClear p seq d fun _ => State.footing_slotClearAct p d⟩
  | sdrSet p seq d => exact ⟨_, rfl, control s .sdrSet p seq d fun _ => State.footing_sdrSetAct p d⟩
  | sdrGet p seq d => exact ⟨_, rfl, control s .sdrGet p seq d fun _ => State.footing_reply ..⟩
  | sdrSleep p seq d => exact ⟨_, rfl, control s .sdrSleep p seq d fun _ => State.footing_sdrSleepAct p d⟩
  | retireAdd p seq d => exact ⟨_, rfl, control s .retireAdd p seq d fun _ => State.footing_retireAddAct p d⟩
  | retireDrop p seq d => exact ⟨_, rfl, control s .retireDrop p seq d fun _ => State.footing_retireDropAct p d⟩
  | retireList p seq d => exact ⟨_, rfl, control s .retireList p seq d fun _ => State.footing_retireListAct p d⟩
  | cancel p seq d => exact ⟨_, rfl, control s .cancel p seq d fun _ => State.footing_cancelAct p d⟩
  | portReset p seq d => exact ⟨_, rfl, takePortReset s p seq d⟩
  | bridgeReset p seq d => exact ⟨_, rfl, control s .bridgeReset p seq d fun _ => State.footing_bridgeResetAct p d⟩
  | chunkEnd xs => exact ⟨_, rfl, chunkEnd s xs⟩
  | atomicEnd xs => exact ⟨_, rfl, .kept (State.footing_atomicEnd xs)⟩
  | waitLimitReached k xs => exact ⟨_, rfl, .kept (State.footing_waitLimit k xs)⟩
  | nandCommandEnd ready => exact ⟨_, rfl, .kept (State.footing_commandEnd ready)⟩
  | loadingTenureEnd ready => exact ⟨_, rfl, .kept (State.footing_loadingEnd ready)⟩
  | unloadingTenureEnd bytes => exact ⟨_, rfl, .kept (State.footing_unloadingEnd bytes)⟩
  | statusTenureEnd b => exact ⟨_, rfl, .kept (State.footing_statusEnd b)⟩
  | idTenureEnd bytes => exact ⟨_, rfl, .kept (State.footing_idEnd bytes)⟩
  | resetTenureEnd ready => exact ⟨_, rfl, .kept (State.footing_resetEnd ready)⟩
  | nandReadyRise c => exact ⟨_, rfl, .kept (State.footing_readyRise c)⟩
  | nandTimeout c => exact ⟨_, rfl, .kept (State.footing_busyTimeout c)⟩
  | recoveryResetExpiry c => exact ⟨_, rfl, .kept (State.footing_recoveryExpiry c)⟩
  | clearResetExpiry c => exact ⟨_, rfl, .kept (State.footing_clearExpiry c)⟩
  | loadBusyTimeout => exact ⟨_, rfl, .kept State.footing_loadTimeout⟩
  | refreshExpiry => exact ⟨_, rfl, .kept State.footing_refreshExpiry⟩
  | refreshRoundEnd => exact ⟨_, rfl, .kept State.footing_refreshRoundEnd⟩
  | powerdownEntry => exact ⟨_, rfl, .kept State.footing_enterPowerDown⟩
  | selfRefreshTimer => exact ⟨_, rfl, .kept State.footing_selfRefreshReached⟩
  | selfRefreshEntryEnd => exact ⟨_, rfl, .kept State.footing_selfRefreshEntryEnd⟩
  | selfRefreshExitEnd => exact ⟨_, rfl, .kept State.footing_selfRefreshExitEnd⟩
  | stabilisationWaitEnd => exact ⟨_, rfl, .kept State.footing_stabilised⟩
  | prechargeStepEnd => exact ⟨_, rfl, .kept State.footing_prechargeStepEnd⟩
  | refreshStepEnd => exact ⟨_, rfl, .kept State.footing_refreshStepEnd⟩
  | modeStepEnd => exact ⟨_, rfl, .kept State.footing_modeStepEnd⟩
  | setupPortsEntry => exact ⟨_, rfl, walkPorts s⟩
  | setupSlotEntry => exact ⟨_, rfl, walkStep .slot State.footing_applySlotEntry⟩
  | setupSdramEntry => exact ⟨_, rfl, walkStep .sdram State.footing_applySdramEntry⟩
  | setupWindowEntry => exact ⟨_, rfl, walkStep .window State.footing_applyWindowEntry⟩
  | setupRetireEntry => exact ⟨_, rfl, walkStep .retire State.footing_applyRetireEntry⟩
  | setupUnknownEntry => exact ⟨_, rfl, .kept State.footing_walkUnknown⟩

/-- No course changes the commands that wait. -/
theorem pending (h : s.Course c u) : u.pending = s.pending := by
  cases h with
  | kept h => exact congrArg Footing.pending h
  | rights r _ h => exact congrArg Footing.pending h
  | greeted p seq d _ _ _ _ h => exact congrArg Footing.pending h
  | portReset p h => exact congrArg Footing.pending h
  | fullReset cause _ h => exact congrArg Footing.pending h

end State.Course

/-! ### The statements -/

/-- Settles O2: what follows every event settles the state that the command's course leaves. -/
theorem everyCommandEndsSettled : Obligations.EveryCommandEndsSettled := by
  intro c s
  obtain ⟨u, hexec, hcourse⟩ := State.Course.exec c s
  exact ⟨u.settle, hexec, u.settle_settled, (State.settle_pending u).trans hcourse.pending⟩

/-- A course that takes no full reset keeps straps, cause and clock, and the rights but for the PORTS entry (R164, R192). -/
theorem State.Course.holds_or_resets {c : Instr} (h : s.Course c u) :
    (∃ states rights, (c ≠ .setupPortsEntry → rights = s.footing.rights) ∧
      u.footing = { s.footing with states := states, rights := rights }) ∨
    ∃ cause, s.TakesFullReset c cause ∧ u.footing = Footing.afterReset u.pins cause s.pending := by
  cases h with
  | kept h => exact .inl ⟨_, _, fun _ => rfl, h⟩
  | rights r hc h => exact .inl ⟨_, r, fun hne => absurd hc hne, h⟩
  | greeted p seq d _ _ _ _ h => exact .inl ⟨_, _, fun _ => rfl, h⟩
  | portReset p h => exact .inl ⟨_, _, fun _ => rfl, h⟩
  | fullReset cause hc h => exact .inr ⟨cause, hc, h⟩

/-- Settles O3: a course keeps the footing's straps, cause, clock and rights, or is a full reset that sets them. -/
theorem strapsCauseAndRightsHoldUntilAFullReset : Obligations.StrapsCauseAndRightsHoldUntilAFullReset := by
  intro c s t hexec
  obtain ⟨u, hu, hcourse⟩ := State.Course.exec c s
  obtain rfl := Host.Outcome.next.inj (hu.symm.trans hexec)
  rcases hcourse.holds_or_resets with ⟨states, rights, hrights, h⟩ | ⟨cause, hreset, h⟩
  · have ht := State.footing_settle.trans h
    refine .inl ⟨congrArg Footing.straps ht, congrArg Footing.cause ht, congrArg Footing.now ht, fun hne p => ?_⟩
    rw [← State.rights_footing, ← State.rights_footing, ht]
    exact congrArg (fun r : ByPort Bool => r.get p) (hrights hne)
  · have ht := State.footing_settle.trans h
    have hside : ∀ p, (u.settle.port p).config = (⟨true, false⟩ : ByPort Bool).get p := fun p => by
      rw [← State.rights_footing, ht]
      rfl
    refine .inr ⟨cause, hreset, congrArg Footing.cause ht, ?_, congrArg Footing.now ht, hside .a, hside .b⟩
    rw [State.settle_pins]
    exact congrArg Footing.straps ht

/-- A port that is UP after a course was UP before it, or HELLO has brought it UP (R170). -/
theorem State.Course.up {c : Instr} {p : Port} (h : s.Course c u) (hup : (u.port p).state = .up) :
    (s.port p).state = .up ∨
      (s.startup.top = .running ∧ (s.port p).held < 8 ∧ ∃ seq d, d ≠ [] ∧ c = .hello p seq d) := by
  rw [← State.states_footing] at hup
  cases h with
  | kept h =>
    rw [h, State.states_footing] at hup
    exact .inl hup
  | rights r _ h =>
    rw [h] at hup
    exact .inl ((s.states_footing p).symm.trans hup)
  | greeted q seq d hc hd htop hheld h =>
    by_cases hp : p = q
    · subst hp
      exact .inr ⟨htop, hheld, seq, d, hd, hc⟩
    · rw [h, ByPort.get_set, if_neg hp, State.states_footing] at hup
      exact .inl hup
  | portReset q h =>
    rw [h, Footing.portDown, ByPort.get_set] at hup
    split at hup
    · cases hup
    · exact .inl ((s.states_footing p).symm.trans hup)
  | fullReset cause _ h =>
    rw [h] at hup
    cases p <;> cases hup

/-- Settles O32: HELLO by the state of its port, and by the courses no other command brings a port UP. -/
theorem helloAloneBringsThePortUp : Obligations.HelloAloneBringsThePortUp := by
  refine ⟨fun s p seq token more htop hheld ht => ?_, fun c s t p hexec hup => ?_⟩
  · intro r w body
    have hstand := s.takeFrame_standing p p seq
    have hrun : (s.takeFrame p seq).startup.top = .running := by rw [State.takeFrame_startup, htop]
    have hfree : ((s.takeFrame p seq).port p).held < 8 := (State.takeFrame_held s p p seq).symm ▸ hheld
    refine ⟨fun hdown => ?_, fun hup hmore => ?_⟩
    · have hslot : (s.takeFrame p seq).slotFree p = true := by simpa [State.slotFree] using hfree
      have hbody : (s.takeFrame p seq).helloBody p = body (s.port p).start.code := by
        have hstart : ((s.takeFrame p seq).port p).start = (s.port p).start := by
          rw [State.takeFrame_of_down hdown, State.port_setPort, if_pos rfl]
        simp only [State.helloBody, State.takeFrame_startup, hstand.state, hstand.config, hdown, hstart]
        rfl
      rw [exec_hello ht, State.dealHello_of_down hrun (hstand.state.trans hdown), if_neg (by simp), if_pos hslot,
        State.helloDown, hbody]
      rfl
    · subst hmore
      have hserves : (s.takeFrame p seq).Serves p := ⟨hrun, hstand.state.trans hup⟩
      have hnotDown : ¬((s.takeFrame p seq).startup.top = .running ∧ ((s.takeFrame p seq).port p).state = .down) :=
        fun ⟨_, hdown⟩ => by simp [hserves.2] at hdown
      have hlength : [token].length = CtrlKind.hello.size := rfl
      have hbody : (s.takeFrame p seq).helloBody p = body 3 := by
        simp only [State.helloBody, State.takeFrame_startup, hstand.state, hstand.config, hup]
        rfl
      rw [exec_hello ht, State.dealHello_eq_dealControl hnotDown, State.dealControl_of_free _ hserves hfree,
        if_neg (not_not.2 hlength), if_neg fun ⟨hright, _⟩ => Bool.false_ne_true hright, State.helloUp, hbody]
      rfl
  · obtain ⟨u, hu, hcourse⟩ := State.Course.exec c s
    obtain rfl := Host.Outcome.next.inj (hu.symm.trans hexec)
    refine hcourse.up ?_
    rwa [← State.states_footing, State.footing_settle, State.states_footing] at hup

end Sys2Proof.Machine
end

section
/-! The setup load (R155, R186–R190): what a chunk, a reset, a read and a timeout make of the copy, and how a copy's reading
ends. -/
namespace Sys2Proof.Machine

/-! ### The judging of a copy (R189) -/

/-- A copy is valid when no test of R189 fails. -/
theorem recordReason_eq_valid_iff (d : List Byte) : recordReason d = .valid ↔
    d.take 4 = [0x5A, 0xC3, 0x24, 0x06] ∧ at8 d 4 = 1 ∧ 12 ≤ recordLength d ∧ recordLength d ≤ 512 ∧
      (crc32 (d.take (recordLength d - 4))).toNat = field d (recordLength d - 4) 4 := by
  unfold recordReason
  split_ifs with hmarker hversion hlength hcrc
  · exact ⟨nofun, fun ⟨h, _⟩ => absurd h hmarker⟩
  · exact ⟨nofun, fun ⟨_, h, _⟩ => absurd h hversion⟩
  · exact ⟨nofun, fun ⟨_, _, hlow, hhigh, _⟩ => by omega⟩
  · exact ⟨nofun, fun ⟨_, _, _, _, h⟩ => absurd h hcrc⟩
  · exact ⟨fun _ => ⟨not_not.1 hmarker, not_not.1 hversion, by omega, by omega, not_not.1 hcrc⟩, fun _ => rfl⟩

section
variable {s : State} {l : Load}

/-! ### The end of a copy's reading (R190, R191) -/

/-- A valid copy is the source, and the walk begins at its first entry. -/
theorem State.copyEnded_valid : s.copyEnded l .valid = (s.setStartup { s.startup with
    top := .starting .apply, load := none
    result := { s.startup.result.withReason l.second .valid with source := if l.second then .fallback else .primary }
    walk := if at8 s.startup.buffer 5 = 0 then none else some ⟨8, 0⟩ }).tryRun := by
  have hcount : (at8 s.startup.buffer 5).toNat = 0 ↔ at8 s.startup.buffer 5 = 0 :=
    ⟨fun h => BitVec.eq_of_toNat_eq h, fun h => by rw [h]; rfl⟩
  simp only [State.copyEnded, if_true, hcount]

/-- An invalid primary copy leads to the fallback copy. -/
theorem State.copyEnded_primary {x : CopyReason} (hx : x ≠ .valid) (hl : l.second = false) :
    s.copyEnded l x = s.setStartup { s.startup with
      result := s.startup.result.withReason l.second x, load := some (fallbackLoad l) } := by
  rw [State.copyEnded, if_neg hx, hl]
  rfl

/-- An invalid fallback copy leaves the defaults. -/
theorem State.copyEnded_fallback {x : CopyReason} (hx : x ≠ .valid) (hl : l.second = true) :
    s.copyEnded l x = (s.setStartup { s.startup with
      result := { s.startup.result.withReason l.second x with source := .defaults }, load := none, buffer := [] }).tryRun := by
  rw [State.copyEnded, if_neg hx, hl]
  rfl

/-! ### The chunks of a NOR copy (R187) -/

theorem exec_chunkEnd_load (hl : s.startup.load = some l) {t : Tenure} (ht : s.arbiter.tenure = some t)
    (hx : t.purpose = .loadChunk) (xs : List Sample) :
    let f := s.profile .s1
    let o := loadOffset l
    let buffer := putChunk s.startup.buffer l.chunk (readBytes f.beatBytes o 64 xs)
    let v := (s.endTenure false (readBeats f f.beatBytes o 64 xs (beatCount f.beatBytes o 64) false)).setStartup
      { s.startup with buffer := buffer, load := some { l with chunk := l.chunk + 1 } }
    exec (.chunkEnd xs) s =
      .next (if l.chunk + 1 < 8 then v else v.copyEnded l (recordReason buffer)).settle := by
  intro f o buffer v
  have hin : s.inTenure .loadChunk = true := State.inTenure_of_tenure ht hx
  change Host.Outcome.next (if s.inTenure .loadChunk then s.loadChunkEnd xs else s.chunkEnd xs).settle = _
  rw [hin, if_pos rfl, State.loadChunkEnd, hin, hl]
  dsimp only
  rw [State.endTenure_startup]

/-! ### The resets of a NAND copy (R188) -/

/-- A reset of the load ends the copy after a timeout, and otherwise makes the read due. -/
theorem State.loadResetDone_eq (hl : s.startup.load = some l) :
    s.loadResetDone = if l.phase = .timeoutReset then (s.setContext .s1 Context.idle).copyEnded l .timeout
      else (s.setContext .s1 Context.idle).setStartup
        { s.startup with load := some { l with phase := .reading } } := by
  unfold State.loadResetDone
  dsimp only
  rw [State.setContext_startup, hl]

/-- What a reset of the load leaves does not hang on the context it ran in. -/
theorem State.loadResetDone_setContext (x : Context) : (s.setContext .s1 x).loadResetDone = s.loadResetDone := by
  unfold State.loadResetDone
  rw [State.setContext_setContext]

/-- A rise in a reset of the load ends it (R188). -/
theorem State.takeRise_load (hl : s.startup.load = some l) (h : (s.context .s1).state = .recovering) :
    s.takeRise .s1 = s.loadResetDone := by
  have hloads : s.startup.loads .s1 = true := by rw [Startup.loads, hl]; rfl
  unfold State.takeRise
  rw [h]
  dsimp only
  rw [hloads, if_pos rfl]

theorem State.takeRise_setContext_load {x : Context} (hl : s.startup.load = some l) (h : x.state = .recovering) :
    (s.setContext .s1 x).takeRise .s1 = s.loadResetDone := by
  rw [State.takeRise_load (s := s.setContext .s1 x) hl (by simpa using h), State.loadResetDone_setContext]

/-- A line that is high at the end of the reset tenure ends the reset at once. -/
theorem State.resetEnd_load (hl : s.startup.load = some l) {t : Tenure} (ht : s.arbiter.tenure = some t)
    (hc : t.slot = .chip .s1) (hx : t.purpose = .nandReset) (hstate : (s.context .s1).state = .recovering) :
    s.resetEnd true = ((s.endTenure true resetCycles).setReady .s1 true).loadResetDone := by
  have hload : (s.endTenure true resetCycles).startup.load = some l := by rw [State.endTenure_startup, hl]
  exact (State.resetEnd_of_tenure ht hx hc true).trans ((if_pos rfl).trans
    (State.takeRise_setContext_load (s := (s.endTenure true resetCycles).setReady .s1 true)
      (x := (s.context .s1).resetArmed (s.profile .s1).resetLimit) hload hstate))

theorem State.readyRise_load (hl : s.startup.load = some l) (htimer : (s.context .s1).timer ≠ none)
    (hstate : (s.context .s1).state = .recovering) : s.readyRise .s1 = (s.setReady .s1 true).loadResetDone :=
  (State.readyRise_armed htimer).trans (State.takeRise_load (s := s.setReady .s1 true) hl hstate)

/-! ### The read of a NAND copy (R155, R188) -/

theorem State.contextEntry_of_none {c : Chip} (h : (s.context c).entry = none) : s.contextEntry c = none := by
  rw [State.contextEntry, h]
  rfl

/-- The read command takes page 0 of the copy's block and arms the timer with the read limit (R186, R188). -/
theorem State.commandEnd_load (hl : s.startup.load = some l) {t : Tenure} (ht : s.arbiter.tenure = some t)
    (hc : t.slot = .chip .s1) (hx : t.purpose = .nandCommand) (he : (s.context .s1).entry = none) (ready : Bool) :
    s.commandEnd ready = (s.endTenure true (readCommandCycles (s.profile .s1) (loadBlock l) 0)).arm .s1
      (s.profile .s1).readLimit ready := by
  unfold State.commandEnd
  rw [State.nandTenure_of_tenure ht hc hx]
  dsimp only
  rw [State.contextEntry_of_none he, hl]

/-- The unloading tenure of the load takes the sector for the record (R155). -/
theorem State.unloadingEnd_load (hl : s.startup.load = some l) {t : Tenure} (ht : s.arbiter.tenure = some t)
    (hc : t.slot = .chip .s1) (hx : t.purpose = .nandUnload) (he : (s.context .s1).entry = none) {bytes : List Byte}
    (hlen : bytes.length = 528) : s.unloadingEnd bytes = s.loadSectorEnd l bytes := by
  unfold State.unloadingEnd
  rw [State.nandTenure_of_tenure ht hc hx, dataBytes_of_length hlen]
  dsimp only
  rw [State.contextEntry_of_none he, hl]
  exact if_pos rfl

/-! ### The busy timer of the load (R188) -/

/-- A notice to two DOWN ports is discarded (R157, R158). -/
theorem State.postBoth_of_down (x : Notice) (h : ∀ p, (s.port p).state = .down) : s.postBoth x = s := by
  rw [State.postBoth, State.post_of_down x (h .a), State.post_of_down x (h .b)]

/-- The read has timed out: the reset begins, and the notice finds both ports DOWN. -/
theorem State.loadTimeout_busy (hl : s.startup.load = some l) (htimer : (s.context .s1).timer ≠ none)
    (hstate : (s.context .s1).state = .busy) (hports : ∀ p, (s.port p).state = .down) :
    s.loadTimeout = (s.setContext .s1 (s.context .s1).recover).setStartup
      { s.startup with load := some { l with phase := .timeoutReset } } := by
  obtain ⟨n, htimer⟩ := Option.ne_none_iff_exists'.1 htimer
  unfold State.loadTimeout
  dsimp only
  rw [hl, htimer]
  dsimp only
  rw [hstate]
  dsimp only
  exact State.postBoth_of_down _ hports

theorem State.loadTimeout_recovering (hl : s.startup.load = some l) (htimer : (s.context .s1).timer ≠ none)
    (hstate : (s.context .s1).state = .recovering) : s.loadTimeout = s.loadResetDone := by
  obtain ⟨n, htimer⟩ := Option.ne_none_iff_exists'.1 htimer
  unfold State.loadTimeout
  dsimp only
  rw [hl, htimer]
  dsimp only
  rw [hstate]

/-- An expiry of a stopped timer, of another phase or outside the load changes nothing (log entry 3). -/
theorem State.loadTimeout_none (h : s.startup.load = none ∨ (s.context .s1).timer = none ∨
    ((s.context .s1).state ≠ .busy ∧ (s.context .s1).state ≠ .recovering)) : s.loadTimeout = s := by
  unfold State.loadTimeout
  dsimp only
  split
  · next hl htimer =>
    obtain ⟨hbusy, hrecovering⟩ : (s.context .s1).state ≠ .busy ∧ (s.context .s1).state ≠ .recovering := by
      rcases h with h | h | h
      · rw [h] at hl
        cases hl
      · rw [h] at htimer
        cases htimer
      · exact h
    split
    · next hstate => exact absurd hstate hrecovering
    · next hstate => exact absurd hstate hbusy
    · rfl
  · rfl

end

/-- Settles O54: the load event by event, each read off its row's equation, and the two ends of a copy's reading. -/
theorem setupLoadEndsInACopyOrTheDefaults : Obligations.SetupLoadEndsInACopyOrTheDefaults := by
  refine ⟨?_, fun s hl => next_settle_of_eq (State.loadTimeout_none (.inl hl)), fun d => rfl, recordReason_eq_valid_iff⟩
  intro s l hl u f x line idled resetDone judged
  have hdone : ∀ {v : State}, v.startup = s.startup → v.loadResetDone = resetDone v := by
    intro v hv
    rw [State.loadResetDone_eq (hv ▸ hl), hv]
  refine ⟨?_, ?_, fun htimer => next_settle_of_eq (State.readyRise_stopped htimer), fun htimer => ⟨fun hstate => ?_,
    fun hstate => ?_⟩, ?_, ?_, fun htimer => ⟨fun hstate hports => ?_, fun hstate => ?_⟩,
    fun h => next_settle_of_eq (State.loadTimeout_none (.inr h)), fun reason hreason => ⟨fun hsecond => ?_, fun hsecond => ?_⟩,
    ?_⟩
  · intro t xs ht hx w o data buffer v
    have hrow := exec_chunkEnd_load hl ht hx xs
    exact ⟨fun hmore => hrow.trans (next_settle_of_eq (if_pos (by omega))),
      fun hlast => hrow.trans (next_settle_of_eq (if_neg (by omega)))⟩
  · intro t ht hc hx
    exact ⟨next_settle_of_eq (State.resetEnd_of_tenure ht hx hc false), fun hstate => next_settle_of_eq
      ((State.resetEnd_load hl ht hc hx hstate).trans (hdone (s.endTenure_startup true resetCycles)))⟩
  · exact next_settle_of_eq ((State.readyRise_load hl htimer hstate).trans (hdone rfl))
  · exact next_settle_of_eq ((State.readyRise_armed htimer).trans (State.takeRise_busy hstate))
  · intro t ready ht hc hx he hstate
    refine next_settle_of_eq ((State.commandEnd_load hl ht hc hx he ready).trans ?_)
    rw [State.arm_busy (by rwa [State.context_endTenure]), State.context_endTenure]
    simp only [State.setContext, State.setReady, State.endTenure_pins, State.endTenure_nand]
    rfl
  · intro t bytes ht hc hx he hlen read v
    refine next_settle_of_eq ((State.unloadingEnd_load hl ht hc hx he hlen).trans ?_)
    unfold State.loadSectorEnd
    dsimp only
    rw [eccDecoded_eq, State.setContext_startup, State.endTenure_startup, State.setContext_fresh, State.endTenure_fresh,
      State.setContext, State.endTenure_nand]
    rfl
  · exact next_settle_of_eq (State.loadTimeout_busy hl htimer hstate hports)
  · exact next_settle_of_eq ((State.loadTimeout_recovering hl htimer hstate).trans (hdone rfl))
  · exact State.copyEnded_primary hreason hsecond
  · exact State.copyEnded_fallback hreason hsecond
  · exact State.copyEnded_valid

end Sys2Proof.Machine
end

section
/-! The walk of the setup record (R191–R193) and the move to RUNNING (R195): which entry the walk stands at, what each type of
entry does, and how the walk goes on. -/
namespace Sys2Proof.Machine

/-! ### Counting (R196) -/

theorem State.countSkipped_eq (s : State) (n index : Nat) : s.countSkipped n index = s.setStartup { s.startup with
    result := { s.startup.result with
      skipped := s.startup.result.skipped + n
      firstSkipped := match s.startup.result.firstSkipped with | some i => some (min i index) | none => some index } } := by
  unfold State.countSkipped
  dsimp only
  cases s.startup.result.firstSkipped <;> rfl

/-! ### The move to RUNNING (R184, R195) -/

section
variable {s : State} {step : StartStep} (htop : s.startup.top = .starting step) (hload : s.startup.load = none)
  (hwalk : s.startup.walk = none)
include htop hload hwalk

theorem State.tryRun_held (h : s.sdram.state = .initialising ∨ s.startup.deferred ≠ []) :
    s.tryRun = s.setStartup { s.startup with top := .starting .settle } := by
  unfold State.tryRun
  dsimp only
  rw [htop, hload, hwalk]
  exact if_pos h

theorem State.tryRun_free (h : ¬(s.sdram.state = .initialising ∨ s.startup.deferred ≠ [])) :
    s.tryRun = s.setStartup { s.startup with top := .running, buffer := [], deferred := [] } := by
  unfold State.tryRun
  dsimp only
  rw [htop, hload, hwalk]
  exact if_neg h

end

/-- A load or a walk under way, and RUNNING itself, leave nothing to move. -/
theorem State.tryRun_same {s : State} (h : s.startup.load ≠ none ∨ s.startup.walk ≠ none ∨ s.startup.top = .running) :
    s.tryRun = s := by
  unfold State.tryRun
  dsimp only
  split
  · next htop hload hwalk =>
    rcases h with h | h | h
    · exact absurd hload h
    · exact absurd hwalk h
    · rw [htop] at h
      cases h
  · rfl

/-! ### The entry that the walk stands at (R191) -/

/-- The walk stands at a whole entry of a size, within the entry area and the record buffer. -/
structure State.AtEntry (s : State) (w : Walk) (size : Nat) : Prop where
  walk : s.startup.walk = some w
  size_eq : (at8 s.startup.buffer (w.pos + 1)).toNat = size
  least : 4 ≤ size
  area : w.pos + size ≤ recordLength s.startup.buffer - 4
  inside : w.pos + size ≤ s.startup.buffer.length

/-- The whole entry at the walk's place. -/
def State.entryAt (s : State) (w : Walk) (size : Nat) : NextEntry :=
  { type := entryTypeOf (at8 s.startup.buffer w.pos), bytes := (s.startup.buffer.drop w.pos).take size, broken := false
    index := w.index }

/-- The walk goes on past an entry, and the move to RUNNING is tried. -/
def State.pastEntry (s : State) (w : Walk) (size count : Nat) : State :=
  (s.setStartup { s.startup with
    walk := if w.index + 1 < count then some ⟨w.pos + size, w.index + 1⟩ else none }).tryRun

theorem State.tryRun_advanceWalk {s : State} {w : Walk} (h : s.startup.walk = some w) (size : Nat) :
    (s.advanceWalk size).tryRun = s.pastEntry w size (at8 s.startup.buffer 5).toNat := by
  unfold State.advanceWalk
  rw [h]
  rfl

section
variable {s : State} {w : Walk} {size : Nat}

theorem State.AtEntry.length (h : s.AtEntry w size) : (s.entryAt w size).bytes.length = size := by
  simp only [State.entryAt, List.length_take, List.length_drop]
  have := h.inside
  omega

theorem State.AtEntry.nextEntry (h : s.AtEntry w size) : s.nextEntry = some (s.entryAt w size) := by
  have hbroken : (decide (size < 4) || decide (recordLength s.startup.buffer - 4 < w.pos + size)) = false := by
    simp [h.least, h.area]
  unfold State.nextEntry
  rw [h.walk]
  dsimp only
  rw [h.size_eq, hbroken]
  rfl

theorem State.AtEntry.congr {u : State} (h : s.AtEntry w size) (hwalk : u.startup.walk = s.startup.walk)
    (hbuffer : u.startup.buffer = s.startup.buffer) : u.AtEntry w size where
  walk := hwalk.trans h.walk
  size_eq := hbuffer ▸ h.size_eq
  least := h.least
  area := hbuffer ▸ h.area
  inside := hbuffer ▸ h.inside

/-- An entry in its own type's row takes its effect, or is skipped when its size is wrong, and the walk goes on. -/
theorem State.AtEntry.walkStep {t : EntryType} (h : s.AtEntry w size)
    (ht : entryTypeOf (at8 s.startup.buffer w.pos) = t) (apply : State → NextEntry → State) :
    s.walkStep t apply = ((if expectedSize t (s.entryAt w size).bytes = some size then apply s (s.entryAt w size)
      else s.countSkipped 1 w.index).advanceWalk size).tryRun := by
  have hhere : ¬((s.entryAt w size).broken = true ∨ (s.entryAt w size).type ≠ t) := by
    rintro (hbroken | htype)
    · exact Bool.false_ne_true hbroken
    · exact htype ht
  unfold State.walkStep
  rw [h.nextEntry]
  dsimp only
  rw [if_neg hhere, h.length]
  rfl

theorem State.AtEntry.walkStep_of_size {t : EntryType} (h : s.AtEntry w size)
    (ht : entryTypeOf (at8 s.startup.buffer w.pos) = t) (hsize : expectedSize t (s.entryAt w size).bytes = some size)
    (apply : State → NextEntry → State) :
    s.walkStep t apply = ((apply s (s.entryAt w size)).advanceWalk size).tryRun := by
  rw [h.walkStep ht, if_pos hsize]

/-- What the row makes of the state, where its entry's effect leaves the walk and the record buffer. -/
theorem State.AtEntry.walkStep_of_eq {t : EntryType} {apply : State → NextEntry → State} {u : State} (h : s.AtEntry w size)
    (ht : entryTypeOf (at8 s.startup.buffer w.pos) = t) (hsize : expectedSize t (s.entryAt w size).bytes = some size)
    (hu : apply s (s.entryAt w size) = u) (hwalk : u.startup.walk = s.startup.walk)
    (hbuffer : u.startup.buffer = s.startup.buffer) :
    s.walkStep t apply = u.pastEntry w size (at8 s.startup.buffer 5).toNat := by
  rw [h.walkStep_of_size ht hsize, hu, State.tryRun_advanceWalk (hwalk.trans h.walk), hbuffer]

theorem State.AtEntry.walkStep_wrongSize {t : EntryType} (h : s.AtEntry w size)
    (ht : entryTypeOf (at8 s.startup.buffer w.pos) = t) (hsize : expectedSize t (s.entryAt w size).bytes ≠ some size)
    (apply : State → NextEntry → State) :
    s.walkStep t apply = (s.countSkipped 1 w.index).pastEntry w size (at8 s.startup.buffer 5).toNat := by
  rw [h.walkStep ht, if_neg hsize]
  exact State.tryRun_advanceWalk (s := s.countSkipped 1 w.index) h.walk size

/-- An entry of unknown type is skipped by its size. -/
theorem State.AtEntry.walkUnknown (h : s.AtEntry w size) (ht : entryTypeOf (at8 s.startup.buffer w.pos) = .unknown) :
    s.walkUnknown = (s.countSkipped 1 w.index).pastEntry w size (at8 s.startup.buffer 5).toNat := by
  have htype : (s.entryAt w size).type = .unknown := ht
  unfold State.walkUnknown
  rw [h.nextEntry]
  dsimp only
  rw [if_pos htype, h.length, if_neg (show ¬(s.entryAt w size).broken = true from Bool.false_ne_true)]
  exact State.tryRun_advanceWalk (s := s.countSkipped 1 w.index) h.walk size

/-- A size below 4 or past the entry area ends the walk. -/
theorem State.walkUnknown_broken (hw : s.startup.walk = some w) (hsize : (at8 s.startup.buffer (w.pos + 1)).toNat = size)
    (h : size < 4 ∨ recordLength s.startup.buffer - 4 < w.pos + size) :
    let u := s.countSkipped ((at8 s.startup.buffer 5).toNat - w.index) w.index
    s.walkUnknown = (u.setStartup { u.startup with walk := none }).tryRun := by
  have hbroken : (decide (size < 4) || decide (recordLength s.startup.buffer - 4 < w.pos + size)) = true := by
    simpa using h
  unfold State.walkUnknown State.nextEntry
  rw [hw]
  dsimp only
  rw [hsize, if_pos hbroken]

end

/-- The types by their codes (R204). -/
theorem entryTypeOf_known (b : Byte) :
    (b.toNat = 1 → entryTypeOf b = .ports) ∧ (b.toNat = 2 → entryTypeOf b = .slot) ∧
    (b.toNat = 3 → entryTypeOf b = .sdram) ∧ (b.toNat = 4 → entryTypeOf b = .window) ∧
    (b.toNat = 5 → entryTypeOf b = .retire) := by
  refine ⟨?_, ?_, ?_, ?_, ?_⟩ <;> intro h <;> simp [entryTypeOf, h]

theorem entryTypeOf_unknown {b : Byte} (h : b.toNat = 0 ∨ 5 < b.toNat) : entryTypeOf b = .unknown := by
  unfold entryTypeOf
  split
  · omega
  · omega
  · omega
  · omega
  · omega
  · rfl

/-! ### PORTS, SLOT and SDRAM (R192) -/

theorem grantOfCode_eq_none {b : Byte} (h : 1 < b.toNat) : grantOfCode b = none := by
  unfold grantOfCode
  split
  · omega
  · omega
  · rfl

section
variable {s : State} {e : NextEntry}

theorem State.applyPorts_granted {a b : Bool} (ha : grantOfCode (at8 e.bytes 2) = some a)
    (hb : grantOfCode (at8 e.bytes 3) = some b) : s.applyPorts e =
      ({ s with ports := ⟨{ s.ports.a with config := a }, { s.ports.b with config := b }⟩ } : State).countApplied := by
  unfold State.applyPorts
  rw [ha, hb]
  rfl

theorem State.applyPorts_refused (h : 1 < (at8 e.bytes 2).toNat ∨ 1 < (at8 e.bytes 3).toNat) :
    s.applyPorts e = s.countSkipped 1 e.index := by
  unfold State.applyPorts
  split
  · next ha hb =>
    rcases h with h | h
    · rw [grantOfCode_eq_none h] at ha
      cases ha
    · rw [grantOfCode_eq_none h] at hb
      cases hb
  · rfl

theorem State.applySlotEntry_ok {c : Chip} {f : Profile} (h : s.judgeSlot (at8 e.bytes 2) (e.bytes.drop 3) = .ok (c, f)) :
    s.applySlotEntry e = (s.applySlot c f).countApplied := by
  rw [State.applySlotEntry, h]

theorem State.applySlotEntry_error {st : Status} (h : s.judgeSlot (at8 e.bytes 2) (e.bytes.drop 3) = .error st) :
    s.applySlotEntry e = s.countSkipped 1 e.index := by
  rw [State.applySlotEntry, h]

theorem State.applySdramEntry_ok {t : Settings} (h : s.judgeSdr (e.bytes.drop 2) = .ok t) :
    s.applySdramEntry e = (s.applySdr t none).countApplied := by
  rw [State.applySdramEntry, h]

theorem State.applySdramEntry_error {st : Status} (h : s.judgeSdr (e.bytes.drop 2) = .error st) :
    s.applySdramEntry e = s.countSkipped 1 e.index := by
  rw [State.applySdramEntry, h]

end

/-! ### WINDOW and the deferred list (R192, R193) -/

section
variable {s : State} {entry index : Nat} {d : List Byte}

theorem State.applyWindowBlock_ok {v : Window} (h : s.judgeWindow index d = .ok v) :
    s.applyWindowBlock entry index d = (s.setWindow index v).countApplied := by
  rw [State.applyWindowBlock, h]

theorem State.applyWindowBlock_error {st : Status} (h : s.judgeWindow index d = .error st) :
    s.applyWindowBlock entry index d = s.countSkipped 1 entry := by
  rw [State.applyWindowBlock, h]

/-- The state with another deferred list. -/
def State.setDeferred (s : State) (l : List DeferredWindow) : State := s.setStartup { s.startup with deferred := l }

/-- The judging of a window block takes no notice of the deferred list. -/
theorem State.applyWindowBlock_setDeferred (l : List DeferredWindow) :
    (s.setDeferred l).applyWindowBlock entry index d = (s.applyWindowBlock entry index d).setDeferred l := by
  cases h : s.judgeWindow index d with
  | ok v =>
    rw [State.applyWindowBlock_ok h, State.applyWindowBlock_ok (s := s.setDeferred l) h]
    rfl
  | error st =>
    rw [State.applyWindowBlock_error h, State.applyWindowBlock_error (s := s.setDeferred l) h]
    rfl

theorem State.foldl_applyWindowBlock_setDeferred (l xs : List DeferredWindow) (s : State) :
    xs.foldl (fun s x => s.applyWindowBlock x.entry x.index x.block) (s.setDeferred l) =
      (xs.foldl (fun s x => s.applyWindowBlock x.entry x.index x.block) s).setDeferred l := by
  induction xs generalizing s with
  | nil => rfl
  | cons x xs ih => rw [List.foldl_cons, List.foldl_cons, State.applyWindowBlock_setDeferred, ih]

theorem State.applyDeferred_nil (h : s.startup.deferred = []) : s.applyDeferred = s := by
  rw [State.applyDeferred, h, List.foldl_nil, ← h]
  rfl

/-- The deferred windows are judged one after the other, from the front of the list on. -/
theorem State.applyDeferred_cons {x : DeferredWindow} {rest : List DeferredWindow} (h : s.startup.deferred = x :: rest) :
    s.applyDeferred = ((s.setDeferred rest).applyWindowBlock x.entry x.index x.block).applyDeferred := by
  have hrest : ((s.applyWindowBlock x.entry x.index x.block).setDeferred rest).startup.deferred = rest := rfl
  rw [State.applyWindowBlock_setDeferred, State.applyDeferred, State.applyDeferred, h, hrest, List.foldl_cons,
    State.foldl_applyWindowBlock_setDeferred]
  rfl

theorem State.supersede_none (h : ∀ x ∈ s.startup.deferred, x.index ≠ index) : s.supersede index = s := by
  have hfind : s.startup.deferred.find? (fun x => x.index == index) = none :=
    List.find?_eq_none.2 fun x hx hi => h x hx (by simpa using hi)
  rw [State.supersede, hfind]

/-- A deferred window of the index is skipped and leaves the list. -/
theorem State.supersede_of_append {before after : List DeferredWindow} {x : DeferredWindow}
    (hl : s.startup.deferred = before ++ x :: after) (hx : x.index = index) (h : ∀ y ∈ before ++ after, y.index ≠ index) :
    s.supersede index = (s.countSkipped 1 x.entry).setDeferred (before ++ after) := by
  have hother : ∀ {ys : List DeferredWindow}, (∀ y ∈ ys, y.index ≠ index) → ys.filter (fun y => y.index != index) = ys :=
    fun hys => List.filter_eq_self.2 fun y hy => by simpa using hys y hy
  have hbefore : ∀ y ∈ before, y.index ≠ index := fun y hy => h y (List.mem_append_left _ hy)
  have hafter : ∀ y ∈ after, y.index ≠ index := fun y hy => h y (List.mem_append_right _ hy)
  have hfind : s.startup.deferred.find? (fun x => x.index == index) = some x := by
    rw [hl, List.find?_append, List.find?_eq_none.2 fun y hy hi => hbefore y hy (by simpa using hi)]
    simp [hx]
  have hfilter : s.startup.deferred.filter (fun y => y.index != index) = before ++ after := by
    rw [hl, List.filter_append, hother hbefore, List.filter_cons_of_neg (by simp [hx]), hother hafter]
  rw [State.supersede, hfind]
  dsimp only
  rw [hfilter]
  rfl

end

theorem slotOfCode_eq_sd_iff (b : Byte) : slotOfCode b = some .sd ↔ b = 5 := by
  unfold slotOfCode
  by_cases h : b.toNat = 5
  · rw [if_pos h]
    exact iff_of_true rfl (BitVec.eq_of_toNat_eq h)
  · rw [if_neg h]
    refine iff_of_false (fun hs => ?_) fun hb => h (by rw [hb]; rfl)
    cases hc : chipOfCode b <;> simp [hc] at hs

/-- A WINDOW entry after the superseding: put off, or judged at once. -/
theorem State.applyWindowEntry_eq (s : State) (e : NextEntry) : s.applyWindowEntry e =
    let u := s.supersede (at8 e.bytes 2).toNat
    if at8 e.bytes 3 = 1 ∧ at8 e.bytes 4 = 5 ∧ u.sdram.state = .initialising then
      u.setDeferred (u.startup.deferred ++ [⟨e.index, (at8 e.bytes 2).toNat, e.bytes.drop 3⟩])
    else u.applyWindowBlock e.index (at8 e.bytes 2).toNat (e.bytes.drop 3) := by
  have hat : ∀ i, at8 (e.bytes.drop 3) i = at8 e.bytes (3 + i) := fun i => by simp [at8, List.getD]
  simp only [State.applyWindowEntry, slotOfCode_eq_sd_iff, hat]
  rfl

/-- With no deferred window of its index the entry is put off or judged. -/
theorem State.applyWindowEntry_alone {s : State} {e : NextEntry}
    (h : ∀ x ∈ s.startup.deferred, x.index ≠ (at8 e.bytes 2).toNat) : s.applyWindowEntry e =
    if at8 e.bytes 3 = 1 ∧ at8 e.bytes 4 = 5 ∧ s.sdram.state = .initialising then
      s.setDeferred (s.startup.deferred ++ [⟨e.index, (at8 e.bytes 2).toNat, e.bytes.drop 3⟩])
    else s.applyWindowBlock e.index (at8 e.bytes 2).toNat (e.bytes.drop 3) := by
  rw [State.applyWindowEntry_eq, State.supersede_none h]

/-- A deferred window of the entry's index is taken off the list first. -/
theorem State.applyWindowEntry_superseding {s : State} {e : NextEntry} {before after : List DeferredWindow}
    {x : DeferredWindow} (hl : s.startup.deferred = before ++ x :: after) (hx : x.index = (at8 e.bytes 2).toNat)
    (h : ∀ y ∈ before ++ after, y.index ≠ (at8 e.bytes 2).toNat) :
    s.applyWindowEntry e = ((s.countSkipped 1 x.entry).setDeferred (before ++ after)).applyWindowEntry e := by
  rw [State.applyWindowEntry_eq, State.applyWindowEntry_eq, State.supersede_of_append hl hx h,
    State.supersede_none (s := (s.countSkipped 1 x.entry).setDeferred (before ++ after)) h]

end Sys2Proof.Machine
end

section
/-! The blocks of a RETIRE entry and their slot's list (R139, R140, R194). -/
namespace Sys2Proof.Machine

/-! ### The list (R139, R140) -/

/-- What a block does to its slot's list: it takes its place where the slot has the block and the list has room. -/
def addBlock (bound : Nat) (l : List Nat) (b : Nat) : List Nat :=
  if b ∈ l then l else if b < bound ∧ l.length < 32 then insertAsc b l else l

theorem addBlock_of_mem {bound b : Nat} {l : List Nat} (h : b ∈ l) : addBlock bound l b = l := if_pos h

theorem addBlock_of_room {bound b : Nat} {l : List Nat} (h : b ∉ l) (hroom : b < bound ∧ l.length < 32) :
    addBlock bound l b = insertAsc b l := by
  rw [addBlock, if_neg h, if_pos hroom]

theorem addBlock_of_refused {bound b : Nat} {l : List Nat} (h : b ∉ l) (hroom : ¬(b < bound ∧ l.length < 32)) :
    addBlock bound l b = l := by
  rw [addBlock, if_neg h, if_neg hroom]

/-- A listed block stays listed. -/
theorem mem_foldl_addBlock {bound b : Nat} (bs : List Nat) {l : List Nat} (h : b ∈ l) : b ∈ bs.foldl (addBlock bound) l := by
  induction bs generalizing l with
  | nil => exact h
  | cons x bs ih =>
    refine ih ?_
    unfold addBlock
    split_ifs
    · exact h
    · exact (mem_insertAsc x b l).2 (.inr h)
    · exact h

/-- A block that was refused once is refused for good: the slot does not have it, or the list stays full. -/
theorem not_mem_foldl_addBlock {bound b : Nat} (bs : List Nat) {l : List Nat} (h : b ∉ l)
    (hroom : ¬(b < bound ∧ l.length < 32)) : b ∉ bs.foldl (addBlock bound) l := by
  induction bs generalizing l with
  | nil => exact h
  | cons x bs ih =>
    rw [List.foldl_cons]
    by_cases hx : x ∉ l ∧ x < bound ∧ l.length < 32
    · obtain ⟨hnew, hplace⟩ := hx
      have hb : ¬b < bound := fun hb => hroom ⟨hb, hplace.2⟩
      have hne : b ≠ x := fun hbx => hb (hbx ▸ hplace.1)
      rw [addBlock_of_room hnew hplace]
      exact ih (by simp [mem_insertAsc, hne, h]) fun hplace' => hb hplace'.1
    · have hsame : addBlock bound l x = l := by
        by_cases hmem : x ∈ l
        · exact addBlock_of_mem hmem
        · exact addBlock_of_refused hmem fun hplace => hx ⟨hmem, hplace⟩
      rw [hsame]
      exact ih h hroom

@[simp] theorem State.setRetired_setRetired (s : State) (c : Chip) (l m : List Nat) :
    (s.setRetired c l).setRetired c m = s.setRetired c m := by
  simp only [State.setRetired, ByChip.set_set]

theorem State.setRetired_get (s : State) (c : Chip) : s.setRetired c (s.retired.get c) = s := by
  cases c <;> rfl

/-- The blocks of a RETIRE entry take their places one by one, and all did when each is listed in the end. -/
theorem State.applyRetireBlocks_eq {code : Byte} {c : Chip} (hc : chipOfCode code = some c) (bs : List Nat) :
    ∀ s : State, (s.profile c).type = .nand → (∀ b ∈ s.retired.get c, b < (s.profile c).blockCount) →
      let added := bs.foldl (addBlock (s.profile c).blockCount) (s.retired.get c)
      s.applyRetireBlocks code bs = (s.setRetired c added, decide (∀ b ∈ bs, b ∈ added)) := by
  induction bs with
  | nil =>
    intro s _ _
    dsimp only [List.foldl_nil]
    rw [State.setRetired_get]
    simp [State.applyRetireBlocks]
  | cons b bs ih =>
    intro s htype hlist
    obtain ⟨houtside, hlisted, hfull, hroom⟩ := State.judgeRetire_of_chip (s := s) (b := b) hc
    rw [List.foldl_cons]
    unfold State.applyRetireBlocks
    by_cases hmem : b ∈ s.retired.get c
    · rw [hlisted ⟨htype, hlist b hmem⟩ hmem, addBlock_of_mem hmem]
      dsimp only
      rw [if_pos hmem, ih s htype hlist]
      simp [mem_foldl_addBlock bs hmem]
    by_cases hplace : b < (s.profile c).blockCount ∧ (s.retired.get c).length < 32
    · rw [hroom ⟨htype, hplace.1⟩ hmem hplace.2, addBlock_of_room hmem hplace]
      have hadded : b ∈ insertAsc b (s.retired.get c) := (mem_insertAsc b b _).2 (.inl rfl)
      have hget : (s.addRetired c b).retired.get c = insertAsc b (s.retired.get c) := by
        rw [State.get_addRetired, if_pos rfl]
      have hlist' : ∀ x ∈ (s.addRetired c b).retired.get c, x < (s.profile c).blockCount := by
        intro x hx
        rw [hget, mem_insertAsc] at hx
        rcases hx with rfl | hx
        · exact hplace.1
        · exact hlist x hx
      dsimp only
      rw [if_neg hmem, ih (s.addRetired c b) htype hlist', hget, State.addRetired, State.setRetired_setRetired,
        State.profile_setRetired]
      simp [mem_foldl_addBlock bs hadded]
    · have herror : ∃ st, s.judgeRetire code b = .error st := by
        by_cases hb : b < (s.profile c).blockCount
        · exact ⟨_, hfull ⟨htype, hb⟩ hmem (Nat.not_lt.1 fun hlen => hplace ⟨hb, hlen⟩)⟩
        · exact ⟨_, houtside fun hu => hb hu.2⟩
      obtain ⟨st, hst⟩ := herror
      rw [hst, addBlock_of_refused hmem hplace]
      dsimp only
      rw [ih s htype hlist]
      simp [not_mem_foldl_addBlock bs hmem hplace]

/-! ### The entry (R194) -/

section
variable {s : State} {e : NextEntry}

theorem State.applyRetireEntry_nand {c : Chip} (hc : chipOfCode (at8 e.bytes 2) = some c)
    (htype : (s.profile c).type = .nand) (hlist : ∀ b ∈ s.retired.get c, b < (s.profile c).blockCount) :
    let added := (retireBlocks e.bytes).foldl (addBlock (s.profile c).blockCount) (s.retired.get c)
    ((∀ b ∈ retireBlocks e.bytes, b ∈ added) → s.applyRetireEntry e = (s.setRetired c added).countApplied) ∧
    (¬(∀ b ∈ retireBlocks e.bytes, b ∈ added) →
      s.applyRetireEntry e = (s.setRetired c added).countSkipped 1 e.index) := by
  have hnand : s.namesNand (at8 e.bytes 2) = true := by rw [State.namesNand, hc]; simp [htype]
  unfold State.applyRetireEntry
  rw [if_pos hnand, State.applyRetireBlocks_eq hc _ s htype hlist]
  exact ⟨fun h => if_pos (decide_eq_true h), fun h => if_neg (by simpa using h)⟩

theorem State.applyRetireEntry_other (h : ∀ c, chipOfCode (at8 e.bytes 2) = some c → (s.profile c).type ≠ .nand) :
    s.applyRetireEntry e = s.countSkipped 1 e.index := by
  have hnand : ¬s.namesNand (at8 e.bytes 2) = true := by
    unfold State.namesNand
    split
    · next c hc => simpa using h c hc
    · exact Bool.false_ne_true
  rw [State.applyRetireEntry, if_neg hnand]

end

theorem expectedSize_retire (d : List Byte) (size : Nat) : expectedSize .retire d = some size ↔
    size = 4 + 2 * (at8 d 3).toNat ∧ (at8 d 3).toNat ≤ 32 := by
  unfold expectedSize
  dsimp only
  split_ifs with h
  · simp [h, eq_comm]
  · simp [h]

end Sys2Proof.Machine
end

section
/-! The rows of the setup walk and the move to RUNNING (R191–R196). -/
namespace Sys2Proof.Machine

/-- Settles O55: each row by the entry that the walk stands at (`AtEntry`), and the deferred list by its front. -/
theorem setupWalkAppliesOrSkipsEachEntry : Obligations.SetupWalkAppliesOrSkipsEachEntry := by
  refine ⟨?_, fun s => ⟨State.applyDeferred_nil, ?_⟩, ?_, fun s => State.tryRun_same⟩
  · intro s w hw d size count e type reached onward applied skips skipped
    have hskips : ∀ (u : State) (n i : Nat), u.countSkipped n i = skips u n i := fun u n i => u.countSkipped_eq n i
    have hat : reached → s.AtEntry w size := fun ⟨hleast, harea, hinside⟩ => ⟨hw, rfl, hleast, harea, hinside⟩
    obtain ⟨hports, hslot, hsdram, hwindow, hretire⟩ := entryTypeOf_known (at8 d w.pos)
    have htaken : ∀ {t : EntryType} {apply : State → NextEntry → State} (u : State), reached →
        entryTypeOf (at8 d w.pos) = t → expectedSize t e = some size → apply s (s.entryAt w size) = u →
        u.startup.walk = s.startup.walk → u.startup.buffer = s.startup.buffer → s.walkStep t apply = onward u :=
      fun u hr ht hsize hu hwalk hbuffer => (hat hr).walkStep_of_eq ht hsize hu hwalk hbuffer
    have hrefused : ∀ {t : EntryType} {apply : State → NextEntry → State} {u : State}, reached →
        entryTypeOf (at8 d w.pos) = t → expectedSize t e = some size → u.startup = s.startup →
        apply s (s.entryAt w size) = u.countSkipped 1 w.index → s.walkStep t apply = skipped u := by
      intro t apply u hr ht hsize hu happly
      have hsame := congrArg Startup.walk hu
      have hbuffer := congrArg Startup.buffer hu
      exact (htaken (u.countSkipped 1 w.index) hr ht hsize happly hsame hbuffer).trans (congrArg onward (hskips u 1 w.index))
    have hwrong : ∀ {t : EntryType} {apply : State → NextEntry → State}, reached → entryTypeOf (at8 d w.pos) = t →
        expectedSize t e ≠ some size → s.walkStep t apply = skipped s := fun hr ht hsize =>
      ((hat hr).walkStep_wrongSize ht hsize _).trans (congrArg onward (hskips s 1 w.index))
    refine ⟨?_, ?_, ?_, ?_, ?_, ?_, ?_, ?_, ?_⟩
    · intro hr ht hsize
      have hfits : expectedSize .ports e = some size := congrArg some hsize.symm
      exact ⟨fun a b ha hb => next_settle_of_eq (htaken _ hr (hports ht) hfits (State.applyPorts_granted ha hb) rfl rfl),
        fun h => next_settle_of_eq (hrefused hr (hports ht) hfits rfl (State.applyPorts_refused h))⟩
    · intro hr ht hsize
      have hfits : expectedSize .slot e = some size := congrArg some hsize.symm
      exact ⟨fun c f h => next_settle_of_eq (htaken _ hr (hslot ht) hfits (State.applySlotEntry_ok h) rfl rfl),
        fun st h => next_settle_of_eq (hrefused hr (hslot ht) hfits rfl (State.applySlotEntry_error h))⟩
    · intro hr ht hsize
      have hfits : expectedSize .sdram e = some size := congrArg some hsize.symm
      exact ⟨fun c h => next_settle_of_eq (htaken _ hr (hsdram ht) hfits (State.applySdramEntry_ok h) rfl rfl),
        fun st h => next_settle_of_eq (hrefused hr (hsdram ht) hfits rfl (State.applySdramEntry_error h))⟩
    · intro hr ht hsize hnone index put
      have hfits : expectedSize .window e = some size := congrArg some hsize.symm
      have halone := State.applyWindowEntry_alone (e := s.entryAt w size) hnone
      refine ⟨fun hput => next_settle_of_eq (htaken _ hr (hwindow ht) hfits (halone.trans (if_pos hput)) rfl rfl),
        fun hput => ⟨fun v hv => next_settle_of_eq (htaken _ hr (hwindow ht) hfits
          ((halone.trans (if_neg hput)).trans (State.applyWindowBlock_ok hv)) rfl rfl), fun st hst => next_settle_of_eq
          (hrefused hr (hwindow ht) hfits rfl ((halone.trans (if_neg hput)).trans (State.applyWindowBlock_error hst)))⟩⟩
    · intro hr ht hsize before x after hl hx hothers u
      have hfits : expectedSize .window e = some size := congrArg some hsize.symm
      have hu : (s.countSkipped 1 x.entry).setDeferred (before ++ after) =
          u.setStartup { u.startup with deferred := before ++ after } := by
        rw [hskips]
        rfl
      rw [← hu]
      refine next_settle_of_eq ?_
      have hat' : ((s.countSkipped 1 x.entry).setDeferred (before ++ after)).AtEntry w size := (hat hr).congr rfl rfl
      rw [(hat hr).walkStep_of_size (hwindow ht) hfits, hat'.walkStep_of_size (hwindow ht) hfits]
      exact congrArg (fun v : State => (v.advanceWalk size).tryRun)
        (State.applyWindowEntry_superseding (e := s.entryAt w size) hl hx fun y hy => hx ▸ hothers y hy)
    · intro hr ht hsize hblocks
      have hfits : expectedSize .retire e = some size := (expectedSize_retire e size).2 ⟨hsize, hblocks⟩
      refine ⟨?_, fun hother =>
        next_settle_of_eq (hrefused hr (hretire ht) hfits rfl (State.applyRetireEntry_other hother))⟩
      intro c hc hnand hlist added u
      obtain ⟨hall, hsome⟩ := State.applyRetireEntry_nand (e := s.entryAt w size) hc hnand hlist
      exact ⟨fun h => next_settle_of_eq (htaken _ hr (hretire ht) hfits (hall h) rfl rfl),
        fun h => next_settle_of_eq (hrefused (u := u) hr (hretire ht) hfits rfl (hsome h))⟩
    · intro hr
      have hother : ∀ {n : Nat}, size ≠ n → some n ≠ some size := fun h hn => h (Option.some.inj hn).symm
      refine ⟨fun ht h => next_settle_of_eq (hwrong hr (hports ht) (hother h)),
        fun ht h => next_settle_of_eq (hwrong hr (hslot ht) (hother h)),
        fun ht h => next_settle_of_eq (hwrong hr (hsdram ht) (hother h)),
        fun ht h => next_settle_of_eq (hwrong hr (hwindow ht) (hother h)),
        fun ht h => next_settle_of_eq (hwrong hr (hretire ht) fun hfits => ?_)⟩
      obtain ⟨hsize, hblocks⟩ := (expectedSize_retire e size).1 hfits
      exact h.elim (fun hne => hne hsize) fun hlt => absurd hblocks (Nat.not_le.2 hlt)
    · intro hr ht
      exact next_settle_of_eq (((hat hr).walkUnknown (entryTypeOf_unknown ht)).trans (congrArg onward (hskips s 1 w.index)))
    · intro h
      refine next_settle_of_eq ((State.walkUnknown_broken hw rfl h).trans ?_)
      rw [hskips]
  · intro x rest hl u r
    refine ⟨fun v hv => ?_, fun st hst => ?_⟩
    · rw [State.applyDeferred_cons hl, State.applyWindowBlock_ok (s := s.setDeferred rest) hv]
      rfl
    · rw [State.applyDeferred_cons hl, State.applyWindowBlock_error (s := s.setDeferred rest) hst, State.countSkipped_eq]
      rfl
  · intro s step htop hload hwalk held
    exact ⟨State.tryRun_held htop hload hwalk, State.tryRun_free htop hload hwalk⟩

end Sys2Proof.Machine
end

section
/-! Bytes and codes that read back as the numbers and names they were made from (R197, chapter 12). -/
namespace Sys2Proof.Machine

/-! ### Numbers (R197) -/

theorem toNat_byte {n : Nat} (h : n < 256) : (byte n).toNat = n := by
  rw [byte, BitVec.toNat_ofNat]
  exact Nat.mod_eq_of_lt h

theorem leValue_leBytes {k : Nat} : ∀ {n : Nat}, n < 256 ^ k → leValue (leBytes k n) = n := by
  induction k with
  | zero =>
    intro n h
    exact (Nat.lt_one_iff.1 h).symm
  | succ k ih =>
    intro n h
    have hrest : n / 256 < 256 ^ k := Nat.div_lt_of_lt_mul (by rwa [Nat.pow_succ'] at h)
    rw [leBytes, leValue, ih hrest, byte, BitVec.toNat_ofNat]
    exact Nat.mod_add_div n 256

/-- A 2-byte field. -/
theorem leValue_leBytes_word {n : Nat} (h : n < 65536) : leValue (leBytes 2 n) = n := leValue_leBytes (k := 2) h

/-- A 4-byte field. -/
theorem leValue_leBytes_long {n : Nat} (h : n < 4294967296) : leValue (leBytes 4 n) = n := leValue_leBytes (k := 4) h

theorem inRange_iff {lo hi n : Nat} : inRange lo hi n = true ↔ lo ≤ n ∧ n ≤ hi := by
  rw [inRange, Bool.and_eq_true, decide_eq_true_eq, decide_eq_true_eq]

theorem isPow2_le {lo hi n : Nat} (h : isPow2 lo hi n = true) : n ≤ 2 ^ hi := by
  obtain ⟨k, -, hk, rfl⟩ := isPow2_iff.1 h
  exact Nat.pow_le_pow_right (by decide) hk

/-! ### Codes (R202) -/

@[simp] theorem rightsOfCode_code (r : Rights) : rightsOfCode r.code = some r := by cases r <;> rfl

@[simp] theorem typeOfCode_code (t : SlotType) : typeOfCode t.code = some t := by cases t <;> rfl

@[simp] theorem eccOfCode_code (m : EccMode) : eccOfCode m.code = some m := by cases m <;> rfl

@[simp] theorem policyOfCode_code (y : PagePolicy) : policyOfCode y.code = some y := by cases y <;> rfl

@[simp] theorem slotOfCode_slotCode (k : Slot) : slotOfCode (slotCode k) = some k := by
  cases k with
  | chip c => cases c <;> rfl
  | sd => rfl

end Sys2Proof.Machine
end

section
/-! The blocks of 12.4 read back as the record they were made from: profile, settings and window (R201, R202). -/
namespace Sys2Proof.Machine

/-! ### Profile blocks (R70, R75, R117) -/

/-- The fields that every type uses, read from a profile's block. -/
theorem Profile.block_common {f : Profile} (h : commonOk f.type f.width f.recovery = true) :
    typeOfCode (at8 f.block 0) = some f.type ∧ (at8 f.block 1).toNat = f.width ∧ (at8 f.block 2).toNat = f.recovery ∧
      rightsOfCode (at8 f.block 3) = some f.rights.a ∧ rightsOfCode (at8 f.block 4) = some f.rights.b := by
  simp only [commonOk, Bool.and_eq_true, Bool.or_eq_true, beq_iff_eq, inRange_iff] at h
  obtain ⟨hwidth, -, hrecovery⟩ := h
  simp only [Profile.block, List.append_assoc]
  exact ⟨typeOfCode_code f.type, toNat_byte (by omega), toNat_byte (by omega), rightsOfCode_code f.rights.a,
    rightsOfCode_code f.rights.b⟩

/-- The static fields, read from a profile's block. -/
theorem Profile.block_static {t : SlotType} {f : Profile} (h : staticOk t f = true) :
    field f.block 5 4 = f.capacity ∧ (at8 f.block 9).toNat = f.setup ∧ (at8 f.block 10).toNat = f.strobe ∧
      (at8 f.block 11).toNat = f.hold ∧ field f.block 12 2 = f.waitLimit ∧ (at8 f.block 14).toNat = f.burstBeats ∧
      (at8 f.block 15).toNat = f.burstPitch := by
  simp only [staticOk, Bool.and_eq_true, Bool.or_eq_true, beq_iff_eq, inRange_iff] at h
  obtain ⟨⟨⟨⟨⟨hcapacity, hsetup⟩, hstrobe⟩, hhold⟩, hwait⟩, hburst⟩ := h
  have hcapacity := isPow2_le hcapacity
  have hbeats : f.burstBeats < 256 ∧ f.burstPitch < 256 := by
    split at hburst <;> simp only [Bool.and_eq_true, Bool.or_eq_true, beq_iff_eq, inRange_iff] at hburst <;> omega
  simp only [Profile.block, List.append_assoc]
  exact ⟨leValue_leBytes_long (by omega), toNat_byte (by omega), toNat_byte (by omega), toNat_byte (by omega),
    leValue_leBytes_word (by omega), toNat_byte hbeats.1, toNat_byte hbeats.2⟩

/-- The NAND fields, read from a profile's block. -/
theorem Profile.block_nand {f : Profile} (h : nandOk f = true) :
    field f.block 16 2 = f.pageSize ∧ field f.block 18 2 = f.pagesPerBlock ∧ field f.block 20 2 = f.blockCount ∧
      eccOfCode (at8 f.block 22) = some f.ecc ∧ (at8 f.block 23).toNat = f.threshold ∧ field f.block 24 2 = f.readLimit ∧
      field f.block 26 2 = f.programLimit ∧ field f.block 28 2 = f.eraseLimit ∧ field f.block 30 2 = f.resetLimit := by
  simp only [nandOk, Bool.and_eq_true, Bool.or_eq_true, beq_iff_eq, inRange_iff] at h
  obtain ⟨⟨⟨⟨⟨⟨⟨hpage, hpages⟩, hblocks⟩, hthreshold⟩, hread⟩, hprogram⟩, herase⟩, hreset⟩ := h
  have hblocks := isPow2_le hblocks
  simp only [Profile.block, List.append_assoc]
  exact ⟨leValue_leBytes_word (by omega), leValue_leBytes_word (by omega), leValue_leBytes_word (by omega), eccOfCode_code f.ecc, toNat_byte (by omega),
    leValue_leBytes_word (by omega), leValue_leBytes_word (by omega), leValue_leBytes_word (by omega), leValue_leBytes_word (by omega)⟩

/-- A profile in its ranges, its unused fields 0, reads back from its block. -/
theorem profileOfBlock_block {f : Profile} (h : f.Legal) : profileOfBlock f.block = some f := by
  obtain ⟨hcommon, hfields⟩ := h
  obtain ⟨htype, hwidth, hrecovery, ha, hb⟩ := Profile.block_common hcommon
  unfold profileOfBlock
  simp only [htype, hwidth, hrecovery, ha, hb, hcommon, if_true]
  cases ht : f.type <;> simp only [ht] at hfields ⊢
  case off => exact congrArg some hfields.symm
  case sram | nor =>
    obtain ⟨hok, hf⟩ := hfields
    obtain ⟨hcapacity, hsetup, hstrobe, hhold, hwait, hbeats, hpitch⟩ := Profile.block_static hok
    simp only [hcapacity, hsetup, hstrobe, hhold, hwait, hbeats, hpitch, ← hf, hok, if_true]
  case nand =>
    obtain ⟨hok, hf⟩ := hfields
    obtain ⟨hpage, hpages, hblocks, hecc, hthreshold, hread, hprogram, herase, hreset⟩ := Profile.block_nand hok
    simp only [hpage, hpages, hblocks, hecc, hthreshold, hread, hprogram, herase, hreset, ← hf, hok, if_true]

/-! ### Settings blocks (R91) -/

/-- The fields of a settings record in its ranges, read from its block. -/
theorem Settings.block_fields {t : Settings} (h : t.inRanges = true) :
    (at8 t.block 0).toNat = t.width ∧ (at8 t.block 1).toNat = t.banks ∧ (at8 t.block 2).toNat = t.rowBits ∧
      (at8 t.block 3).toNat = t.columnBits ∧ (at8 t.block 4).toNat = t.cas ∧ (at8 t.block 5).toNat = t.tRCD ∧
      (at8 t.block 6).toNat = t.tRP ∧ (at8 t.block 7).toNat = t.tRAS ∧ (at8 t.block 8).toNat = t.tWR ∧
      (at8 t.block 9).toNat = t.tRFC ∧ policyOfCode (at8 t.block 10) = some t.policy ∧
      field t.block 11 2 = t.refreshInterval ∧ field t.block 13 2 = t.powerDownIdle ∧
      field t.block 15 2 = t.selfRefreshIdle := by
  simp only [Settings.inRanges, Bool.and_eq_true, Bool.or_eq_true, beq_iff_eq, inRange_iff] at h
  simp only [Settings.block, List.append_assoc]
  refine ⟨toNat_byte ?_, toNat_byte ?_, toNat_byte ?_, toNat_byte ?_, toNat_byte ?_, toNat_byte ?_, toNat_byte ?_,
    toNat_byte ?_, toNat_byte ?_, toNat_byte ?_, policyOfCode_code t.policy, leValue_leBytes_word ?_,
    leValue_leBytes_word ?_, leValue_leBytes_word ?_⟩ <;> omega

/-- A settings record in its ranges reads back from its block. -/
theorem settingsOfBlock_block {t : Settings} (h : t.inRanges = true) : settingsOfBlock t.block = some t := by
  obtain ⟨hwidth, hbanks, hrow, hcolumn, hcas, hrcd, hrp, hras, hwr, hrfc, hpolicy, hrefresh, hdown, hself⟩ :=
    Settings.block_fields h
  unfold settingsOfBlock
  simp only [hwidth, hbanks, hrow, hcolumn, hcas, hrcd, hrp, hras, hwr, hrfc, hpolicy, hrefresh, hdown, hself, h, if_true]

/-! ### Window blocks (R32) -/

/-- The fields of a window with a target, its numbers below 2^32, read from its block. -/
theorem Window.block_fields {w : Window} {k : Slot} (hk : w.target = some k) (hbase : w.base < 2 ^ 32)
    (hsize : w.size < 2 ^ 32) (hoffset : w.offset < 2 ^ 32) :
    slotOfCode (at8 w.block 1) = some k ∧ rightsOfCode (at8 w.block 2) = some w.rights.a ∧
      rightsOfCode (at8 w.block 3) = some w.rights.b ∧ field w.block 4 4 = w.base ∧ field w.block 8 4 = w.size ∧
      field w.block 12 4 = w.offset := by
  simp only [Window.block, List.append_assoc, hk]
  exact ⟨slotOfCode_slotCode k, rightsOfCode_code w.rights.a, rightsOfCode_code w.rights.b, leValue_leBytes_long hbase,
    leValue_leBytes_long hsize, leValue_leBytes_long hoffset⟩

/-- An enabled window of the form of R32, its offset in the block's 4 bytes, reads back from its block. -/
theorem windowOfBlock_block {w : Window} (h : w.Formed) (henabled : w.enabled = true) (hoffset : w.offset < 2 ^ 32) :
    windowOfBlock w.block = some w := by
  rcases h with rfl | ⟨-, hsize, hbase, hspan, haligned, htarget⟩
  · cases henabled
  obtain ⟨k, hk⟩ := Option.isSome_iff_exists.1 htarget
  have hpos := isPow2_pos hsize
  have hle := isPow2_le hsize
  obtain ⟨hslot, ha, hb, hb4, hs4, ho4⟩ := Window.block_fields hk (by omega) (by omega) hoffset
  unfold windowOfBlock
  simp only [hslot, ha, hb, hb4, hs4, ho4, hsize, hbase, haligned, beq_self_eq_true, Bool.and_self, if_true]
  rw [← hk, ← henabled]

/-- Settles O37: each field of a block is read back by its own place, and the ranges make every number fit its bytes. -/
theorem blocksReadBackAsTheRecord : Obligations.BlocksReadBackAsTheRecord :=
  ⟨fun _ h => ⟨profileOfBlock_block h, rfl⟩, fun _ _ => profileOfBlock_legal, fun _ h => ⟨settingsOfBlock_block h, rfl⟩,
    fun _ h henabled hoffset => ⟨windowOfBlock_block h henabled hoffset, rfl⟩⟩

end Sys2Proof.Machine
end

section
/-! A frame of the line, byte by byte: what a receiver that hunts makes of the bytes of R198 (R164–R167). -/
namespace Sys2Proof.Machine

variable {s : State} {p : Port} {seq kind : Byte} {payload : List Byte}

/-- The state in which a port has received these bytes since SYNC, the last of them now (R166). -/
def State.midFrame (s : State) (p : Port) (b : List Byte) : State :=
  s.setPort p { s.port p with gapTime := 0, receiver := .inFrame b }

theorem State.receiver_midFrame (s : State) (p : Port) (b : List Byte) :
    ((s.midFrame p b).port p).receiver = .inFrame b := by simp [State.midFrame]

/-- SYNC takes a receiver that hunts into the frame. -/
theorem State.receive_sync (h : (s.port p).receiver = .hunting) : s.receive p 0xC3 = s.midFrame p [] := by
  rw [State.receive_hunting h, if_pos rfl]
  rfl

/-- What is kept of a frame before its next byte: nothing, the low byte of LEN, or LEN and what follows it. -/
theorem frame_begun_cases {b rest : List Byte} {c x : Byte} (hlen : payload.length ≤ 4352)
    (h : b ++ c :: rest = frameBody seq kind payload ++ [x]) :
    b.length = 0 ∨ (b.length = 1 ∧ (at8 b 0).toNat + 256 * c.toNat ≤ 4352) ∨
      (2 ≤ b.length ∧ b.length + 1 < (at8 b 0).toNat + 256 * (at8 b 1).toNat + 6) := by
  have hlength : b.length + (rest.length + 1) = 4 + payload.length + 1 := by
    simpa [frameBody_length] using congrArg List.length h
  have hvalue : (byte payload.length).toNat + 256 * (byte (payload.length / 256)).toNat = payload.length :=
    leValue_leBytes_word (by omega)
  match b, h with
  | [], _ => exact .inl rfl
  | [l], h =>
    obtain ⟨rfl, rfl, -⟩ : l = _ ∧ c = _ ∧ _ := by simpa [frameBody, leBytes] using h
    exact .inr (.inl ⟨rfl, hvalue.trans_le hlen⟩)
  | l :: g :: b, h =>
    obtain ⟨rfl, rfl, -⟩ : l = _ ∧ g = _ ∧ _ := by simpa [frameBody, leBytes] using h
    refine .inr (.inr ⟨Nat.le_add_left 2 b.length, ?_⟩)
    change _ < (byte payload.length).toNat + 256 * (byte (payload.length / 256)).toNat + 6
    omega

/-- A byte of a frame is kept while the last CRC byte is still to come (R166). -/
theorem State.receive_midFrame {b rest : List Byte} {c x : Byte} (hlen : payload.length ≤ 4352)
    (h : b ++ c :: rest = frameBody seq kind payload ++ [x]) :
    (s.midFrame p b).receive p c = s.midFrame p (b ++ [c]) := by
  rw [State.receive_kept (s.receiver_midFrame p b) (frame_begun_cases hlen h)]
  simp [State.midFrame]

/-- The bytes of a frame from any place to the first CRC byte are kept one after the other. -/
theorem State.foldl_receive_midFrame {x : Byte} (hlen : payload.length ≤ 4352) (rest : List Byte) :
    ∀ b, b ++ rest = frameBody seq kind payload ++ [x] →
      rest.foldl (fun u c => u.receive p c) (s.midFrame p b) = s.midFrame p (frameBody seq kind payload ++ [x]) := by
  induction rest with
  | nil =>
    intro b h
    rw [← h, List.append_nil, List.foldl_nil]
  | cons c rest ih =>
    intro b h
    rw [List.foldl_cons, State.receive_midFrame hlen h]
    exact ih (b ++ [c]) (by rwa [List.append_assoc])

/-- The last CRC byte of a frame as it was sent makes it a frame that waits for its message row (R167). -/
theorem State.receive_crc (hlen : payload.length ≤ 4352) (hkind : kind ∈ knownKinds) :
    let crc := (crc16 (frameBody seq kind payload)).toNat
    (s.midFrame p (frameBody seq kind payload ++ [byte crc])).receive p (byte (crc / 256)) =
      s.setPort p { s.port p with
        receiver := .hunting, gapTime := 0, arrived := (s.port p).arrived ++ [⟨kind, seq, payload⟩] } := by
  intro crc
  have hvalue : (byte crc).toNat + 256 * (byte (crc / 256)).toNat = crc := leValue_leBytes_word (crc16 _).isLt
  rw [State.receive_last hlen (State.receiver_midFrame _ _ _), State.judgeFrame_of_frame hlen,
    if_neg (not_not.2 hvalue.symm), if_neg (not_not.2 hkind)]
  simp [State.midFrame]

/-- Settles O11, by induction over the bytes of the frame between SYNC and the last CRC byte. -/
theorem hostFrameReachesThePort : Obligations.HostFrameReachesThePort := by
  intro s p seq kind payload hlen hkind hhunting
  let crc := (crc16 (frameBody seq kind payload)).toNat
  have hbytes : frameBytes seq kind payload =
      0xC3 :: ((frameBody seq kind payload ++ [byte crc]) ++ [byte (crc / 256)]) := by
    simp [frameBytes, leBytes, crc]
  rw [hbytes, List.foldl_cons, State.receive_sync hhunting, List.foldl_append,
    State.foldl_receive_midFrame hlen _ [] (List.nil_append _)]
  exact State.receive_crc hlen hkind

end Sys2Proof.Machine
end
